-- ==== Sys2Proof/Word.lean ====
section
/-! DEFINITION. Words, bytes and sparse stores: the plain data every other file uses. -/

namespace Sys2Proof

/-- A 64-bit register or scalar value (00_scope R9, 02 "What a core holds"). -/
abbrev Word := BitVec 64

/-- One byte. -/
abbrev Byte := BitVec 8

/-- One element encoding of a tile, zero-extended to the widest format, wide-48 (06 R160, R164). -/
abbrev Elem := BitVec 48

/-- A SHA-384 digest (03 R111, 14 R379). -/
abbrev Digest := BitVec 384

/-- Sparse data by key: pairs in ascending key order, no entry equal to what an unlisted key reads as.
A `Store Byte` is a list of `Host.Cell`. -/
abbrev Store (α : Type) := List (Nat × α)

end Sys2Proof
end

