-- ==== Sys2Proof/Pezal.lean ====
section
/-! DEFINITION. The decoded Pezal instructions that INSTRUCTION_DISPATCH reads from an instruction store (03), and the packet and the
ledger entry (09 R254; 15 R408). -/

namespace Sys2Proof

/-! ### Names of the Pezal instruction set (03 R71-R97) -/

/-- A scalar register index s0-s31 (03 R75). -/
abbrev Reg := BitVec 5
/-- A tile descriptor index t0-t15 (03 R77). -/
abbrev TReg := BitVec 4
/-- A completion token index tk0-tk15 (03 R76). -/
abbrev Tok := BitVec 4
/-- An accumulator slot index acc0-acc15 (03 R77). -/
abbrev Acc := BitVec 4
/-- A runnel handle index q0-q31 (03 R77). -/
abbrev QReg := BitVec 5

/-- A unit of a core, coded as SEC_CSTAT.FSTN (02 SEC_CSTAT). -/
inductive Stn where
  | scalar | intake | matrix | accmem | vector | outflow
  deriving DecidableEq, Repr

/-- The token fields of Form D (03 R76): the token incremented at retirement, and the token waited on with the register
that holds the threshold. -/
structure TokF where
  tki : Option Tok
  tkw : Option (Tok × Reg)
  deriving DecidableEq, Repr

/-- A 7-bit operand spec (03 R78). -/
inductive Spec where
  | pond (t : TReg)
  | slot (a : Acc)
  | handle (q : QReg)
  | lA | lB | lV | lO
  deriving DecidableEq, Repr

/-- Register arithmetic of Form A (03 R81). -/
inductive AluOp where
  | add | sub | and | or | xor | sll | srl | sra | slt | sltu | min | max | mul | mulhu | divu | remu
  deriving DecidableEq, Repr

/-- Immediate arithmetic of Form B (03 R81). -/
inductive ImmOp where
  | addi | andi | ori | xori | slli | srli | srai | lui
  deriving DecidableEq, Repr

/-- Branch conditions of Form C (03 R81). -/
inductive BrOp where
  | beq | bne | blt | bge | bltu | bgeu
  deriving DecidableEq, Repr

/-- The destination of an intake instruction (03 R87). -/
inductive LDst where
  | lA | lB | lV
  deriving DecidableEq, Repr

/-- VC.EW functions (03 R90). -/
inductive EwFn where
  | add | sub | mul | max | min | axpy
  deriving DecidableEq, Repr

/-- VC.UN functions (03 R90). -/
inductive UnFn where
  | copy | neg | abs | recip | rsqrt | exp | log | tanh | sigmoid | gelu | silu
  deriving DecidableEq, Repr

/-- VC.RED functions (03 R90). -/
inductive RedFn where
  | sum | max | min | sumsq
  deriving DecidableEq, Repr

/-- VC.BC functions: EW 0x00-0x04 (03 R90). -/
inductive BcFn where
  | add | sub | mul | max | min
  deriving DecidableEq, Repr

/-- VC.UPD functions (03 R90). -/
inductive UpdFn where
  | twoMoment | momentum | plain
  deriving DecidableEq, Repr

/-- SY operations (03 R94). -/
inductive SyOp where
  | fsig | fwait | sacq | stry | srel | eset | erst | ewait | weir | warr | wwait
  deriving DecidableEq, Repr

/-- The fields of CT.ROPEN, Form E (03 R80). -/
structure RopenF where
  q : QReg
  role : Bool            -- true: consumer end
  stn : BitVec 3
  sa : Reg
  sb : Reg
  td : TReg
  depth : BitVec 5
  kind : Bool            -- true: fabric runnel
  deriving DecidableEq, Repr

/-- A decoded vector operation with the fields it uses (03 R90). -/
inductive VcOp where
  | ew (fn : EwFn) (dst a b : Spec) (sc : Reg)
  | un (fn : UnFn) (dst a : Spec)
  | red (fn : RedFn) (rows : Bool) (dst a : Spec)
  | bc (fn : BcFn) (col : Bool) (dst a b : Spec)
  | cvt (toZero : Bool) (dst a : Spec) (sc : Reg)
  | upd (fn : UpdFn) (dst a b : Spec) (sc : Reg)
  | rng (dst : Spec) (sc : Reg)
  deriving DecidableEq, Repr

/-- A decoded outflow operation (03 R91). -/
inductive OfOp where
  | st (src : Spec) (sa sb sc : Reg)
  | stl (src : Spec) (sa sb : Reg)
  | snd (src : Spec) (q : QReg)
  | put (src : Spec) (ta : TReg) (toZero : Bool)
  | gsnd (src : Acc) (q : QReg) (sb : Reg)
  deriving DecidableEq, Repr

/-- A decoded intake operation (03 R87). -/
inductive InOp where
  | ldt (ta : TReg) (dst : LDst)
  | ldd (ta : TReg) (dst : LDst) (sa sb sc : Reg)
  | rcv (dst : LDst) (q : QReg)
  deriving DecidableEq, Repr

/-- A decoded matrix operation (03 R88). -/
inductive MxOp where
  | mma (acc : Acc) (z last : Bool)
  | prom (acc : Acc)
  deriving DecidableEq, Repr

/-- A decoded accumulator memory operation (03 R89). -/
inductive AmOp where
  | save (acc : Acc) (ta : TReg)
  | rest (acc : Acc) (ta : TReg)
  | zero (acc : Acc)
  | move (acc acc2 : Acc)
  deriving DecidableEq, Repr

/-- One decoded Pezal instruction (03 R71-R97). An encoding that breaks R73 decodes to none of them. -/
inductive PInstr where
  | alu (op : AluOp) (sd sa sb : Reg)
  | imm (op : ImmOp) (sd sa : Reg) (i : BitVec 32)
  | lds (sd sa : Reg) (i : BitVec 32)
  | sts (sd sa : Reg) (i : BitVec 32)
  | br (op : BrOp) (sa sb : Reg) (off : BitVec 32)
  | jmp (off : BitVec 32)
  | call (off : BitVec 32)
  | ret
  | tkw (tk : Tok) (sa : Reg)
  | tset (t : TReg) (sa : Reg)
  | tbase (t : TReg) (sa : Reg) (i : BitVec 32)
  | tget (sd : Reg) (t : TReg)
  | ccfg (sa : Reg) (i : BitVec 32)
  | ropen (f : RopenF)
  | rclose (tok : TokF) (q : QReg)
  | nop | halt | brk | trap
  | inn (op : InOp) (tok : TokF)
  | mx (op : MxOp) (tok : TokF)
  | am (op : AmOp) (tok : TokF)
  | vc (op : VcOp) (tok : TokF)
  | outf (op : OfOp) (tok : TokF)
  | sy (op : SyOp) (tok : TokF) (stn : Stn) (nf : Bool) (sd sa sb : Reg)
  | alloc (nf : Bool) (sd sa : Reg)
  | free (nf : Bool) (sd sa : Reg)
  | cpId (sd : Reg)
  | cpCap (sd : Reg) (i : BitVec 32)
  | cpCfg (sd : Reg) (i : BitVec 32)
  | cpMode (sd : Reg)
  deriving DecidableEq, Repr

/-- Where a SY command runs (03 R94): the scalar unit with the instruction's fields, or the head of a station's queue. -/
inductive SyAt where
  | scalar (nf : Bool) (sd sa sb : Reg)
  | queued (stn : Stn)
  deriving DecidableEq, Repr

/-- A fabric packet (09 R254): header fields and payload bytes. -/
structure Packet where
  typ : Nat            -- byte 0
  vc : Nat             -- byte 1
  tag : Nat            -- bytes 2-4
  hops : Nat           -- byte 5
  dst : Nat            -- bytes 6-7
  src : Nat            -- bytes 8-9
  dep : Nat            -- byte 10
  sep : Nat            -- byte 11
  birth : Nat          -- bytes 12-15
  flow : Nat           -- bytes 18-19
  pos : Nat            -- bytes 20-23
  cnt : Nat            -- bytes 24-26
  rsv27 : Nat          -- byte 27
  arg : Nat            -- bytes 28-31
  payload : List Byte  -- LEN bytes
  deriving DecidableEq, Repr

/-- A step ledger entry (15 R408). -/
structure LedgerEntry where
  step : Nat
  status : Nat
  d12 : Bool
  sign1 : Bool
  gid : Nat
  cnt : Nat
  expected : Nat
  ldig : BitVec 256
  deriving DecidableEq, Repr

end Sys2Proof
end

