-- ==== Sys2Proof/Image.lean ====
section
/-! DEFINITION. What a core, a siphon, an allocator and SYN hold, as plain data, and the saved image of a partition that is made of it
(15 R399): the schedule state that a cocoon or a twin transfer carries from one module to another. -/

namespace Sys2Proof.Machine

/-! ### Cores (02, 03, 04) -/

/-- A tile as a station receives it (02 R51-R55): 1,024 element encodings in row-major order as received, the scale bytes
of the stored rows for an MX format, and whether it was transposed on read. -/
structure Tile where
  fmt : Nat
  elems : List Elem
  scales : List Nat
  tr : Bool
  deriving DecidableEq, Repr

/-- What a receive ring holds next (02 R59). -/
inductive RingItem where
  | tile (t : Tile)
  | endMark
  deriving DecidableEq, Repr

/-- Runnel endpoint states (02 R59). -/
inductive EndState where
  | unbound | pending | opened | closing
  deriving DecidableEq, Repr

/-- What a runnel end is one end of (02 R57, 09 R262, 10 R278). -/
inductive EndKind where
  | canal
  | fabric
  | contribution (gid : Nat)
  | gather (gid : Nat)
  deriving DecidableEq, Repr

/-- One runnel handle (02 R57-R63). `opc` and `oseq` are the offset and dispatch number of the CT.ROPEN that bound it, `spc` and `sseq`
those of the last send on it, `mark` the
position at which a fabric consumer end meets the end marker. -/
structure Handle where
  state : EndState := .unbound
  kind : EndKind := .canal
  rid : Nat := 0
  consumer : Bool := false
  stn : Stn := .scalar
  peer : Nat := 0
  peerQ : Nat := 0
  fmt : Nat := 0
  depth : Nat := 0
  base : Nat := 0
  credits : Nat := 0
  pos : Nat := 0
  ring : List RingItem := []
  opc : Nat := 0
  oseq : Nat := 0
  spc : Nat := 0
  sseq : Nat := 0
  mark : Option Nat := none
  deriving DecidableEq, Repr

/-- An open request of a producer present at a consumer's core (02 R57). -/
structure OpenReq where
  rid : Nat
  prodCore : Nat
  prodQ : Nat
  consCore : Nat
  fmt : Nat
  pc : Nat
  seq : Nat
  deriving DecidableEq, Repr

/-- A message on the canal (02 R57, R59, R61, R64). Runnels are named by partition and identifier. -/
inductive CanalMsg where
  | openReq (part : Nat) (r : OpenReq)
  | openAck (part rid : Nat) (core q peerQ depth : Nat)
  | item (part rid : Nat) (core q : Nat) (x : RingItem)
  | credit (part rid : Nat) (core q n : Nat)
  | closeAck (part rid : Nat) (core q : Nat)
  deriving DecidableEq, Repr

/-- The configuration words of R85, copied into each queue entry (03 R86). -/
structure Cfg where
  chunk : Word := 256
  seed : Word := 0
  stream : Word := 0
  ctag : Word := 0
  deriving DecidableEq, Repr

/-- Progress of a queue entry: not started, started and waiting, or finished and ready to retire. -/
inductive Stage where
  | queued | running | done
  deriving DecidableEq, Repr

/-- An entry of a station's issue queue (02 R42-R44, 03 R86). `took` and `tookL` are the handles and local runnels whose tiles it has
taken, whose credits go back when it retires (02 R61); `past` lists the granule ranges (base, length) of blocks that were freed since an
IN.LDD under way was checked, which it still reads (07 R192). -/
structure QEntry where
  seq : Nat
  ins : PInstr
  pc : Nat
  sv : Store Word := []
  tv : Store Word := []
  cfg : Cfg := {}
  stage : Stage := .queued
  took : List Nat := []
  tookL : List Spec := []
  past : List (Nat × Nat) := []
  deriving DecidableEq, Repr

/-- What a unit of a core waits for (02 SEC_CSTAT BLK bits). -/
inductive Wait where
  | none | credit | tile | pending | token (tk thr : Nat) | sync (vid thr : Nat) | hazard | queueFull | engine
  deriving DecidableEq, Repr

/-- An accumulator slot with its run plane and chunk count (04 "Runs and the run format"). A run value has 1 sign bit,
10 exponent bits and 23 fraction bits. `promo` is the number of rows a promotion in progress has still to add, with the
plane it was handed. -/
structure Slot where
  w48 : Store Elem := []
  run : Store (BitVec 34) := []
  kc : Nat := 0
  promo : Option (Store (BitVec 34)) := none
  deriving DecidableEq, Repr

/-- A stop in progress (03 R104, R105): CT.HALT's drain, or a fault or stop with the record of the earliest fault. -/
structure Stop where
  drain : Bool
  status : Nat
  stn : Stn
  pc : Nat
  seq : Nat
  deriving DecidableEq, Repr

/-- The launch that runs a core (03 R97, R105): its function and queue, and the modes and the module's logical coordinate it started
with. -/
structure Launch where
  fn : Nat
  q : Nat
  d12 : Bool
  census : Bool
  coord : Nat := 0
  deriving DecidableEq, Repr

/-- What a SY instruction of the scalar unit that waits will do when released (03 R94, R95, R100): whether its status goes
into a register, and the token it increments. -/
structure ScalarSy where
  nf : Bool
  sd : Reg
  tki : Option Tok
  deriving DecidableEq, Repr

/-- One Pezal core (02 "What a core holds", 03 R112, 04, 05 counters). `lpos` holds the positions of the local runnels' ends, keyed
twice the runnel's number, plus one for the consumer end (02 R63). -/
structure Core where
  run : Bool := false
  halt : Bool := true
  regs : Store Word := []
  tds : Store Word := []
  toks : Store (BitVec 32) := []
  handles : Store Handle := []
  reqs : List OpenReq := []
  lA : List Tile := []
  lB : List Tile := []
  lV : List Tile := []
  lO : List Tile := []
  lpos : Store (BitVec 32) := []
  pond : Store Byte := []
  slots : Store Slot := []
  istore : Store Word := []
  ilen : Nat := 0
  pc : Nat := 0
  rstack : List Nat := []
  cfg : Cfg := {}
  queues : Store (List QEntry) := []
  waits : Store Wait := []
  dseq : Nat := 0
  stop : Option Stop := none
  fstat : Nat := 0
  fstn : Stn := .scalar
  fpc : Nat := 0
  launch : Option Launch := none
  weirPhase : Store Nat := []
  syPend : Option ScalarSy := none
  mxProms : Nat := 0
  mxSats : Nat := 0
  mxNspec : Nat := 0
  mxStallCc : Nat := 0
  vcSats : Nat := 0
  vcNspec : Nat := 0
  vcDrops : Nat := 0
  watchLow : Nat := 0
  watchHigh : Nat := 0
  sawSat : Bool := false
  sawSpec : Bool := false
  deriving DecidableEq, Repr

/-! ### Blocks and schedules (07) -/

/-- What a live block is (07 R189, 08 R231, 13 R370). -/
inductive BlkRole where
  | priv | output | commons | retired
  deriving DecidableEq, Repr

/-- A live block of a section allocator, in 64 KiB granules of the window (07 R189). `ctx` is the owning context. -/
structure Block where
  base : Nat
  n : Nat
  role : BlkRole
  ctx : Option Nat
  deriving DecidableEq, Repr

/-- Siphon schedule states (07 SIP_SCHED). -/
inductive SchedState where
  | idle | running | waiting | done | faulted
  deriving DecidableEq, Repr

/-- A siphon window descriptor (07 R203). -/
structure WinDesc where
  src : Nat
  len : Nat
  dst : Nat
  tok : Nat
  slice : Bool
  waitf : Bool
  fence : Nat
  fval : Nat
  mask : Nat
  deriving DecidableEq, Repr

/-- One siphon schedule (07 R206, R207). `cur` is the descriptor that passed R204, `moved` the bytes of it read so far; `past`
lists the granule ranges freed since the check of that descriptor, which it still reads (07 R192). `asked`: a read of it waits
at a sluice or for a page (08 R234). -/
structure Sched where
  state : SchedState := .idle
  index : Nat := 0
  fstat : Nat := 0
  pos : Nat := 0
  count : Nat := 0
  list : Nat := 0
  ctx : Option Nat := none
  stopAsked : Bool := false
  cur : Option WinDesc := none
  moved : Nat := 0
  past : List (Nat × Nat) := []
  asked : Bool := false
  deriving DecidableEq, Repr

/-! ### Sync objects (11) -/

/-- Kinds of sync object (11 R300). -/
inductive SynKind where
  | fence | sem | event | weir | fweir | remote
  deriving DecidableEq, Repr

/-- Life of a sync object (11 R303); a Free object is absent. -/
inductive Life where
  | live | saved | abandoned
  deriving DecidableEq, Repr

/-- Who waits (11 R300): a unit of a core, an Idind queue, or a siphon schedule. -/
inductive Who where
  | core (c : Nat) (u : Stn)
  | host (fn q : Nat)
  | siphon (sec k : Nat)
  deriving DecidableEq, Repr

/-- One blocked wait (11 R306, R310, R319). -/
structure Waiter where
  who : Who
  part : Nat
  vid : Nat
  thr : Nat
  parked : Bool
  deriving DecidableEq, Repr

/-- A box of modules (10 R275, 11 R317). -/
structure Box where
  xr : Bool := false
  yr : Bool := false
  zr : Bool := false
  tw : Bool := false
  deriving DecidableEq, Repr

/-- One sync object (11 R300-R318). `value` is a fence's value or a semaphore's count. -/
structure SynObj where
  kind : SynKind
  life : Life := .live
  owner : Nat
  ctx : Option Nat := none
  shared : Bool := false
  fabric : Bool := false
  value : Nat := 0
  set : Bool := false
  auto : Bool := false
  mask : List Nat := []
  arrived : List Nat := []
  held : List Nat := []
  sense : Bool := false
  releasing : Bool := false
  initial : Nat := 0
  given : Nat := 0
  taken : Nat := 0
  box : Box := {}
  number : Nat := 0
  upArr : List Nat := []
  passed : Bool := false
  joined : List Nat := []
  creating : Option (Nat × Nat) := none
  since : Nat := 0
  dstCoord : Nat := 0
  dstPart : Nat := 0
  dstVid : Nat := 0
  waiters : List Waiter := []
  deriving DecidableEq, Repr

/-! ### The saved image (13, 15) -/

/-- The saved on-die image and sync state of a partition (13 R360, 15 R399). -/
structure Saved where
  cores : Store Core
  scheds : List (Nat × Store Sched)
  objs : Store (Option SynObj)
  ids : Store Nat
  allocs : List (Nat × List Block × List (Nat × Nat))
  steps : List (Nat × Nat)
  meas : Digest
  canal : List CanalMsg := []
  ledger : List LedgerEntry := []
  streams : List (Nat × Store Nat) := []
  rings : Store (Nat × Packet) := []
  deriving DecidableEq, Repr, Inhabited

end Sys2Proof.Machine
end

