-- ==== Sys2Proof/Syntax.lean ====
section
/-! DEFINITION. The commands of the device (one constructor per row of spec/opcode_table.json), the data they carry in
from outside. -/

namespace Sys2Proof

/-! ### What arrives from outside with a command -/

/-- The way a register access reaches the module (12 R335, 18 R469, R475). `vf k` is VF k, 1-10. -/
inductive Path where
  | pf0 | vf (k : Nat) | smbus | eth
  deriving DecidableEq, Repr

/-- What a read of host memory returned (12 R348): the bytes, or an error for those from one place to another, with the bytes that the other
reads returned in their places. -/
inductive HostRead where
  | data (bytes : List Byte)
  | abort (bytes : List Byte) (lo hi : Nat)
  deriving DecidableEq, Repr

/-- What the bursts of a pending sluice request brought (08 R230). -/
inductive Burst where
  | clean
  | eccCorrected
  | lineEcc
  | macMismatch
  | copyBad (level index : Nat)
  | bothBad (level index : Nat)
  | rootFault
  deriving DecidableEq, Repr

/-- Class of a sluice requester (08 R222). -/
inductive ReqClass where
  | core | siphon | scrub | host
  deriving DecidableEq, Repr

/-- The clear control field of a flit and the packet bytes of its body (09 R244). -/
structure Flit where
  seq : Nat
  ack : Nat
  cvc : Nat
  sop : Bool
  nak : Bool
  idle : Bool
  cred : Nat
  eq : Nat
  body : List Byte
  deriving DecidableEq, Repr

/-- What the receiver of a port saw up to the end of one flit (09 R242-R246, R252). -/
structure FlitRx where
  lanes : List (List Nat)  -- by lane, the PAM4 levels of the codeword that completes the flit; empty where the codewords before it do
  errs : List (List Int)   -- by lane, the sign of the receiver's error at each of those symbols
  vc : Nat                 -- virtual channel of the packet bytes carried
  deriving DecidableEq, Repr

/-- What a peer showed during keying (09 R247, 14 R393). -/
structure PeerEvidence where
  chainOk : Bool       -- its certificates lead to the Walral root
  key : List Byte      -- the identity key of its last certificate
  sig : List Byte      -- its signature of the transcript
  uid : Nat
  pub : List Byte      -- its ephemeral public key
  nonce : List Byte
  lcs : Nat
  debug : Bool
  digests : List Digest
  svns : List Nat
  port : Nat
  px : Nat
  py : Nat
  pz : Nat
  dist : Nat
  deriving DecidableEq, Repr

/-- A physical position (09 R241): x, y, z and District. -/
structure Pos where
  x : Nat
  y : Nat
  z : Nat
  d : Nat
  deriving DecidableEq, Repr

/-- One change of a route table: a logical coordinate (in the DST layout of 09 R254) and its physical position. -/
structure RouteEntry where
  coord : Nat
  phys : Pos
  deriving DecidableEq, Repr

/-- What is lost of a reduction group (10 R293). -/
inductive Lost where
  | partition (p : Nat)                  -- a contributor partition of this module
  | module (coord : Nat) (seen : Bool) (parts : Nat) -- a failed member, whether a neighbour exchanged a packet of the step, and its contributors
  | remote (taken : Bool) (parts : Nat)  -- partitions of another live member, and whether its engine has taken a tile of theirs
  | shard                                -- a shard with no live owner (15 R415)
  | drop (step : Nat) (mismatch wrong : Bool) -- the controller drops a step: two scales differed; this module's report was wrong
  | joined (coord : Nat) (own : List Nat) (parts : Nat) -- a lost module has joined again: partitions of this module, contributors
  deriving DecidableEq, Repr

/-- A group entry of its twin that a spare is given (10 R277): the Create record, and the open step, its count and what is lost of it. -/
structure TwinGroup where
  record : List Byte
  part : Nat
  step : Nat
  expect : Nat
  lost : Nat
  deriving DecidableEq, Repr

/-- A candidate for time master (16 R439). -/
structure Candidate where
  pos : Pos
  cand : Bool
  prio : Nat
  ppsLocked : Bool
  self : Bool
  deriving DecidableEq, Repr

/-- What a TIME packet from upstream carries of the District's time (16 R438, R441, R443): hops from the master, and whether the master is
locked to PPS_IN, in holdover, and counts TAI. -/
structure TimeAnn where
  hops : Nat
  ppsLock : Bool
  holdover : Bool
  tai : Bool
  deriving DecidableEq, Repr

/-- A Delay_Req as it comes in (16 R443): its sequence number, its transport (0 Layer 2, 1 UDP over IPv4, 2 UDP over IPv6) and its domain. -/
structure PtpReq where
  seq : Nat
  transport : Nat
  domain : Nat
  deriving DecidableEq, Repr

/-- What Monarch finds at a bed at run time (17 R455): a logic check of one of its units has failed, or its scratchpad, instruction stores
or slots report an uncorrectable error. -/
inductive BedFault where
  | logic (bed : Nat)
  | memory (bed : Nat)
  deriving DecidableEq, Repr

/-- A unit that a start-up test found failing (17 R450). -/
inductive FailUnit where
  | bed (sec b : Nat)
  | passThrough (sec b : Nat)
  | stack (n : Nat) (timeout : Bool)
  | sluice (n : Nat)
  | siphon (n : Nat) | allocator (n : Nat) | stu (n : Nat)
  | syn | dma | headworks
  | port (n : Nat)
  | hostLanes (lanes : List Nat) (timeout : Bool)
  | monarch | vault
  deriving DecidableEq, Repr

/-- What the ROM finds in one copy of one firmware image (17 R448). -/
structure FwCopy where
  sigOk : Bool
  svn : Nat
  digest : Digest
  deriving DecidableEq, Repr

/-- Cables a port may find, with their length in cm (18 R474). -/
inductive Cable where
  | none | passive (cm : Nat) | activeOptical (cm : Nat) | other
  deriving DecidableEq, Repr

/-- Causes of a module reset, coded as MON_RESET.CAUSE (17). -/
inductive ResetCause where
  | powerOn | overvoltage | supplySag | afterTrip | afterFatal | monCmd
  deriving DecidableEq, Repr

/-- A cocoon image as COC_RESTORE reads it from host memory or the object table (15 R404, R405): the header block of 4 KiB, the range list,
the schedule state that the schedule part holds, the tensor part as it is stored, and the MAC of the trailer (assumptions 38, 40). -/
structure CocRead where
  header : List Byte
  ranges : List (Nat × Nat)
  sched : Machine.Saved
  tensor : List Byte
  mac : List Byte
  deriving DecidableEq, Repr

/-- What a twin's transfer carries to the spare (15 R412, R413): by partition its schedule state, by partition and DVA the
bytes of its live blocks, the keys that may move, wrapped: partition, slot, USAGE byte and blob, and, as identifier and epoch, the epoch
table that
the spare takes from the route master before it joins (13 R373). -/
structure Transfer where
  scheds : List (Nat × Machine.Saved) := []
  lines : List (Nat × Nat × List Byte) := []
  keys : List (Nat × Nat × Nat × List Byte) := []
  epochs : List (Nat × Nat) := []
  deriving DecidableEq, Repr

/-- The commands of the device: one constructor per row of spec/opcode_table.json, in the table's order, each with the
rule its row names. -/
inductive Instr where
  /-- INSTRUCTION_DISPATCH (R42). -/
  | instructionDispatch (core : Nat) (bad : Bool)
  /-- STATION_RETIRE (R100). -/
  | stationRetire (core : Nat) (stn : Stn)
  /-- CORE_HALT (R104). -/
  | coreHalt (core : Nat)
  /-- CT_ADD (R81). -/
  | ctAdd (core : Nat) (sd : Reg) (sa : Reg) (sb : Reg)
  /-- CT_SUB (R81). -/
  | ctSub (core : Nat) (sd : Reg) (sa : Reg) (sb : Reg)
  /-- CT_AND (R81). -/
  | ctAnd (core : Nat) (sd : Reg) (sa : Reg) (sb : Reg)
  /-- CT_OR (R81). -/
  | ctOr (core : Nat) (sd : Reg) (sa : Reg) (sb : Reg)
  /-- CT_XOR (R81). -/
  | ctXor (core : Nat) (sd : Reg) (sa : Reg) (sb : Reg)
  /-- CT_SLL (R81). -/
  | ctSll (core : Nat) (sd : Reg) (sa : Reg) (sb : Reg)
  /-- CT_SRL (R81). -/
  | ctSrl (core : Nat) (sd : Reg) (sa : Reg) (sb : Reg)
  /-- CT_SRA (R81). -/
  | ctSra (core : Nat) (sd : Reg) (sa : Reg) (sb : Reg)
  /-- CT_SLT (R81). -/
  | ctSlt (core : Nat) (sd : Reg) (sa : Reg) (sb : Reg)
  /-- CT_SLTU (R81). -/
  | ctSltu (core : Nat) (sd : Reg) (sa : Reg) (sb : Reg)
  /-- CT_MIN (R81). -/
  | ctMin (core : Nat) (sd : Reg) (sa : Reg) (sb : Reg)
  /-- CT_MAX (R81). -/
  | ctMax (core : Nat) (sd : Reg) (sa : Reg) (sb : Reg)
  /-- CT_MUL (R81). -/
  | ctMul (core : Nat) (sd : Reg) (sa : Reg) (sb : Reg)
  /-- CT_MULHU (R81). -/
  | ctMulhu (core : Nat) (sd : Reg) (sa : Reg) (sb : Reg)
  /-- CT_DIVU (R81). -/
  | ctDivu (core : Nat) (sd : Reg) (sa : Reg) (sb : Reg)
  /-- CT_REMU (R81). -/
  | ctRemu (core : Nat) (sd : Reg) (sa : Reg) (sb : Reg)
  /-- CT_ADDI (R81). -/
  | ctAddi (core : Nat) (sd : Reg) (sa : Reg) (i : BitVec 32)
  /-- CT_ANDI (R81). -/
  | ctAndi (core : Nat) (sd : Reg) (sa : Reg) (i : BitVec 32)
  /-- CT_ORI (R81). -/
  | ctOri (core : Nat) (sd : Reg) (sa : Reg) (i : BitVec 32)
  /-- CT_XORI (R81). -/
  | ctXori (core : Nat) (sd : Reg) (sa : Reg) (i : BitVec 32)
  /-- CT_SLLI (R81). -/
  | ctSlli (core : Nat) (sd : Reg) (sa : Reg) (i : BitVec 32)
  /-- CT_SRLI (R81). -/
  | ctSrli (core : Nat) (sd : Reg) (sa : Reg) (i : BitVec 32)
  /-- CT_SRAI (R81). -/
  | ctSrai (core : Nat) (sd : Reg) (sa : Reg) (i : BitVec 32)
  /-- CT_LUI (R81). -/
  | ctLui (core : Nat) (sd : Reg) (sa : Reg) (i : BitVec 32)
  /-- CT_LDS (R83). -/
  | ctLds (core : Nat) (sd : Reg) (sa : Reg) (i : BitVec 32)
  /-- CT_STS (R83). -/
  | ctSts (core : Nat) (sd : Reg) (sa : Reg) (i : BitVec 32)
  /-- CT_BEQ (R84). -/
  | ctBeq (core : Nat) (sa : Reg) (sb : Reg) (off : BitVec 32)
  /-- CT_BNE (R84). -/
  | ctBne (core : Nat) (sa : Reg) (sb : Reg) (off : BitVec 32)
  /-- CT_BLT (R84). -/
  | ctBlt (core : Nat) (sa : Reg) (sb : Reg) (off : BitVec 32)
  /-- CT_BGE (R84). -/
  | ctBge (core : Nat) (sa : Reg) (sb : Reg) (off : BitVec 32)
  /-- CT_BLTU (R84). -/
  | ctBltu (core : Nat) (sa : Reg) (sb : Reg) (off : BitVec 32)
  /-- CT_BGEU (R84). -/
  | ctBgeu (core : Nat) (sa : Reg) (sb : Reg) (off : BitVec 32)
  /-- CT_JMP (R84). -/
  | ctJmp (core : Nat) (off : BitVec 32)
  /-- CT_CALL (R82). -/
  | ctCall (core : Nat) (off : BitVec 32)
  /-- CT_RET (R82). -/
  | ctRet (core : Nat)
  /-- CT_TKW (R81). -/
  | ctTkw (core : Nat) (tk : Tok) (sa : Reg)
  /-- CT_TSET (R81). -/
  | ctTset (core : Nat) (t : TReg) (sa : Reg)
  /-- CT_TBASE (R81). -/
  | ctTbase (core : Nat) (t : TReg) (sa : Reg) (i : BitVec 32)
  /-- CT_TGET (R81). -/
  | ctTget (core : Nat) (sd : Reg) (t : TReg)
  /-- CT_CCFG (R85). -/
  | ctCcfg (core : Nat) (sa : Reg) (i : BitVec 32)
  /-- CT_ROPEN (R57). -/
  | ctRopen (core : Nat) (f : RopenF)
  /-- CT_RCLOSE (R59). -/
  | ctRclose (core : Nat) (stn : Stn)
  /-- CT_NOP (R81). -/
  | ctNop (core : Nat)
  /-- CT_HALT (R81). -/
  | ctHalt (core : Nat)
  /-- CT_BRK (R81). -/
  | ctBrk (core : Nat)
  /-- CT_TRAP (R81). -/
  | ctTrap (core : Nat)
  /-- IN_LDT (R87). -/
  | inLdt (core : Nat)
  /-- IN_LDD (R87). -/
  | inLdd (core : Nat)
  /-- IN_RCV (R87). -/
  | inRcv (core : Nat)
  /-- MX_MMA (R121). -/
  | mxMma (core : Nat)
  /-- MX_PROM (R124). -/
  | mxProm (core : Nat)
  /-- PROMOTION_COMPLETE (R122). -/
  | promotionComplete (core : Nat) (acc : Acc)
  /-- AM_SAVE (R89). -/
  | amSave (core : Nat)
  /-- AM_REST (R89). -/
  | amRest (core : Nat)
  /-- AM_ZERO (R89). -/
  | amZero (core : Nat)
  /-- AM_MOVE (R89). -/
  | amMove (core : Nat)
  /-- VC_EW (R140). -/
  | vcEw (core : Nat)
  /-- VC_UN (R142). -/
  | vcUn (core : Nat)
  /-- VC_RED (R144). -/
  | vcRed (core : Nat)
  /-- VC_BC (R145). -/
  | vcBc (core : Nat)
  /-- VC_CVT (R146). -/
  | vcCvt (core : Nat)
  /-- VC_UPD (R153). -/
  | vcUpd (core : Nat)
  /-- VC_RNG (R149). -/
  | vcRng (core : Nat)
  /-- OF_ST (R93). -/
  | ofSt (core : Nat)
  /-- OF_STL (R92). -/
  | ofStl (core : Nat)
  /-- OF_SND (R91). -/
  | ofSnd (core : Nat)
  /-- OF_PUT (R91). -/
  | ofPut (core : Nat)
  /-- OF_GSND (R280). -/
  | ofGsnd (core : Nat)
  /-- SY_FSIG (R305). -/
  | syFsig (core : Nat) (at_ : SyAt)
  /-- SY_FWAIT (R306). -/
  | syFwait (core : Nat) (at_ : SyAt)
  /-- SY_SACQ (R310). -/
  | sySacq (core : Nat) (at_ : SyAt)
  /-- SY_STRY (R310). -/
  | syStry (core : Nat) (at_ : SyAt)
  /-- SY_SREL (R311). -/
  | sySrel (core : Nat) (at_ : SyAt)
  /-- SY_ESET (R313). -/
  | syEset (core : Nat) (at_ : SyAt)
  /-- SY_ERST (R313). -/
  | syErst (core : Nat) (at_ : SyAt)
  /-- SY_EWAIT (R313). -/
  | syEwait (core : Nat) (at_ : SyAt)
  /-- SY_WEIR (R315). -/
  | syWeir (core : Nat) (at_ : SyAt)
  /-- SY_WARR (R315). -/
  | syWarr (core : Nat) (at_ : SyAt)
  /-- SY_WWAIT (R315). -/
  | syWwait (core : Nat) (at_ : SyAt)
  /-- AL_ALLOC (R189). -/
  | alAlloc (core : Nat) (nf : Bool) (sd : Reg) (sa : Reg)
  /-- AL_FREE (R189). -/
  | alFree (core : Nat) (nf : Bool) (sd : Reg) (sa : Reg)
  /-- CP_ID (R97). -/
  | cpId (core : Nat) (sd : Reg)
  /-- CP_CAP (R97). -/
  | cpCap (core : Nat) (sd : Reg) (i : BitVec 32)
  /-- CP_CFG (R97). -/
  | cpCfg (core : Nat) (sd : Reg) (i : BitVec 32)
  /-- CP_MODE (R97). -/
  | cpMode (core : Nat) (sd : Reg)
  /-- RUNNEL_OPEN_REQUEST (R57). -/
  | runnelOpenRequest (part : Nat) (rid : Nat)
  /-- OPEN_ACKNOWLEDGEMENT (R57). -/
  | openAcknowledgement (part : Nat) (rid : Nat)
  /-- CANAL_TILE_ARRIVAL (R64). -/
  | canalTileArrival (part : Nat) (rid : Nat)
  /-- CREDIT_RETURN (R61). -/
  | creditReturn (part : Nat) (rid : Nat)
  /-- CLOSE_ACKNOWLEDGEMENT (R59). -/
  | closeAcknowledgement (part : Nat) (rid : Nat)
  /-- SIPHON_DESCRIPTOR (R204). -/
  | siphonDescriptor (sec : Nat) (k : Nat)
  /-- SIPHON_GROUP_DELIVERY (R205). -/
  | siphonGroupDelivery (sec : Nat) (k : Nat)
  /-- SIPHON_DESCRIPTOR_COMPLETE (R205). -/
  | siphonDescriptorComplete (sec : Nat) (k : Nat)
  /-- SIPHON_FENCE_REACHED (R206). -/
  | siphonFenceReached (sec : Nat) (k : Nat)
  /-- FREED_BLOCK_SCRUB (R191). -/
  | freedBlockScrub (sec : Nat)
  /-- AQUIFER_READ (R199). -/
  | aquiferRead (sec : Nat) (dva : Nat)
  /-- AQUIFER_FRAME_ARRIVAL (R197). -/
  | aquiferFrameArrival (sec : Nat) (dva : Nat) (frame : Nat) (macOk : Bool)
  /-- CATCHMENT_FILL (R199). -/
  | catchmentFill (sec : Nat) (dva : Nat)
  /-- CATCHMENT_AGE_TICK (R200). -/
  | catchmentAgeTick
  /-- AQUIFER_TAG_TIMEOUT (R208). -/
  | aquiferTagTimeout (port : Nat)
  /-- READ_EYE_WINDOW (R210). -/
  | readEyeWindow (sl : Nat) (ch : Nat) (lane : Nat) (lo : Nat) (hi : Nat)
  /-- SLUICE_READ (R223). -/
  | sluiceRead (sl : Nat) (line : Nat) (part : Nat) (epoch : Nat) (cls : ReqClass)
  /-- STACK_BURST_ARRIVAL (R224). -/
  | stackBurstArrival (sl : Nat) (tag : Nat) (burst : Burst)
  /-- SLUICE_WRITE (R225). -/
  | sluiceWrite (sl : Nat) (line : Nat) (part : Nat) (epoch : Nat) (off : Nat) (data : List Byte) (cls : ReqClass)
  /-- GROUP_REENCRYPTION (R227). -/
  | groupReencryption (sl : Nat) (line : Nat) (part : Nat) (epoch : Nat) (off : Nat) (data : List Byte) (cls : ReqClass)
  /-- REENCRYPTION_COMPLETE (R227). -/
  | reencryptionComplete (sl : Nat)
  /-- METADATA_EVICTION (R220). -/
  | metadataEviction (sl : Nat) (level : Nat) (index : Nat)
  /-- COUNTER_PREFETCH (R222). -/
  | counterPrefetch (sl : Nat) (group : Nat) (cls : ReqClass)
  /-- WRITE_BUFFER_DRAIN (R225). -/
  | writeBufferDrain (sl : Nat)
  /-- GROUP_REWRITE (R228). -/
  | groupRewrite (sl : Nat) (group : Nat)
  /-- SLUICE_TAG_TIMEOUT (R235). -/
  | sluiceTagTimeout (sl : Nat) (tag : Nat)
  /-- LNK_ENABLE (R249). -/
  | lnkEnable (port : Nat)
  /-- LNK_DISABLE (R249). -/
  | lnkDisable (port : Nat)
  /-- LNK_RETRAIN (R249). -/
  | lnkRetrain (port : Nat)
  /-- LNK_FENCE (R249). -/
  | lnkFence (port : Nat)
  /-- LNK_UNFENCE (R249). -/
  | lnkUnfence (port : Nat)
  /-- PORT_DRAIN_COMPLETE (R250). -/
  | portDrainComplete (port : Nat)
  /-- EQUALISATION_AND_FEC_LOCK (R251). -/
  | equalisationAndFecLock (port : Nat) (rev : Bool) (inv : Nat) (rx : List Int) (tx : List Int)
  /-- LINK_KEYING (R247). -/
  | linkKeying (port : Nat) (ev : PeerEvidence)
  /-- KEYS_INSTALLED (R258). -/
  | keysInstalled (port : Nat) (occ : List Nat)
  /-- TRAINING_TIMEOUT (R249). -/
  | trainingTimeout (port : Nat)
  /-- ENABLE_RETRY (R249). -/
  | enableRetry (port : Nat)
  /-- LOSS_OF_SIGNAL (R249). -/
  | lossOfSignal (port : Nat) (lane : Nat)
  /-- NO_FLIT_TIMEOUT (R249). -/
  | noFlitTimeout (port : Nat)
  /-- FLIT_RECEIVE (R245). -/
  | flitReceive (port : Nat) (rx : FlitRx)
  /-- FLIT_TRANSMIT (R257). -/
  | flitTransmit (port : Nat)
  /-- FLOW_MOVE_TIMEOUT (R250). -/
  | flowMoveTimeout (port : Nat)
  /-- TX_TAP_STEP (R252). -/
  | txTapStep (port : Nat) (stp : Nat)
  /-- LINK_MARGIN (R253). -/
  | linkMargin (port : Nat) (heavy : Nat) (total : Nat)
  /-- PACKET_ARRIVAL (R255). -/
  | packetArrival (port : Nat) (pkt : Packet)
  /-- PACKET_EGRESS (R264). -/
  | packetEgress (slot : Nat)
  /-- EPOCH_MESSAGE (R264). -/
  | epochMessage (pkt : Packet)
  /-- FABRIC_TILE_ARRIVAL (R262). -/
  | fabricTileArrival (pkt : Packet)
  /-- RCRED_ARRIVAL (R262). -/
  | rcredArrival (pkt : Packet)
  /-- FAILURE_REPORT (R268). -/
  | failureReport (pos : Pos)
  /-- HEARTBEAT_MISS (R268). -/
  | heartbeatMiss (pos : Pos)
  /-- ROUTE_TABLES_COMPUTED (R268). -/
  | routeTablesComputed
  /-- ROUTE_PACKET (R268). -/
  | routePacket (version : Nat) (time : Nat) (table : List RouteEntry)
  /-- ROUTE_COMMIT (R268). -/
  | routeCommit (groups : List TwinGroup)
  /-- RG_JOIN (R277). -/
  | rgJoin (gid : Nat) (expect : Nat) (step : Nat)
  /-- RG_JOIN_TIMEOUT (R277). -/
  | rgJoinTimeout (gid : Nat)
  /-- REDUP_ARRIVAL (R287). -/
  | redupArrival (pkt : Packet)
  /-- SHARD_COMPLETE (R289). -/
  | shardComplete (gid : Nat)
  /-- SHARD_REPORT (R290). -/
  | shardReport (gid : Nat) (shard : Nat) (twin : Bool) (cnt : Nat)
  /-- COMMIT (R290). -/
  | commit (gid : Nat)
  /-- REDDN_ARRIVAL (R292). -/
  | reddnArrival (pkt : Packet)
  /-- CONTRIBUTOR_LOST (R293). -/
  | contributorLost (gid : Nat) (lost : Lost)
  /-- REMOTE_FENCE_SIGNAL (R309). -/
  | remoteFenceSignal (pkt : Packet)
  /-- FABRIC_WEIR_ARRIVAL (R317). -/
  | fabricWeirArrival (pkt : Packet)
  /-- FABRIC_WEIR_RELEASE (R317). -/
  | fabricWeirRelease (pkt : Packet)
  /-- FABRIC_WEIR_JOIN (R317). -/
  | fabricWeirJoin (pkt : Packet)
  /-- FABRIC_WEIR_JOIN_TIMEOUT (R317). -/
  | fabricWeirJoinTimeout (part : Nat) (vid : Nat)
  /-- FABRIC_WEIR_MEMBER_FAILURE (R318). -/
  | fabricWeirMemberFailure (part : Nat) (vid : Nat)
  /-- WAIT_RELEASE (R306). -/
  | waitRelease (grant : Nat)
  /-- WEIR_RELEASE_COMPLETE (R316). -/
  | weirReleaseComplete (part : Nat) (vid : Nat)
  /-- DEADLOCK (R323). -/
  | deadlock (part : Nat)
  /-- SQT_DOORBELL (R339). -/
  | sqtDoorbell (fn : Nat) (q : Nat) (idx : Nat) (pkts : List (List Byte))
  /-- CQH_DOORBELL (R339). -/
  | cqhDoorbell (fn : Nat) (q : Nat) (idx : Nat)
  /-- COMMAND_FETCH (R346). -/
  | commandFetch (fn : Nat) (q : Nat) (rd : HostRead)
  /-- COMMAND_COMPLETION (R344). -/
  | commandCompletion (fn : Nat) (q : Nat)
  /-- NOP (R345). -/
  | nopCmd (fn : Nat) (q : Nat)
  /-- CTX_OPEN (R338). -/
  | ctxOpen (fn : Nat) (q : Nat)
  /-- CTX_CLOSE (R338). -/
  | ctxClose (fn : Nat) (q : Nat)
  /-- DEATH_SEQUENCE_DONE (R352). -/
  | deathSequenceDone (fn : Nat) (ctx : Nat)
  /-- Q_CREATE (R340). -/
  | qCreate (fn : Nat) (q : Nat)
  /-- Q_DESTROY (R340). -/
  | qDestroy (fn : Nat) (q : Nat)
  /-- Q_RESUME (R340). -/
  | qResume (fn : Nat) (q : Nat)
  /-- MEM_ALLOC (R189). -/
  | memAlloc (fn : Nat) (q : Nat)
  /-- MEM_FREE (R189). -/
  | memFree (fn : Nat) (q : Nat)
  /-- MAP (R347). -/
  | mapCmd (fn : Nat) (q : Nat)
  /-- UNMAP (R347). -/
  | unmap (fn : Nat) (q : Nat)
  /-- COPY_IN (R348). -/
  | copyIn (fn : Nat) (q : Nat) (rd : HostRead)
  /-- COPY_OUT (R348). -/
  | copyOut (fn : Nat) (q : Nat) (bad : Option Nat)
  /-- LOAD_IMAGE (R110). -/
  | loadImage (fn : Nat) (q : Nat)
  /-- LAUNCH (R112). -/
  | launch (fn : Nat) (q : Nat)
  /-- STOP (R349). -/
  | stopCmd (fn : Nat) (q : Nat)
  /-- SYN_CREATE (R484). -/
  | synCreate (fn : Nat) (q : Nat)
  /-- SYN_DESTROY (R303). -/
  | synDestroy (fn : Nat) (q : Nat)
  /-- SYN_EXPORT (R303). -/
  | synExport (fn : Nat) (q : Nat)
  /-- SYN_SIGNAL (R305). -/
  | synSignal (fn : Nat) (q : Nat)
  /-- SYN_WAIT (R306). -/
  | synWait (fn : Nat) (q : Nat)
  /-- SIP_START (R206). -/
  | sipStart (fn : Nat) (q : Nat)
  /-- SIP_STOP (R206). -/
  | sipStop (fn : Nat) (q : Nat)
  /-- AQ_CREATE (R193). -/
  | aqCreate (fn : Nat) (q : Nat)
  /-- AQ_WRITE (R193). -/
  | aqWrite (fn : Nat) (q : Nat) (rd : HostRead)
  /-- AQ_SEAL (R193). -/
  | aqSeal (fn : Nat) (q : Nat)
  /-- AQ_RELEASE (R193). -/
  | aqRelease (fn : Nat) (q : Nat)
  /-- RG_CREATE (R350). -/
  | rgCreate (fn : Nat) (q : Nat)
  /-- RG_CLOSE (R277). -/
  | rgClose (fn : Nat) (q : Nat)
  /-- COC_PREPARE (R402). -/
  | cocPrepare (fn : Nat) (q : Nat)
  /-- COC_TAKE (R403). -/
  | cocTake (fn : Nat) (q : Nat)
  /-- COC_STOP_END (R403). -/
  | cocStopEnd (part : Nat)
  /-- COC_IMAGE_COMPLETE (R403). -/
  | cocImageComplete (part : Nat)
  /-- COC_TICKET_EXPIRY (R402). -/
  | cocTicketExpiry (part : Nat)
  /-- COC_RESTORE (R405). -/
  | cocRestore (fn : Nat) (q : Nat) (img : CocRead)
  /-- COC_RESTORE_COMPLETE (R405). -/
  | cocRestoreComplete (part : Nat)
  /-- STEP_MARK (R407). -/
  | stepMark (fn : Nat) (q : Nat)
  /-- LEDGER_READ (R408). -/
  | ledgerRead (fn : Nat) (q : Nat)
  /-- TWIN_POLICY (R411). -/
  | twinPolicy (fn : Nat) (q : Nat)
  /-- LEDGER_MIRROR (R409). -/
  | ledgerMirror (part : Nat) (entry : LedgerEntry)
  /-- SPARE_PARTITIONS_READY (R411). -/
  | sparePartitionsReady (allowed : Bool) (parts : List (Nat × Nat)) (regions : List (Nat × Nat × Nat × Nat)) (hold : Bool)
  /-- SPARE_REGION_TIMEOUT (R411). -/
  | spareRegionTimeout
  /-- TWIN_TRANSFER_COMPLETE (R412). -/
  | twinTransferComplete (ok : Bool) (rx : Transfer)
  /-- PART_CREATE (R358). -/
  | partCreate (fn : Nat) (q : Nat)
  /-- PART_DRAIN (R371). -/
  | partDrain (fn : Nat) (q : Nat)
  /-- DRAIN_SCRUB (R234). -/
  | drainScrub (part : Nat)
  /-- DRAIN_COMPLETE (R371). -/
  | drainComplete (part : Nat)
  /-- PART_PREEMPT (R360). -/
  | partPreempt (fn : Nat) (q : Nat)
  /-- PART_RESUME (R360). -/
  | partResume (fn : Nat) (q : Nat)
  /-- PART_MODE (R356). -/
  | partMode (fn : Nat) (q : Nat)
  /-- PART_STATUS (R355). -/
  | partStatus (fn : Nat) (q : Nat)
  /-- LOCK_INTERFACE (R359). -/
  | lockInterface (vf : Nat)
  /-- STOP_INTERFACE (R334). -/
  | stopInterface (vf : Nat)
  /-- IDE_FAIL (R333). -/
  | ideFail (vf : Nat)
  /-- IDE_KM_KEY_PROG (R387). -/
  | ideKmKeyProg (vf : Nat) (slot : Nat) (key : BitVec 256)
  /-- SPDM_GET_MEASUREMENTS (R397). -/
  | spdmGetMeasurements (vf : Nat) (nonce : Digest)
  /-- FUNCTION_LEVEL_RESET (R446). -/
  | functionLevelReset (vf : Nat)
  /-- HOST_PORT_RESET (R446). -/
  | hostPortReset
  /-- CHR_GO (R390). -/
  | chrGo (fn : Nat)
  /-- CHR_DONE_CLEAR (R390). -/
  | chrDoneClear (fn : Nat)
  /-- GET_CERTS (R391). -/
  | getCerts (fn : Nat)
  /-- GET_REPORT (R397). -/
  | getReport (fn : Nat)
  /-- KEY_INSTALL (R387). -/
  | keyInstall (fn : Nat)
  /-- KEY_DESTROY (R388). -/
  | keyDestroy (fn : Nat)
  /-- SLOT_INFO (R383). -/
  | slotInfo (fn : Nat)
  /-- COMPACT_LOAD (R367). -/
  | compactLoad (fn : Nat)
  /-- COMPACT_RETIRE (R367). -/
  | compactRetire (fn : Nat)
  /-- POLICY_LOAD (R393). -/
  | policyLoad (fn : Nat)
  /-- CHALLENGE (R394). -/
  | challenge (fn : Nat)
  /-- TOKEN (R394). -/
  | token (fn : Nat)
  /-- VAULT_REMASK (R384). -/
  | vaultRemask
  /-- TRNG_FAIL (R385). -/
  | trngFail
  /-- CONTROLLER_PERIOD (R427). -/
  | controllerPeriod (activity : List Nat)
  /-- GAIN_CALIBRATION (R426). -/
  | gainCalibration (milliVolts : List Nat) (milliAmps : List Nat)
  /-- VBED_SETTLED (R424). -/
  | vbedSettled (bed : Nat)
  /-- DROOP (R425). -/
  | droop (bed : Nat)
  /-- DROOP_STRETCH_END (R425). -/
  | droopStretchEnd (bed : Nat)
  /-- JUNCTION_SENSOR_SAMPLE (R429). -/
  | junctionSensorSample (idx : Nat) (temp : Nat)
  /-- STACK_TEMP_SAMPLE (R429). -/
  | stackTempSample (idx : Nat) (temp : Nat)
  /-- COOLANT_SAMPLE (R36). -/
  | coolantSample (inlet : Nat) (outlet : Nat)
  /-- THROTTLE_HOLD_EXPIRY (R429). -/
  | throttleHoldExpiry (reason : Nat)
  /-- THERMAL_TRIP (R430). -/
  | thermalTrip (idx : Nat)
  /-- INPUT_OVERVOLTAGE (R420). -/
  | inputOvervoltage
  /-- INPUT_RECOVERY (R420). -/
  | inputRecovery
  /-- SUPPLY_SAG (R432). -/
  | supplySag (decivolts : Nat)
  /-- SUPPLY_RESET_SAG (R433). -/
  | supplyResetSag
  /-- EN_PIN (R465). -/
  | enPin (high : Bool)
  /-- PWR_CAP_WRITE (R445). -/
  | pwrCapWrite (path : Path) (v : Word)
  /-- PWR_SAG_WRITE (R431). -/
  | pwrSagWrite (path : Path) (v : Word)
  /-- PWR_SLEEP_ENTER (R434). -/
  | pwrSleepEnter (path : Path) (district : Bool)
  /-- PWR_SLEEP_WAKE (R434). -/
  | pwrSleepWake (path : Path) (district : Bool)
  /-- DIAPAUSE_ENTRY_COMPLETE (R435). -/
  | diapauseEntryComplete
  /-- WAKE_COMPLETE (R436). -/
  | wakeComplete
  /-- TIME_EXCHANGE (R438). -/
  | timeExchange (port : Nat) (offset : Int) (ann : TimeAnn)
  /-- MASTER_ELECTION (R439). -/
  | masterElection (cands : List Candidate)
  /-- TIM_SET (R440). -/
  | timSet (path : Path) (v : Word)
  /-- TIM_SET_APPLY (R440). -/
  | timSetApply (order : Option (Nat × Bool))
  /-- PPS_IN_EDGE (R441). -/
  | ppsInEdge (offset : Int)
  /-- PPS_IN_LOSS (R441). -/
  | ppsInLoss
  /-- PTP_SYNC (R443). -/
  | ptpSync
  /-- PTP_DELAY_REQ (R443). -/
  | ptpDelayReq (req : PtpReq)
  /-- MODULE_RESET (R446). -/
  | moduleReset (cause : ResetCause)
  /-- ROM (R447). -/
  | rom (digestOk : Bool) (digest : Digest) (straps : Nat)
  /-- OTP (R376). -/
  | otp
  /-- CHRYSALIS_TEST (R447). -/
  | chrysalisTest (ok : Bool) (trngOk : Bool)
  /-- FIRMWARE (R448). -/
  | firmware (copies : List (FwCopy × FwCopy))
  /-- IDENTITY (R447). -/
  | identity
  /-- RAILS (R447). -/
  | rails
  /-- MEMORY_TEST (R450). -/
  | memoryTest (fails : List FailUnit)
  /-- LOGIC_TEST (R450). -/
  | logicTest (fails : List FailUnit)
  /-- STACKS (R450). -/
  | stacks (fails : List FailUnit)
  /-- KEYS (R236). -/
  | keys (fails : List FailUnit)
  /-- AQUIFER (R447). -/
  | aquifer (ports : Nat) (gib : Nat) (ok : Bool)
  /-- READY (R451). -/
  | ready (plan : List (Nat × Bool))
  /-- RUNTIME_BED_FENCE (R455). -/
  | runtimeBedFence (sec : Nat) (fault : BedFault)
  /-- RAS_RECORD (R458). -/
  | rasRecord
  /-- FLASH_RECORD_COPY (R459). -/
  | flashRecordCopy
  /-- MON_CMD_RESET (R461). -/
  | monCmdReset (path : Path)
  /-- MON_CMD_CLRFENCE (R455). -/
  | monCmdClrfence (path : Path)
  /-- MON_FWCTL_STAGE (R478). -/
  | monFwctlStage (path : Path) (len : Nat)
  /-- MON_FWCTL_COMMIT (R478). -/
  | monFwctlCommit (path : Path) (img : Nat) (copy : FwCopy)
  /-- MON_FWCTL_ABORT (R478). -/
  | monFwctlAbort (path : Path)
  /-- FIRMWARE_COMMIT_DONE (R478). -/
  | firmwareCommitDone
  /-- SMBUS_SET_OFFSET (R469). -/
  | smbusSetOffset (off : Nat)
  /-- SMBUS_READ (R469). -/
  | smbusRead
  /-- SMBUS_WRITE (R469). -/
  | smbusWrite (off : Nat) (v : Word)
  /-- L2_REGISTER_READ (R475). -/
  | l2RegisterRead (off : Nat) (count : Nat)
  /-- L2_REGISTER_WRITE (R475). -/
  | l2RegisterWrite (off : Nat) (vs : List Word)
  /-- CABLE_PRESENT (R474). -/
  | cablePresent (port : Nat) (cable : Cable)
  /-- CSR_BAD_ACCESS (R10). -/
  | csrBadAccess (path : Path) (off : Nat) (isWrite : Bool)
  /-- REGISTER_WRITE (R13). -/
  | registerWrite (path : Path) (off : Nat) (v : Word)
  /-- IDN_AQCTL_WRITE (R340). -/
  | idnAqctlWrite (fn : Nat) (v : Word)
  /-- SYN_QUOTA_WRITE (R329). -/
  | synQuotaWrite (path : Path) (part : Nat) (reg : Nat) (v : Word)
  /-- SYN_STAG_WRITE (R329). -/
  | synStagWrite (path : Path) (part : Nat) (v : Word)
  /-- SEC_CENSTAG_CLR (R177). -/
  | secCenstagClr (path : Path) (sec : Nat) (entry : Nat) (v : Word)
  /-- SEC_MXCNT_READ (R134). -/
  | secMxcntRead (path : Path) (core : Nat)
  /-- SEC_VCCNT_READ (R159). -/
  | secVccntRead (path : Path) (core : Nat)
  /-- SEC_VCWATCH_READ (R159). -/
  | secVcwatchRead (path : Path) (core : Nat)
  /-- SEC_CENSUS_READ (R177). -/
  | secCensusRead (path : Path) (sec : Nat) (entry : Nat) (word : Nat)
  /-- SLU_COUNTER_READ (R238). -/
  | sluCounterRead (path : Path) (sl : Nat) (reg : Nat)
  /-- SLU_EYE_READ (R134). -/
  | sluEyeRead (path : Path) (sl : Nat) (ch : Nat)
  /-- SIP_STALL_READ (R134). -/
  | sipStallRead (path : Path) (sec : Nat)
  /-- AQF_CATCH_READ (R134). -/
  | aqfCatchRead (path : Path) (sec : Nat)
  /-- LNK_CNT_READ (R134). -/
  | lnkCntRead (path : Path) (port : Nat)
  /-- HWK_DROP_READ (R134). -/
  | hwkDropRead (path : Path) (port : Nat)
  /-- HWK_RG_COUNTER_READ (R299). -/
  | hwkRgCounterRead (path : Path) (e : Nat) (reg : Nat)
  /-- SYN_CNT_READ (R330). -/
  | synCntRead (path : Path) (part : Nat)
  /-- SYN_STAGST_READ (R330). -/
  | synStagstRead (path : Path) (part : Nat)
  /-- IDN_PERF_READ (R134). -/
  | idnPerfRead (path : Path) (o : Nat)
  /-- PWR_THR_READ (R134). -/
  | pwrThrRead (path : Path) (reg : Nat)
  /-- PWR_SLEEP_DROPS_READ (R134). -/
  | pwrSleepDropsRead (path : Path)
  /-- START_INTERFACE (R334). -/
  | startInterface (vf : Nat)
  /-- POWER_ON (R465). -/
  | powerOn
  /-- PERST_RELEASE (R449). -/
  | perstRelease
  /-- LANE_LOSS_OF_LOCK (R243). -/
  | laneLossOfLock (port : Nat) (lane : Nat)
  /-- DEFERRED_EPOCH_ADVANCE (R373). -/
  | deferredEpochAdvance (cid : Nat)
  /-- MGMT_RESEND (R265). -/
  | mgmtResend (idx : Nat)
  /-- PPS_OUT_EDGE (R442). -/
  | ppsOutEdge (high : Bool)
  deriving DecidableEq, Repr

end Sys2Proof
end

