-- ==== Sys2Proof/Decode.lean ====
section
/-! DEFINITION. The Pezal decoder and encoder (03 R71-R97), from the same layouts; and the words of the command table,
which gives no row any bits. -/

namespace Sys2Proof

/-! ### Fields, most significant first -/

/-- The total width of the fields that follow. -/
def widths : List Nat → Nat
  | [] => 0
  | w :: r => w + widths r
/-- A word cut into fields of the given widths, the first the most significant. -/
def split : List Nat → Nat → List Nat
  | [], _ => []
  | w :: r, x => x / 2 ^ widths r % 2 ^ w :: split r x
/-- The word made of fields. -/
def join : List Nat → List Nat → Nat
  | w :: r, v :: vs => v % 2 ^ w * 2 ^ widths r + join r vs
  | _, _ => 0

/-- Class, operation and the 54 bits of the form (03 R72). -/
def Form.top : List Nat := [4, 6, 54]
/-- Form A (03 R75): SD, SA, SB, reserved. -/
def Form.a : List Nat := [5, 5, 5, 39]
/-- Form B (03 R75): SD, SA, reserved, IMM. Form C has SA, SB and OFF in the same places. -/
def Form.b : List Nat := [5, 5, 12, 32]
/-- Form D (03 R76): TKI_V, TKI, TKW_V, TKW, TKS, operand area. -/
def Form.d : List Nat := [1, 4, 1, 4, 5, 39]
/-- Form E (03 R80): Q, ROLE, STN, SA, SB, TD, DEPTH, KIND, reserved. -/
def Form.e : List Nat := [5, 1, 3, 5, 5, 4, 5, 1, 25]
/-- Operand areas (03 R77). -/
def Form.inn : List Nat := [4, 2, 5, 5, 5, 18]
def Form.mx : List Nat := [4, 1, 1, 33]
def Form.am : List Nat := [4, 4, 31]
def Form.vc : List Nat := [7, 7, 7, 6, 4, 5, 3]
def Form.outf : List Nat := [7, 5, 5, 5, 4, 2, 11]
def Form.sy : List Nat := [3, 1, 5, 5, 5, 20]
def Form.rclose : List Nat := [5, 34]
/-- A spec (03 R78): kind and index. -/
def Form.spec : List Nat := [2, 5]
/-- IMM of the AL class (03 R96): NF and zero. -/
def Form.al : List Nat := [1, 31]

/-- The index of an entry in a table of operations. -/
def indexOf {α : Type} [DecidableEq α] (l : List α) (x : α) : Nat := l.idxOf x

/-- Tables of operations and functions in the order of their codes (03 R81, R90, R94). -/
def aluOps : List AluOp :=
  [.add, .sub, .and, .or, .xor, .sll, .srl, .sra, .slt, .sltu, .min, .max, .mul, .mulhu, .divu, .remu]
def immOps : List ImmOp := [.addi, .andi, .ori, .xori, .slli, .srli, .srai, .lui]
def brOps : List BrOp := [.beq, .bne, .blt, .bge, .bltu, .bgeu]
def ewFns : List EwFn := [.add, .sub, .mul, .max, .min, .axpy]
def unFns : List UnFn := [.copy, .neg, .abs, .recip, .rsqrt, .exp, .log, .tanh, .sigmoid, .gelu, .silu]
def redFns : List RedFn := [.sum, .max, .min, .sumsq]
def bcFns : List BcFn := [.add, .sub, .mul, .max, .min]
def updFns : List UpdFn := [.twoMoment, .momentum, .plain]
def syOps : List SyOp := [.fsig, .fwait, .sacq, .stry, .srel, .eset, .erst, .ewait, .weir, .warr, .wwait]
def lDsts : List LDst := [.lA, .lB, .lV]
def stnTable : List Stn := [.scalar, .intake, .matrix, .accmem, .vector, .outflow]

/-- A shift by an immediate has IMM[31:6] zero (03 R81). -/
def immOk (op : ImmOp) (i : Nat) : Bool :=
  match op with
  | .slli | .srli | .srai => decide (i < 64)
  | _ => true
/-- The SY operations that use SB (03 R94). -/
def syUsesSb : SyOp → Bool
  | .fsig | .fwait | .srel => true
  | _ => false

/-- An operand spec (03 R78); none where the index is ILLEGAL. -/
def decodeSpec (x : Nat) : Option Spec :=
  match split Form.spec x with
  | [0, i] => if i < 16 then some (.pond (BitVec.ofNat 4 i)) else none
  | [1, i] => if i < 16 then some (.slot (BitVec.ofNat 4 i)) else none
  | [2, i] => some (.handle (BitVec.ofNat 5 i))
  | [3, 0] => some .lA
  | [3, 1] => some .lB
  | [3, 2] => some .lV
  | [3, 3] => some .lO
  | _ => none

/-- The bits of an operand spec. -/
def encodeSpec : Spec → Nat
  | .pond t => join Form.spec [0, t.toNat]
  | .slot a => join Form.spec [1, a.toNat]
  | .handle q => join Form.spec [2, q.toNat]
  | .lA => join Form.spec [3, 0]
  | .lB => join Form.spec [3, 1]
  | .lV => join Form.spec [3, 2]
  | .lO => join Form.spec [3, 3]

/-- The token fields and the operand area of a Form D word (03 R76); none where a field that is not used is not zero. -/
def decodeTok (b : Nat) : Option (TokF × Nat) :=
  match split Form.d b with
  | [iv, i, wv, w, ts, area] =>
    if (iv = 0 ∧ i ≠ 0) ∨ (wv = 0 ∧ (w ≠ 0 ∨ ts ≠ 0)) then none
    else some (⟨if iv = 0 then none else some (BitVec.ofNat 4 i),
                if wv = 0 then none else some (BitVec.ofNat 4 w, BitVec.ofNat 5 ts)⟩, area)
  | _ => none

/-- The 54 bits of a Form D word. -/
def encodeTok (t : TokF) (area : Nat) : Nat :=
  match t.tki, t.tkw with
  | none, none => join Form.d [0, 0, 0, 0, 0, area]
  | some i, none => join Form.d [1, i.toNat, 0, 0, 0, area]
  | none, some (w, r) => join Form.d [0, 0, 1, w.toNat, r.toNat, area]
  | some i, some (w, r) => join Form.d [1, i.toNat, 1, w.toNat, r.toNat, area]

/-- Registers and operations of the scalar forms. -/
def reg (n : Nat) : Reg := BitVec.ofNat 5 n
def tix (n : Nat) : BitVec 4 := BitVec.ofNat 4 n
def imm32 (n : Nat) : BitVec 32 := BitVec.ofNat 32 n

/-- Class CT (03 R81). -/
def decodeCt (op b : Nat) : Option PInstr :=
  if 0x01 ≤ op ∧ op ≤ 0x10 then
    match split Form.a b with
    | [sd, sa, sb, 0] => (aluOps[op - 0x01]?).map (fun o => .alu o (reg sd) (reg sa) (reg sb))
    | _ => none
  else if 0x11 ≤ op ∧ op ≤ 0x18 then
    match split Form.b b, immOps[op - 0x11]? with
    | [sd, sa, 0, i], some o => if immOk o i then some (.imm o (reg sd) (reg sa) (imm32 i)) else none
    | _, _ => none
  else if 0x20 ≤ op ∧ op ≤ 0x25 then
    match split Form.b b with
    | [sa, sb, 0, off] => (brOps[op - 0x20]?).map (fun o => .br o (reg sa) (reg sb) (imm32 off))
    | _ => none
  else match op, split Form.b b with
    | 0x19, [sd, sa, 0, i] => some (.lds (reg sd) (reg sa) (imm32 i))
    | 0x1A, [sd, sa, 0, i] => some (.sts (reg sd) (reg sa) (imm32 i))
    | 0x26, [0, 0, 0, off] => some (.jmp (imm32 off))
    | 0x27, [0, 0, 0, off] => some (.call (imm32 off))
    | 0x28, [0, 0, 0, 0] => some .ret
    | 0x2A, [tk, sa, 0, 0] => if tk < 16 then some (.tkw (tix tk) (reg sa)) else none
    | 0x30, [t, sa, 0, 0] => if t < 16 then some (.tset (tix t) (reg sa)) else none
    | 0x31, [t, sa, 0, i] => if t < 16 then some (.tbase (tix t) (reg sa) (imm32 i)) else none
    | 0x32, [sd, t, 0, 0] => if t < 16 then some (.tget (reg sd) (tix t)) else none
    | 0x34, [0, sa, 0, i] => some (.ccfg (reg sa) (imm32 i))
    | 0x3B, [0, 0, 0, 0] => some .nop
    | 0x3C, [0, 0, 0, 0] => some .halt
    | 0x3D, [0, 0, 0, 0] => some .brk
    | 0x3E, [0, 0, 0, 0] => some .trap
    | 0x38, _ =>
      match split Form.e b with
      | [q, role, stn, sa, sb, td, depth, kind, 0] =>
        if role = 0 ∧ depth ≠ 0 then none
        else some (.ropen ⟨reg q, decide (role = 1), BitVec.ofNat 3 stn, reg sa, reg sb, tix td, BitVec.ofNat 5 depth,
          decide (kind = 1)⟩)
      | _ => none
    | 0x39, _ =>
      match decodeTok b with
      | some (t, area) => match split Form.rclose area with
        | [q, 0] => some (.rclose t (BitVec.ofNat 5 q))
        | _ => none
      | none => none
    | _, _ => none

/-- Class IN (03 R87). -/
def decodeIn (op : Nat) (t : TokF) (area : Nat) : Option PInstr :=
  match op, split Form.inn area with
  | 1, [ta, dst, 0, 0, 0, 0] => (lDsts[dst]?).map (fun d => .inn (.ldt (tix ta) d) t)
  | 2, [ta, dst, sa, sb, sc, 0] => (lDsts[dst]?).map (fun d => .inn (.ldd (tix ta) d (reg sa) (reg sb) (reg sc)) t)
  | 3, [0, dst, q, 0, 0, 0] => (lDsts[dst]?).map (fun d => .inn (.rcv d (BitVec.ofNat 5 q)) t)
  | _, _ => none

/-- Class MX (03 R88). -/
def decodeMx (op : Nat) (t : TokF) (area : Nat) : Option PInstr :=
  match op, split Form.mx area with
  | 1, [acc, z, l, 0] => some (.mx (.mma (tix acc) (decide (z = 1)) (decide (l = 1))) t)
  | 2, [acc, 0, 0, 0] => some (.mx (.prom (tix acc)) t)
  | _, _ => none

/-- Class AM (03 R89). -/
def decodeAm (op : Nat) (t : TokF) (area : Nat) : Option PInstr :=
  match op, split Form.am area with
  | 1, [acc, ta, 0] => some (.am (.save (tix acc) (tix ta)) t)
  | 2, [acc, ta, 0] => some (.am (.rest (tix acc) (tix ta)) t)
  | 3, [acc, 0, 0] => some (.am (.zero (tix acc)) t)
  | 4, [acc, a2, 0] => some (.am (.move (tix acc) (tix a2)) t)
  | _, _ => none

/-- Class VC (03 R90). A spec, function, variant or SC field that the operation does not use must be zero. -/
def decodeVc (op : Nat) (t : TokF) (area : Nat) : Option PInstr :=
  match split Form.vc area with
  | [dst, a, b, fn, md, sc, 0] =>
    match decodeSpec dst, decodeSpec a, decodeSpec b with
    | some d, some x, some y =>
      let mk := fun o => PInstr.vc o t
      match op with
      | 1 => match ewFns[fn]? with
        | some f => if md = 0 ∧ (f = .axpy ∨ sc = 0) then some (mk (.ew f d x y (reg sc))) else none
        | none => none
      | 2 => match unFns[fn]? with
        | some f => if b = 0 ∧ md = 0 ∧ sc = 0 then some (mk (.un f d x)) else none
        | none => none
      | 3 => match redFns[fn]? with
        | some f => if b = 0 ∧ md < 2 ∧ sc = 0 then some (mk (.red f (decide (md = 1)) d x)) else none
        | none => none
      | 4 => match bcFns[fn]? with
        | some f => if md < 2 ∧ sc = 0 then some (mk (.bc f (decide (md = 1)) d x y)) else none
        | none => none
      | 5 => if b = 0 ∧ fn = 0 ∧ md < 2 then some (mk (.cvt (decide (md = 1)) d x (reg sc))) else none
      | 6 => match updFns[fn]? with
        | some f => if md = 0 then some (mk (.upd f d x y (reg sc))) else none
        | none => none
      | 7 => if a = 0 ∧ b = 0 ∧ fn = 0 ∧ md = 0 then some (mk (.rng d (reg sc))) else none
      | _ => none
    | _, _, _ => none
  | _ => none

/-- Class OF (03 R91). An OF.GSND whose SRC is no slot is ILLEGAL here: R73 gives ILLEGAL to a slot kind that the instruction does not
take, where R91 could be read as OPERAND for a handle or a local runnel (assumption 97). -/
def decodeOf (op : Nat) (t : TokF) (area : Nat) : Option PInstr :=
  match split Form.outf area with
  | [src, sa, sb, sc, ta, rnd, 0] =>
    match decodeSpec src with
    | some s =>
      match op with
      | 1 => if ta = 0 ∧ rnd = 0 then some (.outf (.st s (reg sa) (reg sb) (reg sc)) t) else none
      | 2 => if sc = 0 ∧ ta = 0 ∧ rnd = 0 then some (.outf (.stl s (reg sa) (reg sb)) t) else none
      | 3 => if sb = 0 ∧ sc = 0 ∧ ta = 0 ∧ rnd = 0 then some (.outf (.snd s (BitVec.ofNat 5 sa)) t) else none
      | 4 => if sa = 0 ∧ sb = 0 ∧ sc = 0 ∧ rnd < 2 then some (.outf (.put s (tix ta) (decide (rnd = 1))) t) else none
      | 5 => match s with
        | .slot a => if sc = 0 ∧ ta = 0 ∧ rnd = 0 then some (.outf (.gsnd a (BitVec.ofNat 5 sa) (reg sb)) t) else none
        | _ => none
      | _ => none
    | none => none
  | _ => none

/-- Class SY (03 R94, R95). -/
def decodeSy (op : Nat) (t : TokF) (area : Nat) : Option PInstr :=
  match op, split Form.sy area with
  | 0, _ => none
  | n + 1, [stn, nf, sd, sa, sb, 0] =>
    match syOps[n]?, stnTable[stn]? with
    | some o, some u =>
      if (nf = 1 ∧ stn ≠ 0) ∨ (nf = 0 ∧ sd ≠ 0) ∨ (syUsesSb o = false ∧ sb ≠ 0) then none
      else some (.sy o t u (decide (nf = 1)) (reg sd) (reg sa) (reg sb))
    | _, _ => none
  | _, _ => none

/-- Class AL (03 R96). -/
def decodeAl (op b : Nat) : Option PInstr :=
  match op, split Form.b b with
  | 1, [sd, sa, 0, i] => match split Form.al i with
    | [nf, 0] => some (.alloc (decide (nf = 1)) (reg sd) (reg sa))
    | _ => none
  | 2, [sd, sa, 0, i] => match split Form.al i with
    | [nf, 0] => if nf = 0 ∧ sd ≠ 0 then none else some (.free (decide (nf = 1)) (reg sd) (reg sa))
    | _ => none
  | _, _ => none

/-- Class CP (03 R97). -/
def decodeCp (op b : Nat) : Option PInstr :=
  match op, split Form.b b with
  | 1, [sd, 0, 0, 0] => some (.cpId (reg sd))
  | 2, [sd, 0, 0, i] => some (.cpCap (reg sd) (imm32 i))
  | 3, [sd, 0, 0, i] => some (.cpCfg (reg sd) (imm32 i))
  | 4, [sd, 0, 0, 0] => some (.cpMode (reg sd))
  | _, _ => none

/-- The instruction a 64-bit word encodes; none where 03 R73 makes it ILLEGAL. -/
def decodePezal (w : Word) : Option PInstr :=
  match split Form.top w.toNat with
  | [0, op, b] => decodeCt op b
  | [7, op, b] => decodeAl op b
  | [8, op, b] => decodeCp op b
  | [cls, op, b] =>
    match decodeTok b with
    | none => none
    | some (t, area) =>
      match cls with
      | 1 => decodeIn op t area
      | 2 => decodeMx op t area
      | 3 => decodeAm op t area
      | 4 => decodeVc op t area
      | 5 => decodeOf op t area
      | 6 => decodeSy op t area
      | _ => none
  | _ => none

/-- Class, operation and form bits of an instruction. -/
def encodeTop (cls op b : Nat) : Word := BitVec.ofNat 64 (join Form.top [cls, op, b])

/-- The word of an instruction, written from the same layouts. -/
def encodePezal : PInstr → Word
  | .alu o sd sa sb => encodeTop 0 (1 + indexOf aluOps o) (join Form.a [sd.toNat, sa.toNat, sb.toNat, 0])
  | .imm o sd sa i => encodeTop 0 (0x11 + indexOf immOps o) (join Form.b [sd.toNat, sa.toNat, 0, i.toNat])
  | .lds sd sa i => encodeTop 0 0x19 (join Form.b [sd.toNat, sa.toNat, 0, i.toNat])
  | .sts sd sa i => encodeTop 0 0x1A (join Form.b [sd.toNat, sa.toNat, 0, i.toNat])
  | .br o sa sb off => encodeTop 0 (0x20 + indexOf brOps o) (join Form.b [sa.toNat, sb.toNat, 0, off.toNat])
  | .jmp off => encodeTop 0 0x26 (join Form.b [0, 0, 0, off.toNat])
  | .call off => encodeTop 0 0x27 (join Form.b [0, 0, 0, off.toNat])
  | .ret => encodeTop 0 0x28 0
  | .tkw tk sa => encodeTop 0 0x2A (join Form.b [tk.toNat, sa.toNat, 0, 0])
  | .tset t sa => encodeTop 0 0x30 (join Form.b [t.toNat, sa.toNat, 0, 0])
  | .tbase t sa i => encodeTop 0 0x31 (join Form.b [t.toNat, sa.toNat, 0, i.toNat])
  | .tget sd t => encodeTop 0 0x32 (join Form.b [sd.toNat, t.toNat, 0, 0])
  | .ccfg sa i => encodeTop 0 0x34 (join Form.b [0, sa.toNat, 0, i.toNat])
  | .ropen f => encodeTop 0 0x38 (join Form.e [f.q.toNat, f.role.toNat, f.stn.toNat, f.sa.toNat, f.sb.toNat, f.td.toNat,
      f.depth.toNat, f.kind.toNat, 0])
  | .rclose t q => encodeTop 0 0x39 (encodeTok t (join Form.rclose [q.toNat, 0]))
  | .nop => encodeTop 0 0x3B 0
  | .halt => encodeTop 0 0x3C 0
  | .brk => encodeTop 0 0x3D 0
  | .trap => encodeTop 0 0x3E 0
  | .inn (.ldt ta d) t => encodeTop 1 1 (encodeTok t (join Form.inn [ta.toNat, indexOf lDsts d, 0, 0, 0, 0]))
  | .inn (.ldd ta d sa sb sc) t =>
    encodeTop 1 2 (encodeTok t (join Form.inn [ta.toNat, indexOf lDsts d, sa.toNat, sb.toNat, sc.toNat, 0]))
  | .inn (.rcv d q) t => encodeTop 1 3 (encodeTok t (join Form.inn [0, indexOf lDsts d, q.toNat, 0, 0, 0]))
  | .mx (.mma a z l) t => encodeTop 2 1 (encodeTok t (join Form.mx [a.toNat, z.toNat, l.toNat, 0]))
  | .mx (.prom a) t => encodeTop 2 2 (encodeTok t (join Form.mx [a.toNat, 0, 0, 0]))
  | .am (.save a ta) t => encodeTop 3 1 (encodeTok t (join Form.am [a.toNat, ta.toNat, 0]))
  | .am (.rest a ta) t => encodeTop 3 2 (encodeTok t (join Form.am [a.toNat, ta.toNat, 0]))
  | .am (.zero a) t => encodeTop 3 3 (encodeTok t (join Form.am [a.toNat, 0, 0]))
  | .am (.move a b) t => encodeTop 3 4 (encodeTok t (join Form.am [a.toNat, b.toNat, 0]))
  | .vc (.ew f d a b sc) t =>
    encodeTop 4 1 (encodeTok t (join Form.vc [encodeSpec d, encodeSpec a, encodeSpec b, indexOf ewFns f, 0, sc.toNat, 0]))
  | .vc (.un f d a) t => encodeTop 4 2 (encodeTok t (join Form.vc [encodeSpec d, encodeSpec a, 0, indexOf unFns f, 0, 0, 0]))
  | .vc (.red f r d a) t =>
    encodeTop 4 3 (encodeTok t (join Form.vc [encodeSpec d, encodeSpec a, 0, indexOf redFns f, r.toNat, 0, 0]))
  | .vc (.bc f r d a b) t =>
    encodeTop 4 4 (encodeTok t (join Form.vc [encodeSpec d, encodeSpec a, encodeSpec b, indexOf bcFns f, r.toNat, 0, 0]))
  | .vc (.cvt z d a sc) t =>
    encodeTop 4 5 (encodeTok t (join Form.vc [encodeSpec d, encodeSpec a, 0, 0, z.toNat, sc.toNat, 0]))
  | .vc (.upd f d a b sc) t =>
    encodeTop 4 6 (encodeTok t (join Form.vc [encodeSpec d, encodeSpec a, encodeSpec b, indexOf updFns f, 0, sc.toNat, 0]))
  | .vc (.rng d sc) t => encodeTop 4 7 (encodeTok t (join Form.vc [encodeSpec d, 0, 0, 0, 0, sc.toNat, 0]))
  | .outf (.st s sa sb sc) t =>
    encodeTop 5 1 (encodeTok t (join Form.outf [encodeSpec s, sa.toNat, sb.toNat, sc.toNat, 0, 0, 0]))
  | .outf (.stl s sa sb) t => encodeTop 5 2 (encodeTok t (join Form.outf [encodeSpec s, sa.toNat, sb.toNat, 0, 0, 0, 0]))
  | .outf (.snd s q) t => encodeTop 5 3 (encodeTok t (join Form.outf [encodeSpec s, q.toNat, 0, 0, 0, 0, 0]))
  | .outf (.put s ta z) t => encodeTop 5 4 (encodeTok t (join Form.outf [encodeSpec s, 0, 0, 0, ta.toNat, z.toNat, 0]))
  | .outf (.gsnd a q sb) t =>
    encodeTop 5 5 (encodeTok t (join Form.outf [encodeSpec (.slot a), q.toNat, sb.toNat, 0, 0, 0, 0]))
  | .sy o t u nf sd sa sb =>
    encodeTop 6 (1 + indexOf syOps o)
      (encodeTok t (join Form.sy [indexOf stnTable u, nf.toNat, sd.toNat, sa.toNat, sb.toNat, 0]))
  | .alloc nf sd sa => encodeTop 7 1 (join Form.b [sd.toNat, sa.toNat, 0, join Form.al [nf.toNat, 0]])
  | .free nf sd sa => encodeTop 7 2 (join Form.b [sd.toNat, sa.toNat, 0, join Form.al [nf.toNat, 0]])
  | .cpId sd => encodeTop 8 1 (join Form.b [sd.toNat, 0, 0, 0])
  | .cpCap sd i => encodeTop 8 2 (join Form.b [sd.toNat, 0, 0, i.toNat])
  | .cpCfg sd i => encodeTop 8 3 (join Form.b [sd.toNat, 0, 0, i.toNat])
  | .cpMode sd => encodeTop 8 4 (join Form.b [sd.toNat, 0, 0, 0])

/-- The command that a word spells by the bits of spec/opcode_table.json: the table gives no row any bits, so no word spells
a command (assumption 9). -/
def decodeTableWord (_nbits _w : Nat) : Option Instr := none

end Sys2Proof
end

