-- ==== Sys2Proof/Config.lean ====
section
/-! DEFINITION. Constants with no body: the free values (assumption 2) and what an implementation fixes. Nothing in Lean can
evaluate them. -/

namespace Sys2Proof

/-- A fresh unconstrained value, applied to the counter State.free (assumption 2). -/
opaque Config.freeValue : Nat → Word
/-- A fresh 256-bit output of the TRNG (14 R381, R384), applied to State.free. -/
opaque Config.trng : Nat → BitVec 256
/-- The per-signature secret of ECDSA (14 R397): FIPS 186-5 takes it at random (assumption 7). -/
opaque Config.ecdsaNonce : Nat → Digest → Nat
/-- The P-384 public key that an owner hash in OTP stands for (14 R394): a TYPE 5 token carries the new owner's key alone. -/
opaque Config.ownerKey : Digest → List Byte
/-- Walral's P-384 public key (14 R392). -/
opaque Config.walralKey : List Byte
/-- The Walral intermediate and DIK certificates in boot flash, each DER with a 16-bit length (14 R391, R392; 18 R477). -/
opaque Config.flashCerts : List Byte
/-- DER bytes of an AK certificate for an AK public key and its extension (14 R392). -/
opaque Config.akCert : List Byte → List Byte → List Byte
/-- Digest fused at manufacture of the boot ROM (17 R447). -/
opaque Config.romDigest : Digest
/-- The security version of the boot ROM, fixed with it at manufacture (14 R397). -/
opaque Config.romSvn : Nat
/-- What verifying a staged firmware image finds (18 R478): whether its signature holds, its security version and its digest. -/
opaque Config.stagedCopy : Nat → List Word → Bool × Nat × Digest
/-- Bytes 40 to 55 of an error record, which 17 R457 leaves to each unit (assumption 45), by the model's name of the record. -/
opaque Config.recDetail : Nat → BitVec 128
/-- Bits [19:14] of capability entry 1 on PF0, which names no partition (12 R337; assumption 29): partition, isolation, numerics. -/
opaque Config.pf0Mode : BitVec 6
/-- The catchment blocks that capability entry 2 shows on PF0 (assumption 29). -/
opaque Config.pf0Catch : BitVec 11
/-- The 256-bit root secret of this module (14 R375). -/
opaque Config.rootSecret : BitVec 256
/-- This module's identifier UID (14 R375). -/
opaque Config.uid : Word
/-- The exponent that the update-ratio watch takes for a NaN or an infinity, which 05 R158 does not state (assumption 24). -/
opaque Config.watchExp : Word → Int
/-- The transmitter taps after the step that an EQ value asks for, whose coding 09 R252 does not give (assumption 109). -/
opaque Config.tapStep : Nat → List Int → List Int
/-- What a relay, which has no logical coordinate, writes in the SRC of its packets (09 R241, R254; assumption 110), by its position. -/
opaque Config.relayCoord : Nat → BitVec 13
/-- The power in mW of one unit of counted traffic of the section islands (0), the stacks (1), the SerDes (2) and the headworks (3), which 16
R426 does not give (assumption 125). -/
opaque Config.trafficPower : Nat → Nat
/-- What a partial entry of the flash ring holds (17 R462), by the model's name of the record: its bytes 0 to 59, and how far its CRC is
off. -/
opaque Config.tornBytes : Nat → BitVec 480
opaque Config.tornCrc : Nat → BitVec 32
/-- Owner public-key hashes written in OTP (14 R375), OWN0 the first owner's. -/
opaque Config.ownerHash : Nat → Digest

end Sys2Proof
end

