-- ==== Sys2Proof/Machine/Crypto.lean ====
section
/-! DEFINITION. The cryptographic standards that the spec names, computed: SHA-384 and HMAC-SHA-384 (03 R111, 14 R379),
AES-256 (08 R216), AES-256-XTS (08 R216), GHASH, GMAC and AES-256-GCM (08 R217, 09 R244), AES key wrap (14 R387), and ECDH
and ECDSA on P-384 (14 R380, R394, R397). The spec cites these standards and does not write them out (assumption 7). -/

namespace Sys2Proof.Machine

/-- The ASCII bytes of a label. -/
def ascii (l : String) : List Byte := l.toList.map (fun c => BitVec.ofNat 8 c.toNat)
/-- The n bytes of a number, most significant first. -/
def beBytes : Nat → Nat → List Byte
  | 0, _ => []
  | n + 1, x => BitVec.ofNat 8 (x / 256 ^ n) :: beBytes n x
/-- The number of a big-endian byte string. -/
def beNat (l : List Byte) : Nat := l.foldl (fun a b => a * 256 + b.toNat) 0
/-- A byte string cut into blocks of n bytes, k blocks at most, the last one shorter where the string ends inside it. -/
def cutBlocks (n : Nat) : Nat → List Byte → List (List Byte)
  | 0, _ => []
  | k + 1, l => if l.isEmpty then [] else l.take n :: cutBlocks n k (l.drop n)
/-- The blocks of n bytes of a byte string. -/
def blocksOf (n : Nat) (l : List Byte) : List (List Byte) := cutBlocks n (l.length / n + 1) l
/-- Bytes XORed in place, as long as the shorter. -/
def xorBytes (a b : List Byte) : List Byte := List.zipWith (· ^^^ ·) a b

/-! ### SHA-384 and HMAC (FIPS 180-4, FIPS 198-1) -/

/-- A 64-bit word rotated right. -/
def rotr64 (x n : Nat) : Nat := x >>> n ||| x <<< (64 - n) % 2 ^ 64
/-- The 80 round constants, the first in the lowest 64 bits. -/
def shaConsts : Nat :=
  0x6c44198c4a4758175fcb6fab3ad6faec597f299cfc657e2a4cc5d4becb3e42b6431d67c49c100d4c3c9ebe0a15c9bebc32caab7b40c7249328db77f523047d841b710b35131c471b113f9804bef90dae0a637dc5a2c898a606f067aa72176fbaf57d4f7fee6ed178eada7dd6cde0eb1ed186b8c721c0c207ca273eceea26619cc67178f2e372532bbef9a3f7b2c67915a4506cebde82bde990befffa23631e288cc702081a6439ec84c87814a1f0ab7278a5636f43172f60748f82ee5defb2fc682e6ff3d6b2b8a35b9cca4f7763e3734ed8aa4ae3418acb391c0cb3c5c95a6334b0bcb5e19b48a82748774cdf8eeb991e376c085141ab5319a4c116b8d2d0c8106aa07032bbd1b8f40e35855771202ad69906245565a910d192e819d6ef5218c76c51a30654be30c24b8b70d0f89791a81a664bbc423001a2bfe8a14cf1036492722c851482353b81c2c92e47edaee6766a0abb3c77b2a8650a73548baf63de53380d139d95b3df4d2c6dfc5ac42aed2e1b21385c26c92627b70a8546d22ffc142929670a0e6e7006ca6351e003826fd5a79147930aa725c6e00bf33da88fc2bf597fc7beef0ee4b00327c898fb213fa831c66d2db43210983e5152ee66dfab76f988da831153b55cb0a9dcbd41fbd44a7484aa6ea6e4832de92c6f592b0275240ca1cc77ac9c650fc19dc68b8cd5b5efbe4786384f25e3e49b69c19ef14ad2c19bf174cf6926949bdc06a725c7123580deb1fe3b1696b172be5d74f27b896f550c7dc3d5ffb4e2243185be4ee4b28c12835b0145706fbed807aa98a3030242ab1c5ed5da6d8118923f82a4af194f9b59f111f1b605d0193956c25bf348b538e9b5dba58189dbbcb5c0fbcfec4d3b2f7137449123ef65cd428a2f98d728ae22
/-- The initial hash value of SHA-384. -/
def shaInit : List Nat :=
  [0xcbbb9d5dc1059ed8, 0x629a292a367cd507, 0x9159015a3070dd17, 0x152fecd8f70e5939, 0x67332667ffc00b31, 0x8eb44a8768581511, 0xdb0c2e0d64f98fa7, 0x47b5481dbefa4fa4]
/-- The message schedule, newest word first, from 16 words on. -/
def shaSchedule : Nat → List Nat → List Nat
  | 0, w => w
  | n + 1, w =>
    let a := w.getD 1 0
    let b := w.getD 14 0
    let s1 := rotr64 a 19 ^^^ rotr64 a 61 ^^^ a >>> 6
    let s0 := rotr64 b 1 ^^^ rotr64 b 8 ^^^ b >>> 7
    shaSchedule n ((s1 + w.getD 6 0 + s0 + w.getD 15 0) % 2 ^ 64 :: w)
/-- One round on the eight working variables. -/
def shaRound (h : List Nat) (kw : Nat) : List Nat :=
  match h with
  | [a, b, c, d, e, f, g, i] =>
    let t1 := i + (rotr64 e 14 ^^^ rotr64 e 18 ^^^ rotr64 e 41) + (e &&& f ^^^ (2 ^ 64 - 1 - e) &&& g) + kw
    let t2 := (rotr64 a 28 ^^^ rotr64 a 34 ^^^ rotr64 a 39) + (a &&& b ^^^ a &&& c ^^^ b &&& c)
    [(t1 + t2) % 2 ^ 64, a, b, c, (d + t1) % 2 ^ 64, e, f, g]
  | _ => h
/-- The compression of one block of 128 bytes. -/
def shaBlock (h : List Nat) (blk : List Byte) : List Nat :=
  let w := (shaSchedule 64 ((blocksOf 8 blk).map beNat).reverse).reverse
  let r := w.zipIdx.foldl (fun v e => shaRound v (e.1 + shaConsts / 2 ^ (64 * e.2) % 2 ^ 64)) h
  List.zipWith (fun a b => (a + b) % 2 ^ 64) h r
/-- A message padded to whole blocks: the bit 1, zeros, and its length in bits as 128 bits. -/
def shaPad (m : List Byte) : List Byte :=
  m ++ 0x80 :: List.replicate ((239 - m.length % 128) % 128) 0 ++ beBytes 16 (8 * m.length)
/-- SHA-384 as bytes. -/
def sha384Bytes (m : List Byte) : List Byte :=
  (((blocksOf 128 (shaPad m)).foldl shaBlock shaInit).take 6).flatMap (beBytes 8)
/-- SHA-384 (03 R111). -/
@[irreducible] def sha384 (m : List Byte) : Digest := BitVec.ofNat 384 (beNat (sha384Bytes m))
/-- The bytes of a digest, as stored. -/
def digestBytes (d : Digest) : List Byte := beBytes 48 d.toNat
/-- HMAC-SHA-384 of a key and a message (14 R379). -/
@[irreducible] def hmac384 (key m : List Byte) : Digest :=
  let k := if 128 < key.length then sha384Bytes key else key
  let k := k ++ List.replicate (128 - k.length) 0
  sha384 (k.map (· ^^^ 0x5c) ++ sha384Bytes (k.map (· ^^^ 0x36) ++ m))

/-! ### AES-256 (FIPS 197) -/

/-- The S-box, entry 0 in the lowest byte. -/
def aesSbox : Nat :=
  0x16bb54b00f2d99416842e6bf0d89a18cdf2855cee9871e9b948ed9691198f8e19e1dc186b95735610ef6034866b53e708a8bbd4b1f74dde8c6b4a61c2e2578ba08ae7a65eaf4566ca94ed58d6d37c8e779e4959162acd3c25c2406490a3a32e0db0b5ede14b8ee4688902a22dc4f816073195d643d7ea7c41744975fec130ccdd2f3ff1021dab6bcf5389d928f40a351a89f3c507f02f94585334d43fbaaefd0cf584c4a39becb6a5bb1fc20ed00d153842fe329b3d63b52a05a6e1b1a2c830975b227ebe28012079a059618c323c7041531d871f1e5a534ccf73f362693fdb7c072a49cafa2d4adf04759fa7dc982ca76abd7fe2b670130c56f6bf27b777c63
/-- The inverse S-box. -/
def aesInvSbox : Nat :=
  0x7d0c2155631469e126d677ba7e042b17619953833cbbebc8b0f52aae4d3be0a0ef9cc9939f7ae52d0d4ab519a97f51605fec8027591012b131c7078833a8dd1ff45acd78fec0db9a2079d2c64b3e56fc1bbe18aa0e62b76f89c5291d711af1476edf751ce837f9e28535ade72274ac9673e6b4f0cecff297eadc674f4111913a6b8a130103bdafc1020f3fca8f1e2cd00645b3b80558e4f70ad3bc8c00abd890849d8da75746155edab9edfd5048706c92b6655dcc5ca4d41698688664f6f87225d18b6d49a25b76b224d92866a12e084ec3fa420b954cee3d23c2a632947b54cbe9dec444438e3487ff2f9b8239e37cfbd7f3819ea340bf38a53630d56a0952
/-- Entry x of an S-box. -/
def subByte (t x : Nat) : Nat := t / 2 ^ (8 * x) % 256
/-- A byte times x in GF(2^8). -/
def xtime (a : Nat) : Nat := if a < 128 then 2 * a else 2 * a ^^^ 0x11b
/-- The product of a byte and a 4-bit factor in GF(2^8). -/
def gfMul (k a : Nat) : Nat :=
  let b := xtime a
  let c := xtime b
  let d := xtime c
  (if k % 2 = 1 then a else 0) ^^^ (if k / 2 % 2 = 1 then b else 0) ^^^ (if k / 4 % 2 = 1 then c else 0) ^^^
    (if k / 8 % 2 = 1 then d else 0)
/-- A state's four columns each times the circulant matrix whose first row is `m`. -/
def mixColumns (m s : List Nat) : List Nat :=
  (List.range 16).map (fun i => (List.range 4).foldl (fun a j =>
    a ^^^ gfMul (m.getD ((j + 4 - i % 4) % 4) 0) (s.getD (i / 4 * 4 + j) 0)) 0)
/-- Each row r of a state rotated left by k r columns. -/
def shiftRows (k : Nat) (s : List Nat) : List Nat :=
  (List.range 16).map (fun i => s.getD ((i / 4 + k * (i % 4)) % 4 * 4 + i % 4) 0)
/-- SubWord of the key schedule. -/
def subWord (w : List Nat) : List Nat := w.map (subByte aesSbox)
/-- XOR of two strings of small numbers. -/
def xorNats (a b : List Nat) : List Nat := List.zipWith (· ^^^ ·) a b
/-- The key schedule from the eight words in hand on, each word of four bytes. -/
def aesExpand : Nat → Nat → List (List Nat) → List (List Nat)
  | 0, _, w => w
  | n + 1, rcon, w =>
    let t := match subWord (w.getD 7 []) with
      | a :: r => r ++ [a]
      | [] => []
    let n0 := xorNats (xorNats (w.getD 0 []) t) [rcon, 0, 0, 0]
    let n1 := xorNats (w.getD 1 []) n0
    let n2 := xorNats (w.getD 2 []) n1
    let n3 := xorNats (w.getD 3 []) n2
    let n4 := xorNats (w.getD 4 []) (subWord n3)
    let n5 := xorNats (w.getD 5 []) n4
    let n6 := xorNats (w.getD 6 []) n5
    let n7 := xorNats (w.getD 7 []) n6
    w ++ aesExpand n (xtime rcon) [n0, n1, n2, n3, n4, n5, n6, n7]
/-- The 15 round keys of a key of 32 bytes. -/
def roundKeys (key : BitVec 256) : List (List Nat) :=
  let w := aesExpand 7 1 ((blocksOf 4 (beBytes 32 key.toNat)).map (·.map (·.toNat)))
  (List.range 15).map (fun i => ((w.drop (4 * i)).take 4).flatten)
/-- AES-256 encryption of one block under round keys. -/
def aesEncBlock (rk : List (List Nat)) (b : List Nat) : List Nat :=
  let s := (List.range 13).foldl (fun s i =>
    xorNats (mixColumns [2, 3, 1, 1] (shiftRows 1 (s.map (subByte aesSbox)))) (rk.getD (i + 1) [])) (xorNats b (rk.getD 0 []))
  xorNats (shiftRows 1 (s.map (subByte aesSbox))) (rk.getD 14 [])
/-- AES-256 decryption of one block under round keys. -/
def aesDecBlock (rk : List (List Nat)) (b : List Nat) : List Nat :=
  let s := (List.range 13).foldl (fun s i =>
    mixColumns [14, 11, 13, 9] (xorNats ((shiftRows 3 s).map (subByte aesInvSbox)) (rk.getD (13 - i) [])))
    (xorNats b (rk.getD 14 []))
  xorNats ((shiftRows 3 s).map (subByte aesInvSbox)) (rk.getD 0 [])
/-- A block of bytes as small numbers, and back. -/
def toNats (l : List Byte) : List Nat := l.map (·.toNat)
def ofNats (l : List Nat) : List Byte := l.map (BitVec.ofNat 8)

/-! ### AES-256-XTS (IEEE 1619) -/

/-- The tweak of the next block: times x in GF(2^128), little-endian. -/
def xtsNext (t : Nat) : Nat := if t < 2 ^ 127 then 2 * t else 2 * t % 2 ^ 128 ^^^ 0x87
/-- Blocks enciphered in order by `f` under the tweak and those after it. -/
def xtsBlocks (f : List Nat → List Nat) : Nat → List (List Byte) → List Byte
  | _, [] => []
  | t, b :: r =>
    let tb := toNats (beBytes 16 t).reverse
    ofNats (xorNats (f (xorNats (toNats b) tb)) tb) ++ xtsBlocks f (xtsNext t) r
/-- The first tweak: the encryption under K2 of the tweak value, little-endian. -/
def xtsStart (k2 : BitVec 256) (tweak : BitVec 128) : Nat :=
  beNat (ofNats (aesEncBlock (roundKeys k2) (toNats (beBytes 16 tweak.toNat).reverse))).reverse
/-- AES-256-XTS encryption of a data unit of whole blocks under K1, K2 and a tweak (08 R216). -/
@[irreducible] def xtsEnc (k1 k2 : BitVec 256) (tweak : BitVec 128) (l : List Byte) : List Byte :=
  xtsBlocks (aesEncBlock (roundKeys k1)) (xtsStart k2 tweak) (blocksOf 16 l)
/-- AES-256-XTS decryption (08 R216). -/
@[irreducible] def xtsDec (k1 k2 : BitVec 256) (tweak : BitVec 128) (l : List Byte) : List Byte :=
  xtsBlocks (aesDecBlock (roundKeys k1)) (xtsStart k2 tweak) (blocksOf 16 l)

/-! ### GHASH, GMAC and AES-256-GCM (NIST SP 800-38D) -/

/-- Product in GF(2^128) with the bits numbered from the left: n bits of x from bit n - 1 down. -/
def ghashMul : Nat → Nat → Nat → Nat → Nat
  | 0, _, _, z => z
  | n + 1, x, v, z =>
    ghashMul n x (if v % 2 = 1 then v / 2 ^^^ 0xe1 * 2 ^ 120 else v / 2) (if x / 2 ^ n % 2 = 1 then z ^^^ v else z)
/-- GHASH of whole blocks under H. -/
def ghash (h : Nat) (l : List Byte) : Nat :=
  (blocksOf 16 l).foldl (fun y b => ghashMul 128 (y ^^^ beNat b) h 0) 0
/-- A string padded with zeros to whole blocks. -/
def padBlock (l : List Byte) : List Byte := l ++ List.replicate ((16 - l.length % 16) % 16) 0
/-- One block as a number enciphered. -/
def aesNat (rk : List (List Nat)) (x : Nat) : Nat := beNat (ofNats (aesEncBlock rk (toNats (beBytes 16 x))))
/-- The pre-counter block of an IV: 96 bits with the count 1, any other length through GHASH. -/
def gcmJ0 (h : Nat) (iv : List Byte) : Nat :=
  if iv.length = 12 then beNat iv * 2 ^ 32 + 1 else ghash h (padBlock iv ++ beBytes 16 (8 * iv.length))
/-- The 128-bit tag over additional data and ciphertext. -/
def gcmTag (rk : List (List Nat)) (iv aad ct : List Byte) : Nat :=
  let h := aesNat rk 0
  ghash h (padBlock aad ++ padBlock ct ++ beBytes 8 (8 * aad.length) ++ beBytes 8 (8 * ct.length)) ^^^ aesNat rk (gcmJ0 h iv)
/-- The key stream applied to blocks from the counter on. -/
def gcmCtr (rk : List (List Nat)) : Nat → List (List Byte) → List Byte
  | _, [] => []
  | c, b :: r =>
    let c := c / 2 ^ 32 * 2 ^ 32 + (c + 1) % 2 ^ 32
    xorBytes b (beBytes 16 (aesNat rk c)) ++ gcmCtr rk c r
/-- Leftmost 64 bits of GMAC under a key, an IV of 16 bytes (the context as stored) and additional data (08 R217, R218). -/
@[irreducible] def gmac (key : BitVec 256) (iv : BitVec 128) (aad : List Byte) : BitVec 64 :=
  BitVec.ofNat 64 (gcmTag (roundKeys key) (beBytes 16 iv.toNat).reverse aad [] / 2 ^ 64)
/-- AES-256-GCM encryption: ciphertext and tag of 16 bytes (09 R244). -/
@[irreducible] def gcmSeal (key : BitVec 256) (iv aad pt : List Byte) : List Byte × List Byte :=
  let rk := roundKeys key
  let ct := gcmCtr rk (gcmJ0 (aesNat rk 0) iv) (blocksOf 16 pt)
  (ct, beBytes 16 (gcmTag rk iv aad ct))
/-- AES-256-GCM decryption; none where the tag does not match (09 R244). -/
@[irreducible] def gcmOpen (key : BitVec 256) (iv aad ct tag : List Byte) : Option (List Byte) :=
  let rk := roundKeys key
  if beBytes 16 (gcmTag rk iv aad ct) = tag then some (gcmCtr rk (gcmJ0 (aesNat rk 0) iv) (blocksOf 16 ct)) else none

/-! ### AES key wrap (NIST SP 800-38F, KW) -/

/-- The initial value of KW. -/
def kwInit : List Byte := List.replicate 8 0xA6
/-- One pass of wrapping over the semiblocks from step t on. -/
def kwPass (rk : List (List Nat)) : Nat → List Byte → List (List Byte) → List Byte × List (List Byte)
  | _, a, [] => (a, [])
  | t, a, r :: rs =>
    let b := ofNats (aesEncBlock rk (toNats (a ++ r)))
    let (a', rs') := kwPass rk (t + 1) (xorBytes (b.take 8) (beBytes 8 t)) rs
    (a', b.drop 8 :: rs')
/-- One pass of unwrapping, from the last semiblock back. -/
def kwUnpass (rk : List (List Nat)) : Nat → List Byte → List (List Byte) → List Byte × List (List Byte)
  | _, a, [] => (a, [])
  | t, a, r :: rs =>
    let b := ofNats (aesDecBlock rk (toNats (xorBytes a (beBytes 8 t) ++ r)))
    let (a', rs') := kwUnpass rk (t - 1) (b.take 8) rs
    (a', b.drop 8 :: rs')
/-- AES-256 key wrap of a 256-bit key: 40 bytes (14 R389). -/
@[irreducible] def kwWrap (kek key : BitVec 256) : List Byte :=
  let rk := roundKeys kek
  let r := (List.range 6).foldl (fun x j => kwPass rk (4 * j + 1) x.1 x.2) (kwInit, blocksOf 8 (beBytes 32 key.toNat))
  r.1 ++ r.2.flatten
/-- AES-256 key unwrap of a 40-byte blob (14 R387); none where the integrity check fails. -/
@[irreducible] def kwUnwrap (kek : BitVec 256) (blob : List Byte) : Option (BitVec 256) :=
  let rk := roundKeys kek
  let r := (List.range 6).foldl (fun x j => kwUnpass rk (4 * (6 - j)) x.1 x.2) (blob.take 8, (blocksOf 8 (blob.drop 8)).reverse)
  if blob.length = 40 ∧ r.1 = kwInit then some (BitVec.ofNat 256 (beNat r.2.reverse.flatten)) else none

/-! ### P-384 (FIPS 186-5, SP 800-186) -/

/-- The prime of the field. -/
def p384P : Nat := 2 ^ 384 - 2 ^ 128 - 2 ^ 96 + 2 ^ 32 - 1
/-- Order of P-384 (14 R379). -/
def p384Order : Nat :=
  0xffffffffffffffffffffffffffffffffffffffffffffffffc7634d81f4372ddf581a0db248b0a77aecec196accc52973
/-- The coefficient b of the curve. -/
def p384B : Nat :=
  0xb3312fa7e23ee7e4988e056be3f82d19181d9c6efe8141120314088f5013875ac656398d8a2ed19d2a85c8edd3ec2aef
/-- The base point. -/
def p384G : Nat × Nat :=
  (0xaa87ca22be8b05378eb1c71ef320ad746e1d3b628ba79b9859f741e082542a385502f25dbf55296c3a545e3872760ab7,
   0x3617de4a96262c6f5d9e98bf9292dc29f8f41dbd289a147ce9da3113b5f0b8c00a60b1ce1d7e819d7a431d7c90ea0e5f)
/-- b^e mod m, n bits of e from bit n - 1 down. -/
def powMod (b e m : Nat) : Nat → Nat → Nat
  | 0, a => a
  | n + 1, a => powMod b e m n (if e / 2 ^ n % 2 = 1 then a * a % m * b % m else a * a % m)
/-- The inverse modulo a prime below 2^384. -/
def invMod (x m : Nat) : Nat := powMod (x % m) (m - 2) m 384 1
/-- A point in Jacobian coordinates (X, Y, Z); Z = 0 is the point at infinity. -/
abbrev JPoint := Nat × Nat × Nat
/-- a - b in the field. -/
def subP (a b : Nat) : Nat := (a + (p384P - b % p384P)) % p384P
/-- A point doubled (the curve has a = -3). -/
def ecDbl (q : JPoint) : JPoint :=
  let (x, y, z) := q
  let d := z * z % p384P
  let g := y * y % p384P
  let b := x * g % p384P
  let a := 3 * (subP x d * ((x + d) % p384P) % p384P) % p384P
  let x' := subP (a * a % p384P) (8 * b)
  (x', subP (a * subP (4 * b % p384P) x' % p384P) (8 * (g * g)), 2 * (y * z) % p384P)
/-- The sum of two points. -/
def ecAdd (q r : JPoint) : JPoint :=
  let (x1, y1, z1) := q
  let (x2, y2, z2) := r
  if z1 % p384P = 0 then r else if z2 % p384P = 0 then q else
  let a := z1 * z1 % p384P
  let b := z2 * z2 % p384P
  let u1 := x1 * b % p384P
  let u2 := x2 * a % p384P
  let s1 := y1 * (z2 * b % p384P) % p384P
  let s2 := y2 * (z1 * a % p384P) % p384P
  if u1 = u2 then (if s1 = s2 then ecDbl q else (1, 1, 0)) else
  let h := subP u2 u1
  let w := subP s2 s1
  let hh := h * h % p384P
  let hhh := h * hh % p384P
  let v := u1 * hh % p384P
  let x := subP (subP (w * w % p384P) hhh) (2 * v)
  (x, subP (w * subP v x % p384P) (s1 * hhh), z1 * z2 % p384P * h % p384P)
/-- k times a point, n bits of k from bit n - 1 down. -/
def ecMulFrom (k : Nat) (q : JPoint) : Nat → JPoint → JPoint
  | 0, a => a
  | n + 1, a => ecMulFrom k q n (if k / 2 ^ n % 2 = 1 then ecAdd (ecDbl a) q else ecDbl a)
/-- k times an affine point. -/
def ecMul (k : Nat) (q : Nat × Nat) : JPoint := ecMulFrom k (q.1, q.2, 1) 384 (1, 1, 0)
/-- The affine coordinates of a point, (0, 0) of the point at infinity. -/
def ecAffine (q : JPoint) : Nat × Nat :=
  let i := invMod q.2.2 p384P
  (q.1 * (i * i % p384P) % p384P, q.2.1 * (i * i % p384P * i % p384P) % p384P)
/-- A public key's coordinates. -/
def ecPoint (pub : List Byte) : Nat × Nat := (beNat (pub.take 48), beNat (pub.drop 48))
/-- A point on the curve. -/
def ecOn (q : Nat × Nat) : Bool :=
  decide (q.1 < p384P ∧ q.2 < p384P ∧ q.2 * q.2 % p384P = (q.1 * q.1 * q.1 + (p384P - 3) * q.1 + p384B) % p384P)
/-- Public key (x, y) of a P-384 private key (14 R386). -/
@[irreducible] def p384Pub (d : Nat) : List Byte :=
  let q := ecAffine (ecMul d p384G)
  beBytes 48 q.1 ++ beBytes 48 q.2
/-- ECDH P-384: the x coordinate of the shared point, 48 bytes (14 R380). -/
@[irreducible] def ecdh (d : Nat) (pub : List Byte) : List Byte := beBytes 48 (ecAffine (ecMul d (ecPoint pub))).1
/-- ECDSA P-384 verification: public key (x, y), digest, signature (r, s) (13 R366, 14 R394). -/
@[irreducible] def ecdsaVerify (pub : List Byte) (h : Digest) (sig : List Byte) : Bool :=
  let r := beNat (sig.take 48)
  let s := beNat (sig.drop 48)
  let w := invMod s p384Order
  let q := ecAdd (ecMul (h.toNat * w % p384Order) p384G) (ecMul (r * w % p384Order) (ecPoint pub))
  decide (pub.length = 96 ∧ sig.length = 96 ∧ 0 < r ∧ r < p384Order ∧ 0 < s ∧ s < p384Order) && ecOn (ecPoint pub) &&
    decide (q.2.2 % p384P ≠ 0 ∧ (ecAffine q).1 % p384Order = r)
/-- ECDSA P-384 signature by a private key (14 R397) under the per-signature secret that FIPS 186-5 leaves random. -/
@[irreducible] def ecdsaSign (d : Nat) (h : Digest) : List Byte :=
  let k := Config.ecdsaNonce d h % (p384Order - 1) + 1
  let r := (ecAffine (ecMul k p384G)).1 % p384Order
  beBytes 48 r ++ beBytes 48 (invMod k p384Order * ((h.toNat + r * d) % p384Order) % p384Order)

end Sys2Proof.Machine
end

