-- ==== Sys2Proof/Machine/Num.lean ====
section
/-! DEFINITION. Exact numbers, the element formats of 06 R160-R164 and their roundings R166-R170, Philox (05 R147) and
the correctly rounded functions of 05 R140-R142. -/

namespace Sys2Proof.Machine

/-- A number as the stations compute with it: (-1)^neg * m * 2^e exactly, an infinity, or NaN (06 R160, 04 R119). -/
inductive Num where
  | nan
  | inf (neg : Bool)
  | fin (neg : Bool) (m : Nat) (e : Int)
  deriving DecidableEq, Repr

/-- +0. -/
def Num.zero : Num := .fin false 0 0
/-- 1. -/
def Num.one : Num := .fin false 1 0
/-- An integer as a number. -/
def Num.ofInt (i : Int) : Num := .fin (decide (i < 0)) i.natAbs 0
/-- v * 2^k, exact. -/
def Num.scale (v : Num) (k : Int) : Num :=
  match v with
  | .fin s m e => .fin s m (e + k)
  | x => x
/-- -v. -/
def Num.neg : Num → Num
  | .nan => .nan
  | .inf s => .inf (!s)
  | .fin s m e => .fin (!s) m e
/-- |v|. -/
def Num.abs : Num → Num
  | .nan => .nan
  | .inf _ => .inf false
  | .fin _ m e => .fin false m e
/-- Neither NaN nor infinite. -/
def Num.isFin : Num → Bool
  | .fin _ _ _ => true
  | _ => false
/-- A zero of either sign. -/
def Num.isZero : Num → Bool
  | .fin _ m _ => m == 0
  | _ => false
/-- NaN. -/
def Num.isNan : Num → Bool
  | .nan => true
  | _ => false

/-- The significand of a finite number aligned to exponent e0, signed. -/
def Num.aligned (s : Bool) (m : Nat) (e e0 : Int) : Int :=
  let a : Int := (m <<< (e - e0).toNat : Nat)
  if s then -a else a

/-- Exact sum; an exact zero is +0 unless both addends are -0 (04 R116, R119). -/
def Num.add : Num → Num → Num
  | .nan, _ => .nan
  | _, .nan => .nan
  | .inf s, .inf t => if s = t then .inf s else .nan
  | .inf s, .fin _ _ _ => .inf s
  | .fin _ _ _, .inf t => .inf t
  | .fin s m e, .fin t n f =>
    if m = 0 ∧ n = 0 then .fin (s && t) 0 0
    else
      let e0 := min e f
      let i := Num.aligned s m e e0 + Num.aligned t n f e0
      .fin (decide (i < 0)) i.natAbs (if i = 0 then 0 else e0)

/-- Exact difference. -/
def Num.sub (a b : Num) : Num := Num.add a (Num.neg b)

/-- Exact product; infinity times zero is NaN (04 R119). -/
def Num.mul : Num → Num → Num
  | .nan, _ => .nan
  | _, .nan => .nan
  | .inf s, .inf t => .inf (s != t)
  | .inf s, .fin t n _ => if n = 0 then .nan else .inf (s != t)
  | .fin s m _, .inf t => if m = 0 then .nan else .inf (s != t)
  | .fin s m e, .fin t n f => .fin (s != t) (m * n) (if m * n = 0 then 0 else e + f)

/-- Exact sum of a list; -0 is the identity of Num.add, so a sum of no addend but zeros is +0 unless all are -0, for which 05 R144 gives no
sign (DESIGN CHOICE, assumption 131). -/
def Num.sum (l : List Num) : Num := l.foldl Num.add (.fin true 0 0)

/-- a < b for finite or infinite a and b, zeros equal. -/
def Num.lt : Num → Num → Bool
  | .nan, _ => false
  | _, .nan => false
  | .inf s, .inf t => s && !t
  | .inf s, .fin _ _ _ => s
  | .fin _ _ _, .inf t => !t
  | .fin s m e, .fin t n f =>
    let e0 := min e f
    decide (Num.aligned s m e e0 < Num.aligned t n f e0)

/-- The maximum of RED (05 R144), and of EW and BC (05 R140): a NaN before every number, then by value with -0 below +0. R140 names IEEE 754
alone, which has more than one maximum (DESIGN CHOICE, assumption 130). -/
def Num.max (a b : Num) : Num :=
  match a, b with
  | .nan, _ => .nan
  | _, .nan => .nan
  | .fin true 0 _, .fin t 0 _ => .fin t 0 0
  | .fin false 0 _, .fin _ 0 _ => .fin false 0 0
  | a, b => if Num.lt a b then b else a
/-- The lesser of two numbers, -0 below +0. -/
def Num.min (a b : Num) : Num := Num.neg (Num.max (Num.neg a) (Num.neg b))

/-- floor(log2 |v|) of a non-zero finite number. -/
def Num.ilog (m : Nat) (e : Int) : Int := (Nat.log2 m : Int) + e

/-! ### Rounding (06 R166) -/

/-- The rounding modes a conversion may choose: nearest, ties to even, or toward zero (06 R166). -/
inductive Mode where
  | rne | toZero
  deriving DecidableEq, Repr

/-- m / 2^d rounded to an integer. -/
def rshift (mode : Mode) (m d : Nat) : Nat :=
  match mode with
  | .toZero => m >>> d
  | .rne =>
    let q := m >>> d
    let r := m % 2 ^ d
    if 2 * r > 2 ^ d then q + 1
    else if 2 * r = 2 ^ d ∧ d ≠ 0 then q + q % 2 else q

/-- m * 2^e in units of 2^q, rounded to an integer. -/
def toGrid (mode : Mode) (m : Nat) (e q : Int) : Nat :=
  if q ≤ e then m <<< (e - q).toNat else rshift mode m (q - e).toNat

/-! ### Floating-point formats (06 R160, R164) -/

/-- One floating-point format: exponent and fraction bits, bias, the last encoding that is finite, whether it has
infinities, its canonical NaN, and whether it has subnormals. -/
structure Flt where
  eb : Nat
  mb : Nat
  bias : Nat
  last : Nat
  hasInf : Bool
  nan : Option Nat
  sub : Bool
  deriving DecidableEq, Repr

/-- FP32. -/
def Flt.fp32 : Flt := ⟨8, 23, 127, 0x7F7FFFFF, true, some 0x7FC00000, true⟩
/-- BF16. -/
def Flt.bf16 : Flt := ⟨8, 7, 127, 0x7F7F, true, some 0x7FC0, true⟩
/-- FP16. -/
def Flt.fp16 : Flt := ⟨5, 10, 15, 0x7BFF, true, some 0x7E00, true⟩
/-- FP8 E4M3. -/
def Flt.e4m3 : Flt := ⟨4, 3, 7, 0x7E, false, some 0x7F, true⟩
/-- FP8 E5M2. -/
def Flt.e5m2 : Flt := ⟨5, 2, 15, 0x7B, true, some 0x7E, true⟩
/-- FP6 E2M3. -/
def Flt.e2m3 : Flt := ⟨2, 3, 1, 0x1F, false, none, true⟩
/-- FP6 E3M2. -/
def Flt.e3m2 : Flt := ⟨3, 2, 3, 0x1F, false, none, true⟩
/-- FP4 E2M1. -/
def Flt.e2m1 : Flt := ⟨2, 1, 1, 0x7, false, none, true⟩
/-- Wide-48 (06 R164). -/
def Flt.w48 : Flt := ⟨10, 37, 511, 0x7FDFFFFFFFFF, true, some 0x7FF000000000, false⟩
/-- The run format (04 before R116): 1 sign, 10 exponent and 23 fraction bits. -/
def Flt.run : Flt := ⟨10, 23, 511, 0x1FF7FFFFF, true, some 0x1FFC00000, false⟩

/-- The number an encoding stands for (06 R160, R164). -/
def Flt.decode (f : Flt) (x : Nat) : Num :=
  let s := decide (x / 2 ^ (f.eb + f.mb) % 2 = 1)
  let mag := x % 2 ^ (f.eb + f.mb)
  let ef := mag / 2 ^ f.mb
  let fr := mag % 2 ^ f.mb
  if f.last < mag then (if f.hasInf ∧ fr = 0 then .inf s else .nan)
  else if ef = 0 then (if f.sub ∧ fr ≠ 0 then .fin s fr (1 - (f.bias : Int) - f.mb) else .fin s 0 0)
  else .fin s (2 ^ f.mb + fr) ((ef : Int) - f.bias - f.mb)

/-- The encoding's exponent field is zero and its fraction is not (06 R180). -/
def Flt.isSub (f : Flt) (x : Nat) : Bool :=
  f.sub && decide (x / 2 ^ f.mb % 2 ^ f.eb = 0) && decide (x % 2 ^ f.mb ≠ 0)

/-- The sign bit of the format set when s holds. -/
def Flt.signed (f : Flt) (s : Bool) (mag : Nat) : Nat := if s then 2 ^ (f.eb + f.mb) + mag else mag

/-- Magnitude encoding of m * 2^e rounded as if the exponent range had no upper limit (06 R165, R167). -/
def Flt.mag (f : Flt) (mode : Mode) (m : Nat) (e : Int) : Nat :=
  if m = 0 then 0 else
  let emin : Int := 1 - (f.bias : Int)
  let l := Num.ilog m e
  if l < emin ∧ f.sub = false then 0 else
  let q := max l emin - f.mb
  let n := toGrid mode m e q
  ((q + f.mb + f.bias).toNat) * 2 ^ f.mb + n - 2 ^ f.mb

/-- A conversion under 06 R167 and R168: the encoding, and whether the element counts as saturated. Toward zero, a finite value
beyond the largest finite value counts although it rounds down to it. -/
def Flt.conv (f : Flt) (mode : Mode) (v : Num) : Nat × Bool :=
  match v with
  | .nan => match f.nan with
    | some c => (c, false)
    | none => (0, true)
  | .inf s => if f.hasInf then (f.signed s ((2 ^ f.eb - 1) * 2 ^ f.mb), false) else (f.signed s f.last, true)
  | .fin s m e =>
    let g := f.mag mode m e
    if f.last < g || (mode == .toZero && Num.lt (f.decode f.last) (.fin false m e)) then (f.signed s f.last, true)
    else (f.signed s g, false)

/-- IEEE 754 rounding of an arithmetic result (05 R140): overflow gives an infinity. -/
def Flt.ieee (f : Flt) (v : Num) : Nat :=
  match v with
  | .fin s m e =>
    let g := f.mag .rne m e
    f.signed s (if f.last < g then (2 ^ f.eb - 1) * 2 ^ f.mb else g)
  | v => (f.conv .rne v).1

/-- A number rounded to FP32 as IEEE 754 rounds an operation (05 R140). -/
def r32 (v : Num) : Num := Flt.fp32.decode (Flt.fp32.ieee v)
/-- A number rounded to FP32 with the clamp of 06 R167, and whether it was clamped. -/
def r32sat (v : Num) : Num × Bool :=
  let (x, c) := Flt.fp32.conv .rne v
  (Flt.fp32.decode x, c)

/-! ### Tile formats (02 R52) -/

/-- FMT codes. -/
def Fmt.fp32 : Nat := 0x0
/-- BF16. -/
def Fmt.bf16 : Nat := 0x1
/-- BS8 payload. -/
def Fmt.bs8 : Nat := 0xB
/-- INT32. -/
def Fmt.int32 : Nat := 0xC
/-- W48 slot image. -/
def Fmt.w48 : Nat := 0xD

/-- Bits of one element of a format (02 R52). -/
def Fmt.bits (fmt : Nat) : Nat :=
  match fmt with
  | 0x0 | 0xC => 32
  | 0x1 | 0x2 => 16
  | 0x7 | 0x8 => 6
  | 0x9 => 4
  | 0xD => 48
  | 0xE | 0xF => 0
  | _ => 8
/-- Row bytes of a format (02 R52): 32 elements. -/
def Fmt.rowBytes (fmt : Nat) : Nat := 4 * Fmt.bits fmt
/-- Tile bytes of a format (02 R52). -/
def Fmt.tileBytes (fmt : Nat) : Nat := 32 * Fmt.rowBytes fmt
/-- The formats with scale blocks (02 R52). -/
def Fmt.isMx (fmt : Nat) : Bool := decide (0x5 ≤ fmt ∧ fmt ≤ 0xA)
/-- The reserved codes (02 R54). -/
def Fmt.reserved (fmt : Nat) : Bool := decide (0xE ≤ fmt)

/-- The floating-point format of a code, where it is one. -/
def Fmt.flt (fmt : Nat) : Option Flt :=
  match fmt with
  | 0x0 => some .fp32
  | 0x1 => some .bf16
  | 0x2 => some .fp16
  | 0x3 | 0x5 => some .e4m3
  | 0x4 | 0x6 => some .e5m2
  | 0x7 => some .e2m3
  | 0x8 => some .e3m2
  | 0x9 => some .e2m1
  | 0xD => some .w48
  | _ => none

/-- x read as a two's complement integer of n bits. -/
def signedOf (n x : Nat) : Int := if x % 2 ^ n < 2 ^ (n - 1) then (x % 2 ^ n : Nat) else (x % 2 ^ n : Nat) - (2 : Int) ^ n
/-- The n-bit two's complement encoding of an integer. -/
def encodeInt (n : Nat) (i : Int) : Nat := (i % (2 : Int) ^ n).toNat

/-- The value of an element of a format without its MX scale (06 R160, R162). -/
def Fmt.decode (fmt x : Nat) : Num :=
  match Fmt.flt fmt with
  | some f => f.decode x
  | none =>
    match fmt with
    | 0xA => Num.scale (Num.ofInt (signedOf 8 x)) (-6)
    | 0xB => Num.ofInt (signedOf 8 x)
    | 0xC => Num.ofInt (signedOf 32 x)
    | _ => .nan

/-- v rounded to an integer. -/
def Num.toInt (mode : Mode) (s : Bool) (m : Nat) (e : Int) : Int :=
  let n : Int := (toGrid mode m e 0 : Nat)
  if s then -n else n

/-- Conversion into INT32 (06 R168, R169). A value is clamped, and counted, where it is beyond the range after its rounding; a value that
rounding toward zero brings to a limit is not (DEDUCED, assumption 136). -/
def convInt32 (mode : Mode) (v : Num) : Nat × Bool :=
  match v with
  | .nan => (0, true)
  | .inf s => (if s then 0x80000000 else 0x7FFFFFFF, true)
  | .fin s m e =>
    let i := Num.toInt mode s m e
    if i < -2147483648 then (0x80000000, true)
    else if 2147483647 < i then (0x7FFFFFFF, true)
    else (encodeInt 32 i, false)

/-- Conversion into an MXINT8 element after scaling (06 R160, R162, R167): multiples of 2^-6, clamped to -127 to 127. -/
def convMxint8 (mode : Mode) (v : Num) : Nat × Bool :=
  match v with
  | .fin s m e =>
    let i := Num.toInt mode s m (e + 6)
    if i < -127 then (encodeInt 8 (-127), true)
    else if 127 < i then (127, true)
    else (encodeInt 8 i, mode == .toZero && Num.lt (.fin false 127 (-6)) (.fin false m e))
  | _ => (0, true)

/-- Conversion of one number into a format without a row scale (06 R167-R169). -/
def Fmt.conv (fmt : Nat) (mode : Mode) (v : Num) : Nat × Bool :=
  match Fmt.flt fmt with
  | some f => f.conv mode v
  | none => if fmt = 0xA then convMxint8 mode v else convInt32 mode v

/-- emax of an MX element format (06 R170). -/
def Fmt.emax (fmt : Nat) : Int :=
  match fmt with
  | 0x5 => 8
  | 0x6 => 15
  | 0x7 => 2
  | 0x8 => 4
  | 0x9 => 2
  | _ => 0

/-- The larger of two magnitudes' exponents, for the row scale. -/
def maxIlog (l : List Num) : Option Int :=
  l.foldl (fun acc v =>
    match v with
    | .fin _ m e => if m = 0 then acc else
      match acc with
      | none => some (Num.ilog m e)
      | some x => some (max x (Num.ilog m e))
    | _ => acc) none

/-- One row into an MX format: the stored scale, the element encodings and the saturations counted (06 R168, R170). -/
def convMxRow (fmt : Nat) (mode : Mode) (row : List Num) : Nat × List Nat × Nat :=
  if row.any (fun v => !v.isFin) then
    (0xFF, row.map (fun _ => 0), (row.filter (fun v => !v.isFin)).length)
  else
    let s : Int := match maxIlog row with
      | none => -127
      | some a => max (-127) (min 127 (a - Fmt.emax fmt))
    let l := row.map (fun v => Fmt.conv fmt mode (Num.scale v (-s)))
    ((s + 127).toNat, l.map (·.1), (l.filter (·.2)).length)

/-! ### FP32 arithmetic (05 R140) and correctly rounded functions (05 R142) -/

/-- A rational m / d * 2^e with its remainder folded into a sticky bit below 80 significant bits. -/
def ratio (s : Bool) (m d : Nat) (e : Int) : Num :=
  let k := 80 + Nat.log2 d
  let n := m <<< k
  .fin s (2 * (n / d) + (if n % d = 0 then 0 else 1)) (e - k - 1)

/-- Quotient, to be rounded once; division as IEEE 754 has it. -/
def Num.div : Num → Num → Num
  | .nan, _ => .nan
  | _, .nan => .nan
  | .inf _, .inf _ => .nan
  | .inf s, .fin t _ _ => .inf (s != t)
  | .fin s _ _, .inf t => .fin (s != t) 0 0
  | .fin s m e, .fin t n f =>
    if n = 0 then (if m = 0 then .nan else .inf (s != t))
    else if m = 0 then .fin (s != t) 0 0
    else ratio (s != t) m n (e - f)

/-- floor(sqrt n), one bit of the root at a time from bit k down. -/
def isqrtAux (n : Nat) : Nat → Nat → Nat
  | 0, r => r
  | k + 1, r =>
    let c := r + 2 ^ k
    isqrtAux n k (if c * c ≤ n then c else r)
/-- floor(sqrt n). -/
def isqrt (n : Nat) : Nat := isqrtAux n (Nat.log2 n / 2 + 1) 0

/-- Square root, to be rounded once. -/
def Num.sqrt : Num → Num
  | .nan => .nan
  | .inf s => if s then .nan else .inf false
  | .fin s m e =>
    if m = 0 then .fin s 0 0
    else if s then .nan
    else
      -- scale m so that the exponent is even and the root has some 60 bits
      let k : Nat := 120 + (if (e - 120) % 2 = 0 then 0 else 1)
      let n := m <<< k
      let r := isqrt n
      .fin false (2 * r + (if r * r = n then 0 else 1)) ((e - k) / 2 - 1)

/-- 1 / sqrt(v), to be rounded once. -/
def Num.rsqrt : Num → Num
  | .nan => .nan
  | .inf s => if s then .nan else .fin false 0 0
  | .fin s m e =>
    if m = 0 then .inf s
    else if s then .nan
    else
      -- 1 / sqrt(m * 2^e) = sqrt(2^j / m) * 2^(-(e + j) / 2), e + j even
      let j : Nat := 200 + (if (e + 200) % 2 = 0 then 0 else 1)
      let y := 2 ^ j / m
      let r := isqrt y
      .fin false (2 * r + (if r * r * m = 2 ^ j then 0 else 1)) (-(e + j) / 2 - 1)

/-- An interval of fixed-point numbers with p fraction bits. -/
structure Ivl where
  lo : Nat
  hi : Nat
  deriving DecidableEq, Repr

/-- n / d rounded up. -/
def cdiv (n d : Nat) : Nat := (n + d - 1) / d

/-- Product of two intervals. -/
def Ivl.mul (p : Nat) (a b : Ivl) : Ivl := ⟨(a.lo * b.lo) >>> p, cdiv (a.hi * b.hi) (2 ^ p)⟩
/-- Quotient of two intervals. -/
def Ivl.div (p : Nat) (a b : Ivl) : Ivl := ⟨(a.lo <<< p) / b.hi, cdiv (a.hi <<< p) b.lo⟩

/-- Taylor terms of exp for an argument below 1/256: the sum of the terms from the k-th on, with the last term's double as
the remainder's bound. -/
def expTerms (p : Nat) (x : Ivl) : Nat → Nat → Ivl → Ivl → Ivl
  | 0, _, t, acc => ⟨acc.lo, acc.hi + 2 * t.hi + 1⟩
  | n + 1, k, t, acc =>
    let u := Ivl.mul p t x
    let t' : Ivl := ⟨u.lo / k, cdiv u.hi k⟩
    expTerms p x n (k + 1) t' ⟨acc.lo + t'.lo, acc.hi + t'.hi⟩

/-- The square of an interval, n times. -/
def Ivl.squares (p : Nat) : Nat → Ivl → Ivl
  | 0, a => a
  | n + 1, a => Ivl.squares p n (Ivl.mul p a a)

/-- exp of a non-negative m * 2^e below 256, with p fraction bits. -/
def expIvl (p m : Nat) (e : Int) : Ivl :=
  -- argument / 2^16
  let q := e - 16 + p
  let x : Ivl := if 0 ≤ q then ⟨m <<< q.toNat, m <<< q.toNat⟩ else ⟨m >>> (-q).toNat, (m >>> (-q).toNat) + 1⟩
  let one : Ivl := ⟨2 ^ p, 2 ^ p⟩
  Ivl.squares p 16 (expTerms p x (p / 8 + 2) 1 one one)

/-- Odd powers of z over their index: atanh z for z at most 1/3. -/
def atanhTerms (p : Nat) (z2 : Ivl) : Nat → Nat → Ivl → Ivl → Ivl
  | 0, _, t, acc => ⟨acc.lo, acc.hi + 2 * t.hi + 1⟩
  | n + 1, k, t, acc =>
    let t' := Ivl.mul p t z2
    atanhTerms p z2 n (k + 2) t' ⟨acc.lo + t'.lo / k, acc.hi + cdiv t'.hi k⟩
/-- atanh of a / b, at most 1/3. -/
def atanhIvl (p a b : Nat) : Ivl :=
  let z : Ivl := ⟨(a <<< p) / b, cdiv (a <<< p) b⟩
  atanhTerms p (Ivl.mul p z z) (p / 3 + 2) 3 z z

/-- The FP32 number both ends of an interval around the exact result round to, if they do (05 R142). -/
def Ivl.round (p : Nat) (neg : Bool) (i : Ivl) : Option Num :=
  let a := Flt.fp32.ieee (.fin neg i.lo (-(p : Int)))
  let b := Flt.fp32.ieee (.fin neg i.hi (-(p : Int)))
  if a = b then some (Flt.fp32.decode a) else none

/-- Repeats an interval computation with doubled precision until both ends round alike; n doublings at most, after which
the lower end is taken (assumption 20). -/
def ziv (f : Nat → Ivl) (neg : Bool) : Nat → Nat → Num
  | 0, p => Flt.fp32.decode (Flt.fp32.ieee (.fin neg (f p).lo (-(p : Int))))
  | n + 1, p =>
    match Ivl.round p neg (f p) with
    | some v => v
    | none => ziv f neg n (2 * p)

/-- EXP of an FP32 number. -/
def Num.exp : Num → Num
  | .nan => .nan
  | .inf s => if s then Num.zero else .inf false
  | .fin s m e =>
    if m = 0 then Num.one
    else if s then
      (if Num.lt (.fin false 105 0) (.fin false m e) then Num.zero
       else ziv (fun p => let x := expIvl p m e; Ivl.div p ⟨2 ^ p, 2 ^ p⟩ x) false 4 512)
    else if Num.lt (.fin false 89 0) (.fin false m e) then .inf false
    else ziv (fun p => expIvl p m e) false 4 512

/-- LOG of an FP32 number: e ln 2 + 2 atanh((f - 1) / (f + 1)) for f in [1, 2). -/
def Num.log : Num → Num
  | .nan => .nan
  | .inf s => if s then .nan else .inf false
  | .fin s m e =>
    if m = 0 then .inf true
    else if s then .nan
    else
      let k := Nat.log2 m
      let ex : Int := e + k
      if m = 2 ^ k ∧ ex = 0 then Num.zero
      else
        let part (p : Nat) : Ivl := let a := atanhIvl p (m - 2 ^ k) (m + 2 ^ k); ⟨2 * a.lo, 2 * a.hi⟩
        let ln2 (p n : Nat) : Ivl := let a := atanhIvl p 1 3; ⟨2 * n * a.lo, 2 * n * a.hi⟩
        if 0 ≤ ex then
          ziv (fun p => let a := ln2 p ex.toNat; let b := part p; ⟨a.lo + b.lo, a.hi + b.hi⟩) false 4 512
        else
          ziv (fun p => let a := ln2 p (-ex).toNat; let b := part p; ⟨a.lo - b.hi, a.hi - b.lo⟩) true 4 512

/-- TANH of an FP32 number: (E - 1) / (E + 1) with E = exp(2|x|). -/
def Num.tanh : Num → Num
  | .nan => .nan
  | .inf s => .fin s 1 0
  | .fin s m e =>
    if m = 0 then .fin s 0 0
    else if Num.lt (.fin false 16 0) (.fin false m e) then .fin s 1 0
    else ziv (fun p =>
      let x := expIvl p m (e + 1)
      let one := 2 ^ p
      Ivl.div p ⟨x.lo - one, x.hi - one⟩ ⟨x.lo + one, x.hi + one⟩) s 4 512

/-- SIGMOID of an FP32 number. -/
def Num.sigmoid : Num → Num
  | .nan => .nan
  | .inf s => if s then Num.zero else Num.one
  | .fin s m e =>
    if m = 0 then .fin false 1 (-1)
    else if s then
      (if Num.lt (.fin false 110 0) (.fin false m e) then Num.zero
       else ziv (fun p =>
         let x := expIvl p m e
         let one := 2 ^ p
         Ivl.div p ⟨one, one⟩ ⟨x.lo + one, x.hi + one⟩) false 4 512)
    else if Num.lt (.fin false 64 0) (.fin false m e) then Num.one
    else ziv (fun p =>
      let x := expIvl p m e
      let one := 2 ^ p
      -- E / (1 + E) = 1 - 1 / (1 + E)
      let r := Ivl.div p ⟨one, one⟩ ⟨x.lo + one, x.hi + one⟩
      ⟨one - r.hi, one - r.lo⟩) false 4 512

/-! ### Philox-4x32-10 (05 R147) -/

/-- A word modulo 2^32. -/
abbrev W32 := BitVec 32

/-- The four counter words of a round. -/
structure Quad where
  c0 : W32
  c1 : W32
  c2 : W32
  c3 : W32
  deriving DecidableEq, Repr

/-- One round of Philox. -/
def philoxRound (k0 k1 : W32) (c : Quad) : Quad :=
  let p0 : BitVec 64 := 0xD2511F53#64 * c.c0.zeroExtend 64
  let p1 : BitVec 64 := 0xCD9E8D57#64 * c.c2.zeroExtend 64
  ⟨(p1 >>> 32).truncate 32 ^^^ c.c1 ^^^ k0, p1.truncate 32, (p0 >>> 32).truncate 32 ^^^ c.c3 ^^^ k1, p0.truncate 32⟩

/-- The rounds that are left, the key bumped between rounds. -/
def philoxRounds : Nat → W32 → W32 → Quad → Quad
  | 0, _, _, c => c
  | n + 1, k0, k1, c => philoxRounds n (k0 + 0x9E3779B9#32) (k1 + 0xBB67AE85#32) (philoxRound k0 k1 c)

/-- The output words of Philox for SEED, STREAM and POS. -/
def philox (seed stream pos : Word) : Quad :=
  philoxRounds 10 (seed.truncate 32) ((seed >>> 32).truncate 32)
    ⟨pos.truncate 32, (pos >>> 32).truncate 32, stream.truncate 32, (stream >>> 32).truncate 32⟩

/-- Word i of the output. -/
def Quad.word (q : Quad) (i : Nat) : W32 :=
  match i with
  | 0 => q.c0
  | 1 => q.c1
  | 2 => q.c2
  | _ => q.c3

/-- sr_bf16 of 05 R155: the BF16 encoding of an FP32 encoding, and whether it was clamped. -/
def srBf16 (x : Nat) (r : Nat) : Nat × Bool :=
  match Flt.fp32.decode x with
  | .nan => (0x7FC0, false)
  | .inf _ => (x >>> 16, false)
  | .fin _ _ _ =>
    let mag := x % 2 ^ 31 + r
    if 0x7F800000 ≤ mag then ((x / 2 ^ 31 * 2 ^ 31 + 0x7F7F0000) >>> 16, true)
    else ((x / 2 ^ 31 * 2 ^ 31 + mag) >>> 16, false)

end Sys2Proof.Machine
end

