-- ==== Sys2Proof/Machine/State.lean ====
section
/-! DEFINITION. The state of the device as plain data, the reasons a command can stop, and the state after reset.
Every piece of state INVENTORY.md lists under '## State' is a field here. -/

namespace Sys2Proof.Machine

/-! ### Working keys (14 R384) -/

/-- A working copy of a key, as two shares whose XOR is the key (14 R384). -/
structure Masked where
  shareA : BitVec 256 := 0
  shareB : BitVec 256 := 0
  deriving DecidableEq, Repr
/-- The key that the shares hold. -/
def Masked.key (m : Masked) : BitVec 256 := m.shareA ^^^ m.shareB
/-- The shares after a fresh value has been XORed into both. -/
def Masked.remask (m : Masked) (r : BitVec 256) : Masked := ⟨m.shareA ^^^ r, m.shareB ^^^ r⟩

/-! ### Sections: allocator, siphon, catchment, census (06, 07, 17) -/

/-- A catchment page slot (07 R199-R201): the page it holds by partition and DVA. The page's bytes lie in the slot's lines of
the Reservoir, behind the sluices (07 "The catchment"). A slot whose lines failed is pinned and not valid (08 R230). -/
structure CSlot where
  part : Nat
  dva : Nat
  valid : Bool
  filling : Bool
  pinned : Bool
  age : Nat
  hit : Bool
  deriving DecidableEq, Repr

/-- A census entry (06 R175, R176). -/
structure Census where
  words : Store Nat := []
  tag : Nat := 0
  valid : Bool := false
  deriving DecidableEq, Repr

/-- One section. -/
structure Sec where
  good : Nat := 0
  runf : Nat := 0
  fenced : Bool := false
  live : List Block := []
  scrub : List (Nat × Nat) := []
  catchC : Nat := 0
  scheds : Store Sched := []
  sipTurn : Nat := 0
  stFence : Nat := 0
  stTag : Nat := 0
  stCatch : Nat := 0
  stIngress : Nat := 0
  stSlot : Nat := 0
  catchment : Store CSlot := []
  hits : Nat := 0
  misses : Nat := 0
  bypass : Nat := 0
  census : Store Census := []
  mxBusy : Nat := 0
  stallCrd : Nat := 0
  stallTok : Nat := 0
  errTimes : Store (List Nat) := []
  thermCap : Nat := 11
  softSince : Option Nat := none
  deriving DecidableEq, Repr

/-! ### Sluices (08) -/

/-- A counter block or tree node: MAJOR and the MINOR of each child (08 R218). -/
structure Node where
  major : Nat := 0
  minors : Store Nat := []
  deriving DecidableEq, Repr

/-- One stored copy of a counter block or node, with its MAC field (08 R214, R218). -/
structure NodeCopy where
  node : Node := {}
  mac : BitVec 64 := 0
  deriving DecidableEq, Repr

/-- A metadata cache entry: present, and dirty (08 R220). -/
structure CacheEnt where
  dirty : Bool
  deriving DecidableEq, Repr

/-- A poison table entry (08 R231), with the model's name of the record that reported it (00 R21). -/
structure Poison where
  subtree : Bool
  level : Nat
  index : Nat
  rid : Nat
  deriving DecidableEq, Repr

/-- A line in the write buffer: ciphertext and MAC (08 R225). -/
structure WbLine where
  line : Nat
  cipher : List Byte
  mac : BitVec 64
  deriving DecidableEq, Repr

/-- What a transaction tag holds, or an access that waits for one (08 R223, R225, R235); `past`: its block was freed since the STU
checked it (07 R192). -/
structure TagReq where
  write : Bool
  line : Nat
  part : Nat
  epoch : Nat
  off : Nat
  data : List Byte
  engine : Bool
  cls : ReqClass
  since : Nat
  past : Bool := false
  deriving DecidableEq, Repr

/-- What a request at a sluice gave its requester (08 R223, R226, R230): the request, the status and the line's bytes. -/
structure Released where
  req : TagReq
  status : Nat
  data : List Byte
  deriving DecidableEq, Repr

/-- A group re-encryption in hand (08 R227): the group, the counters its lines still stand under, the lines rewritten so far, the
tag that the triggering write and the engine hold together (08 R235), the line that the write replaces whole, and the write itself
where it came as a command. -/
structure Job where
  group : Nat
  old : Node
  next : Nat
  tag : Nat
  whole : Option Nat
  holder : Option TagReq
  deriving DecidableEq, Repr

/-- A read-eye channel (07 R210, R211): the worst lane as SLU_EYE shows it, and by lane its phase, reference voltage, margin below
16, windows seen, and the smallest offset with a disagreement in the sweep under way, below 16. -/
structure Eye where
  phase : Nat := 0
  vref : Nat := 0
  margin : Nat := 0
  lane : Nat := 0
  moves : Nat := 0
  phases : Store Nat := []
  vrefs : Store Nat := []
  margins : Store Nat := []
  wins : Store Nat := []
  cands : Store Nat := []
  deriving DecidableEq, Repr

/-- One sluice and its stack. Nodes are keyed level * 2^32 + index; a level-0 node is a counter block. `nodes` holds the trusted
value of each, `prim` and `mirr` the two stored copies: the primary in this sluice's stack n, the mirror in stack n XOR 1 (08
R214). `stackData` is keyed by line, `stackMac` by byte address in the MAC region. A line or copy that is not listed is the one
the last group rewrite or the initialisation wrote: zeros, and a node as cleared (08 R228, R236). -/
structure Sluice where
  k1 : Masked := {}
  k2 : Masked := {}
  km : Masked := {}
  keyed : Bool := false
  ready : Bool := false
  initpm : Nat := 0
  part : Nat := 0
  assigned : Bool := false
  scrub : Bool := false
  stopped : Bool := false
  nodes : Store Node := []
  root : Node := {}
  cache : Store CacheEnt := []
  prim : Store NodeCopy := []
  mirr : Store NodeCopy := []
  macBuf : List Nat := []
  stackData : Store (List Byte) := []
  stackMac : Store (BitVec 64) := []
  wbuf : List WbLine := []
  tags : Store TagReq := []
  jobs : List Job := []
  waiting : List TagReq := []
  rewriteDue : List Nat := []
  ended : List Nat := []
  rekeys : List (Nat × Nat) := []
  poison : List Poison := []
  lookup : Nat := 0
  missCb : Nat := 0
  missNd : Nat := 0
  reenc : Nat := 0
  rekey : Nat := 0
  partialW : Nat := 0
  waitUs : Nat := 0
  eccC : Nat := 0
  repair : Nat := 0
  linePoi : Nat := 0
  integ : Nat := 0
  treeLost : Nat := 0
  eyes : Store Eye := []
  lastGroup : Store Nat := []
  prefetchDue : Store Nat := []
  released : List Released := []
  deriving DecidableEq, Repr

/-! ### Aquifer port (07) -/

/-- Aquifer region states (07 R193). -/
inductive RegState where
  | none | loading | sealed
  deriving DecidableEq, Repr

/-- An Aquifer region of one partition (07 R193): the first line of its locator table, and by written page the base line and the
number of lines of its frames on the expanders (07 R197). -/
structure Region where
  state : RegState := .none
  base : Nat := 0
  size : Nat := 0
  width : Nat := 0
  ctx : Option Nat := none
  tbl : Nat := 0
  pages : Store (Nat × Nat) := []
  releasing : Bool := false
  deriving DecidableEq, Repr

/-- Who reads a page or line (07 R199; 08 R222): a core, a schedule, a queue of a function, or the Aquifer port of a section. -/
inductive Reader where
  | core (c : Nat)
  | siphon (sec k : Nat)
  | host (f q : Nat)
  | port (sec : Nat)
  deriving DecidableEq, Repr

/-- A page fetch of the Aquifer port (07 R197, R199) for a section, by the region's owner and the page's DVA: the frames decoded so
far, the status of the first that failed, the victim slot it fills, and its read tag. -/
structure Fetch where
  sec : Nat
  part : Nat
  dva : Nat
  frames : List (Nat × List Byte)
  bad : Nat
  fill : Option (Nat × Nat)
  tag : Nat
  discard : Bool
  deriving DecidableEq, Repr

/-- The Aquifer port (07 R193-R199), with its keys (14 R381), the ciphertext lines and frame MACs that the expanders hold by physical
line, the generation table, and the readers whose lookup of a page is counted and whose read is not complete. -/
structure Aqf where
  ports : Nat := 0
  gib : Nat := 0
  k1 : Masked := {}
  k2 : Masked := {}
  km : Masked := {}
  exp : Store (List Byte) := []
  macs : Store (BitVec 64) := []
  gens : Store Nat := []
  linesUsed : Nat := 0
  fetches : List Fetch := []
  tagsOut : Store Nat := []
  askers : List (Reader × Nat × Nat) := []
  deriving DecidableEq, Repr

/-! ### Links and headworks (09) -/

/-- Link port states, coded as LNK_STATUS.STATE (09). -/
inductive LinkState where
  | off | training | keying | up | retraining | fenced
  deriving DecidableEq, Repr

/-- A packet in a headworks buffer with the port it came in through (48 and above: an internal port). `again`: it has left a port before, and
is to leave once more; it holds no flits of its receive buffer (09 R250, R268). -/
structure Buffered where
  pkt : Packet
  port : Nat
  again : Bool
  deriving DecidableEq, Repr

/-- A packet queued at a port: its flits sent so far, the packet as it leaves, the packet as it was buffered, and whether it still holds that
buffer, until its first flit leaves; the second copy of a SYNC packet does not (09 R263, R264). -/
structure TxEnt where
  sent : Nat
  pkt : Packet
  was : Buffered
  holds : Bool
  deriving DecidableEq, Repr

/-- A flit in a replay buffer (09 R245): its extended sequence number, the flit in plaintext, its virtual channel,
its owner in the egress schedule, and whether sending it
again spends a credit of the ledger that a resync set anew (09 R258). -/
structure Sent where
  seq : Nat
  flit : Flit
  vc : Nat
  owner : Nat
  due : Bool
  deriving DecidableEq, Repr

/-- One link port. `enabled` is its stored enable; `keyed`: it has been Up. Keys and salts are those of each direction, `thash`,
`peerUid` and `peerPub` what the keying under way agreed on, `eph` the vault slot of its ephemeral key. `txSeq` and `idleSeq` count the
flits sent under the keys, `rxNext` and `rxIdle` those expected, `idleGap` the flits lost since an idle flit last authenticated. `nakAt`
is the ACK and the time of the last replay. `freed` counts the flits freed by VC, `credSent` the counts reported, `occ` the receive
buffer's occupancy, `outst` by VC whose flits the peer holds, oldest first. `txq` holds the packets to send, `inFlight` those sent whole
with the sequence number of their last flit. `rxFec` holds what the codewords received leave for flits to come, each part with whether its
codeword could be corrected, its bits and their value; `eqIn` the tap steps that the peer has asked for and the next codeword takes.
`fecAcc` holds the `fecBits` bits of the stream that fill no codeword yet. `waitFlows` are
the flows that wait for the port since it left Up. `akOld`: the AK has changed during the keying (14 R396). `laneRev`, `laneInv`, `rxTaps`
and `txTaps` are what training found and set. -/
structure Link where
  state : LinkState := .off
  peerPort : Nat := 0
  px : Nat := 0
  py : Nat := 0
  pz : Nat := 0
  pdist : Nat := 0
  margin : Nat := 0
  retrains : Nat := 0
  cstat : Nat := 0
  corr : Nat := 0
  uncorr : Nat := 0
  replays : Nat := 0
  authf : Nat := 0
  resync : Nat := 0
  stale : Nat := 0
  aged : Nat := 0
  notready : Nat := 0
  malformed : Nat := 0
  slots : Store (Nat × Bool) := []
  txKey : Masked := {}
  rxKey : Masked := {}
  akOld : Bool := false
  txSalt : BitVec 32 := 0
  rxSalt : BitVec 32 := 0
  thash : Digest := 0
  peerUid : Nat := 0
  peerPub : List Byte := []
  txSeq : Nat := 0
  idleSeq : Nat := 0
  rxNext : Nat := 0
  rxIdle : Nat := 0
  idleGap : Nat := 0
  rxAckDue : Bool := false
  nakDue : Bool := false
  replaying : Bool := false
  nakAt : Option (Nat × Nat) := none
  ackSeen : Nat := 0
  resendAt : Option Nat := none
  replay : List Sent := []
  txq : List TxEnt := []
  inFlight : List (Nat × TxEnt) := []
  eph : Option Nat := none
  credits : Store Nat := []
  credSeen : Store Nat := []
  credSent : Store Nat := []
  freed : Store Nat := []
  occ : Store Nat := []
  outst : Store (List Nat) := []
  cvcNext : Nat := 0
  slotNext : Nat := 0
  prioWait : Nat := 0
  rrNext : Nat := 0
  fecAcc : Nat := 0
  fecBits : Nat := 0
  rxFec : List (Bool × Nat × Nat) := []
  eqIn : List Nat := []
  laneRev : Bool := false
  laneInv : Nat := 0
  rxTaps : List Int := []
  txTaps : List Int := []
  authTimes : List Nat := []
  replayTimes : List Nat := []
  target : Option LinkState := none
  accepted : Bool := false
  keyed : Bool := false
  attempts : Nat := 0
  leftUpAt : Nat := 0
  waitFlows : List Nat := []
  enabled : Bool := false
  cable : Cable := .none
  cv33 : Nat := 0
  tapAt : Option Nat := none
  eqDue : Nat := 0
  deriving DecidableEq, Repr

/-- A pending route table (09 R268). -/
structure Shadow where
  version : Nat
  time : Nat
  table : List RouteEntry
  deriving DecidableEq, Repr

/-- A ROUTE or MGMT packet its sender has not had acknowledged (09 R265). -/
structure Unacked where
  pkt : Packet
  port : Nat
  sends : Nat
  deriving DecidableEq, Repr

/-- HWK_ROUTE.ROLE (09). -/
inductive Role where
  | active | spare | joining
  deriving DecidableEq, Repr

/-- An open request of a fabric producer held at its consumer's headworks (02 R57; 09 R262): the section and the tenancy identifier it is
for, the runnel, the producer's module and section, and its format. -/
structure FabReq where
  sec : Nat
  cid : Nat
  rid : Nat
  peer : Nat
  fmt : Nat
  deriving DecidableEq, Repr

/-- The headworks. `masterOf0` is the route master of District 0, which controls the groups of a twin-District system (10 R290). -/
structure Hwk where
  version : Nat := 0
  shadow : Option Shadow := none
  master : Bool := false
  masterAt : Option Pos := none
  masterOf0 : Option Pos := none
  role : Role := .active
  pos : Pos := ⟨0, 0, 0, 0⟩
  coord : Option Nat := none
  table : Store Pos := []
  epochs : Store (Bool × Nat) := []
  bufs : List Buffered := []
  inbox : List Packet := []
  flows : Store Nat := []
  syncSent : Store Nat := []
  syncSeen : Store Nat := []
  mgmtSent : Nat := 0
  failed : List Pos := []
  unacked : List Unacked := []
  rings : Store (Nat × Packet) := []
  fopens : List FabReq := []
  computing : Bool := false
  fenceAfterCommit : Bool := false
  fenceNow : Bool := false
  deriving DecidableEq, Repr

/-! ### Reduction groups (10) -/

/-- Reduction group states (10 HWK_RGCFG). -/
inductive RgState where
  | none | joining | active | closing
  deriving DecidableEq, Repr

/-- A source-map entry (10 R275, 12 R350). -/
structure SrcMap where
  core : Nat
  rid : Nat
  first : Nat
  count : Nat
  part : Nat
  deriving DecidableEq, Repr

/-- A gather segment (10 R275, 12 R350). -/
structure GSeg where
  first : Nat
  count : Nat
  dva : Nat
  deriving DecidableEq, Repr

/-- A committed or dropped step (10 R291, 15 R407). -/
structure StepResult where
  step : Nat
  cnt : Nat
  expected : Nat
  status : Nat
  deriving DecidableEq, Repr

/-- What an engine holds of one tile at one of its stages (10 R283, R285-R287): 0 the local stage, 1 to 3 the X, Y and Z rings,
4 the twin stage; either an input of this module or a partial sum from upstream. 32-bit integers in row-major order, the
contributors counted, the scale, and the reduction-store tokens held. -/
structure Partial where
  step : Nat
  tile : Nat
  stage : Nat
  upstream : Bool
  cnt : Nat
  e : Nat
  vals : List Int
  tokens : Nat
  deriving DecidableEq, Repr

/-- One reduction group entry of this module. `streams` holds by stream the last tile processed of the open step plus one, `headers` the
headers its owner has still to write, `back`, `backCnt` and `backMods` the contributors and modules that count again from the next step
on, `gathered` the gather tiles stored by step, `gatherDone` the step after the last that is complete, and `ended` that a Closing group
has no open step. -/
structure RGroup where
  state : RgState := .none
  gid : Nat := 0
  xr : Bool := false
  yr : Bool := false
  zr : Bool := false
  tw : Bool := false
  sign1 : Bool := false
  s : Nat := 0
  srcs : List SrcMap := []
  owner : Option Nat := none
  resDva : Nat := 0
  resFence : Nat := 0
  gather : List GSeg := []
  gPart : Nat := 0
  gFence : Nat := 0
  tenancy : Nat := 0
  part : Nat := 0
  ctx : Option Nat := none
  cmd : Option (Nat × Nat) := none
  since : Nat := 0
  step : Nat := 0
  expect : Nat := 0
  nullC : Bool := false
  commits : Nat := 0
  short : Nat := 0
  fulldrop : Nat := 0
  discard : Nat := 0
  stallL : Nat := 0
  stallP : Nat := 0
  partials : List Partial := []
  seen : List (Nat × Nat × Nat) := []
  sums : Store (Nat × List Int) := []
  taken : List Nat := []
  outs : List Nat := []
  lostCnt : Nat := 0
  streams : Store Nat := []
  headers : List StepResult := []
  back : List Nat := []
  backCnt : Nat := 0
  lostMods : List Nat := []
  backMods : List Nat := []
  ended : Bool := false
  mismatch : Bool := false
  reported : Bool := false
  left : List (Nat × Nat × Handle) := []
  reports : List (Nat × Bool × Nat) := []
  commitDue : Bool := false
  results : List StepResult := []
  gathered : List (Nat × Nat) := []
  gatherDone : Nat := 0
  deriving DecidableEq, Repr

/-! ### SYN (11) -/

/-- A release granted at SYN on its way to its waiter (11 R306, R316). -/
structure Grant where
  who : Who
  part : Nat
  obj : Nat
  status : Nat
  deriving DecidableEq, Repr

/-- Quotas and detector registers of one partition (11 SYN registers). -/
structure SynPart where
  ids : Store Nat := []
  qFence : Nat := 0
  qSem : Nat := 0
  qEvent : Nat := 0
  qWeir : Nat := 0
  qFweir : Nat := 0
  qRemote : Nat := 0
  qHwait : Nat := 0
  lock : Bool := false
  en : Bool := true
  abort : Bool := false
  window : Nat := 10000
  events : Nat := 0
  snaps : List (Word × Word) := []
  ovf : Bool := false
  aborted : Bool := false
  progressAt : Nat := 0
  raised : Bool := false
  abortDue : Bool := false
  cOrder : Nat := 0
  cUnder : Nat := 0
  cAband : Nat := 0
  cRfail : Nat := 0
  deriving DecidableEq, Repr

/-- A join of a fabric weir that has reached this module before the weir was created here (11 R317). -/
structure WeirJoin where
  tag : Nat
  number : Nat
  src : Nat
  at_ : Nat
  deriving DecidableEq, Repr

/-- The SYN unit. `objs` is keyed by the entry's identity + 1; `ids` maps a virtual identifier to that key. -/
structure Syn where
  objs : Store (Option SynObj) := []
  nextId : Nat := 1
  parts : Store SynPart := []
  grants : Store (Option Grant) := []
  nextGrant : Nat := 0
  joins : List WeirJoin := []
  deriving DecidableEq, Repr

/-! ### Host interface (12) -/

/-- TDI states, coded as IDN_STATUS.TDI (12). -/
inductive Tdi where
  | unlocked | locked | run | error
  deriving DecidableEq, Repr

/-- Process context states (12 R338). -/
inductive CtxState where
  | free | opened | dying
  deriving DecidableEq, Repr

/-- A process context; `closer` is the queue-0 command that waits for its death (12 R338, R352). -/
structure Ctx where
  state : CtxState := .free
  pasid : Nat := 0
  closing : Bool := false
  superseded : Bool := false
  cancelled : Nat := 0
  deriving DecidableEq, Repr

/-- Queue states, coded as IDN_AQCTL.STATE (12 R340). -/
inductive QState where
  | absent | running | halted
  deriving DecidableEq, Repr

/-- How far a fetched command has come: waiting for its WFENCE, ready to execute, executing, or finished. -/
inductive CmdStage where
  | waiting | ready | running | done
  deriving DecidableEq, Repr

/-- The command in hand of a queue (12 R342, R344). `begun`: a COPY_OUT that passed its checks and reads; `past`: the granule ranges freed
since (07 R192); `asked`: an
access of it waits at a sluice or for a page (08 R234). -/
structure Cmd where
  opc : Nat
  wait : Bool
  sig : Bool
  irq : Bool
  cid : Nat
  wfence : Nat
  sfence : Nat
  wval : Nat
  sval : Nat
  args : List Byte
  stage : CmdStage
  status : Nat
  r0 : Nat
  r1 : Nat
  sat : Bool := false
  nspec : Bool := false
  begun : Bool := false
  past : List (Nat × Nat) := []
  asked : Bool := false
  deriving DecidableEq, Repr

/-- A completion entry (12 R344), and whether it raises the queue's vector. -/
structure Cpl where
  cid : Nat
  status : Nat
  sstat : Nat
  phase : Bool
  sat : Bool
  nspec : Bool
  sqhead : Nat
  r0 : Nat
  r1 : Nat
  time : Nat
  irq : Bool
  deriving DecidableEq, Repr

/-- One queue (12 R339-R341). -/
structure Queue where
  state : QState := .absent
  sqBase : Nat := 0
  cqBase : Nat := 0
  sqLog : Nat := 0
  cqLog : Nat := 0
  vector : Nat := 0
  ctx : Option Nat := none
  tail : Nat := 0
  head : Nat := 0
  cqHead : Nat := 0
  cqTail : Nat := 0
  phase : Bool := true
  cur : Option Cmd := none
  held : List Cpl := []
  last : Option Cpl := none
  destroying : Bool := false
  deriving DecidableEq, Repr

/-- A mapping of host memory (12 R347). One that queue 0 made belongs to no context. -/
structure Mapping where
  addr : Nat
  len : Nat
  rd : Bool
  wr : Bool
  ctx : Option Nat
  deriving DecidableEq, Repr

/-- A Chrysalis mailbox instance (14 R390). -/
structure Mailbox where
  busy : Bool := false
  done : Bool := false
  status : Nat := 0
  irqen : Bool := false
  vector : Nat := 0
  req : Store Word := []
  rsp : Store Word := []
  deriving DecidableEq, Repr

/-- One PCIe function: 0 is PF0, k is VF k. `locHold` and `secHold` are the logical coordinate and the sections that its capability table
keeps while a queue of it runs (12 R337). `portReset`: a host port reset waits for its contexts to be gone (17 R446). -/
structure Fn where
  tdi : Tdi := .unlocked
  ctxs : Store Ctx := []
  queues : Store Queue := []
  maps : Store (Option Mapping) := []
  aqSqb : Word := 0
  aqCqb : Word := 0
  aqSqLog : Nat := 0
  aqCqLog : Nat := 0
  aqVec : Nat := 0
  aqEn : Bool := false
  mbox : Mailbox := {}
  ideKeys : List Nat := []
  irqs : Store Nat := []
  locHold : Option Nat := none
  secHold : Option Nat := none
  portReset : Bool := false
  deriving DecidableEq, Repr

/-! ### Partitions, cocoons, ledger (13, 15) -/

/-- Partition states, coded as IDN_PART.STATE (13). -/
inductive PState where
  | free | active | preempted | stopped | draining
  deriving DecidableEq, Repr

/-- Cocoon unit states, coded as IDN_COC.STATE (15). -/
inductive CocState where
  | idle | prepared | stopped | emptying | restoring
  deriving DecidableEq, Repr

/-- A prepared cocoon request (15 R400-R402). -/
structure CocReq where
  full : Bool
  wrap : Nat
  handle : Nat
  ranges : List (Nat × Nat)
  place : Nat
  tbytes : Nat
  fn : Nat
  q : Nat
  objs : List Nat
  deriving DecidableEq, Repr

end Sys2Proof.Machine

namespace Sys2Proof

/-- The bytes of a schedule part, whose contents 15 R399 names and 15 R404 does not lay out (assumption 38). -/
opaque Config.schedBytes : Machine.Saved → List Byte

end Sys2Proof

namespace Sys2Proof.Machine

/-- One partition. `steps` and `streams` are the next steps of restored reduction groups, and their streams, which wait for their RG_CREATE
(15 R405). `rewaits` are the waits of its restored schedules, issued again when its next launch starts (15 R405). `dieDue` says that the
deaths of a STOP, an FLR or an IDE failure in a cocoon wait for its end (12 R353). -/
structure Part where
  state : PState := .free
  sections : Nat := 0
  pooled : Bool := false
  d12 : Bool := false
  census : Bool := false
  cid : Nat := 0
  member : Option Nat := none
  rgres : Nat := 0
  catchC : Nat := 0
  meas : Digest := 0
  regions : Store Region := []
  saved : Option Saved := none
  drainCmd : Option Nat := none
  epochDone : Bool := false
  scrubbed : Nat := 0
  genScrub : List (Nat × Nat) := []
  coc : CocState := .idle
  cocPred : Nat := 0
  ticket : Nat := 0
  ticketAt : Nat := 0
  cocReq : Option CocReq := none
  cocCmd : Option (Nat × Nat) := none
  steps : List (Nat × Nat) := []
  streams : List (Nat × Store Nat) := []
  images : List (Nat × Saved) := []
  ledger : List LedgerEntry := []
  expectL : List LedgerEntry := []
  mirror : List LedgerEntry := []
  twinAllow : Bool := false
  ckSlot : Option Nat := none
  dieDue : Bool := false
  rewaits : List Waiter := []
  deriving DecidableEq, Repr

/-! ### Chrysalis (14) -/

/-- The lifecycle OTP words (14 R375). -/
structure Otp where
  lcs : List (BitVec 64)
  pm : List (BitVec 64)
  tlock : BitVec 64
  owners : List Digest
  dbgcnt : Nat
  svnmin : List Nat
  rsa : BitVec 384
  rsb : BitVec 384
  deriving DecidableEq, Repr

/-- A vault slot: two shares and the attribute word (14 R382-R384). -/
structure VSlot where
  valid : Bool := false
  exportable : Bool := false
  usage : Nat := 0
  owner : Nat := 15
  cid : Nat := 0
  pair : Bool := false
  shareA : BitVec 256 := 0
  shareB : BitVec 256 := 0
  ctx : Option Nat := none
  deriving DecidableEq, Repr

/-- A loaded compact record (13 R366). -/
structure Member where
  role : Nat
  egress : Nat
  outsz : List Nat
  key : List Byte
  digest : Digest
  deriving DecidableEq, Repr

/-- A loaded compact record (13 R366, R367). -/
structure Compact where
  seq : Nat
  keypol : Bool
  commons : Nat
  members : List Member
  cdig : Digest
  deriving DecidableEq, Repr

/-- A firmware manifest of the policy set (14 R393). -/
structure Manifest where
  svns : List Nat
  digests : List Digest
  deriving DecidableEq, Repr

/-- The lifecycle state (14 R375). -/
inductive Lcs where
  | blank | test | production | endOfLife
  deriving DecidableEq, Repr

/-- Chrysalis. `testAuth`: a TYPE 1 token has opened the factory test modes (14 R378). -/
structure Chr where
  otp : Otp
  lcs : Lcs := .blank
  debug : Bool := false
  debugScope : Nat := 0
  rsOpen : Bool := true
  digests : List Digest := []
  svns : List Nat := []
  vault : Store VSlot := []
  compacts : Store (Option Compact) := []
  seqSeen : Store Nat := []
  policy : List Manifest := []
  challenges : Store (Option (Digest × Nat)) := []
  testAuth : Bool := false
  trngFailed : Bool := false
  lastAdvance : Store Nat := []
  deferred : List (Nat × Nat) := []
  drainsForDebug : Bool := false
  drainsForEnd : Bool := false
  tokenFn : Option Nat := none
  tokenScope : Nat := 0
  akCert : List Byte := []
  mboxTurn : Nat := 0
  deriving DecidableEq, Repr

/-! ### Monarch, RAS, power, time (16, 17, 18) -/

/-- Start-up phases, coded as MON_BOOT.PHASE (17). -/
inductive Phase where
  | rom | otp | chrTest | firmware | identity | rails | memTest | logicTest | stacks | keys | ready | safeListen | fatal
  deriving DecidableEq, Repr

/-- One copy of one firmware image in boot flash (17 R448, 18 R477). -/
structure Image where
  digest : Digest := 0
  svn : Nat := 0
  valid : Bool := true
  deriving DecidableEq, Repr

/-- Monarch. `storedSag` and `storedTim` are the stored configuration of boot flash (18 R477), `vfEn` the SR-IOV VF Enable bit (17 R449);
`aqfDone`: the Aquifer phase has ended (17 R447). -/
structure Mon where
  phase : Phase := .rom
  fstat : Nat := 0
  fphase : Nat := 0
  fwb : Bool := false
  bootMs : Nat := 0
  silent : Bool := false
  mgmt : Bool := false
  compute : Bool := false
  fabric : Bool := false
  aquifer : Bool := false
  sections : Nat := 0
  width : Nat := 0
  cause : Nat := 0
  resets : Nat := 0
  cmdCstat : Nat := 0
  fwCstat : Nat := 0
  fwBusy : Bool := false
  fwProg : Nat := 0
  fwBuf : Store Word := []
  staging : List Word := []
  fwPending : Option (Nat × FwCopy) := none
  imgA : Store Image := []
  imgB : Store Image := []
  fenceList : List (Nat × Nat) := []
  strapsOk : Bool := true
  fails : List FailUnit := []
  smalert : Bool := false
  smOff : Nat := 0
  switch : Bool := true
  en : Bool := true
  overvolt : Bool := false
  rails : Bool := false
  tripped : Bool := false
  monIrq : Nat := 0
  hostUp : Bool := false
  storedSag : Nat × Nat := (450, 420)
  storedTim : Nat := 206593
  startAt : Nat := 0
  perst : Bool := true
  vfEn : Bool := false
  aqfDone : Bool := false
  deriving DecidableEq, Repr

/-- An error record (17 R457). `rid` is the model's name of the record, `causeRid` that of its cause; `torn`: an entry of the flash ring
that a loss of power has left partial (17 R462). -/
structure Rec where
  rid : Nat
  status : Nat
  sev : Nat
  time : Nat
  block : Nat
  inst : Nat
  part : Nat
  boot : Bool
  fence : Bool
  cid : Nat
  loc0 : Nat
  loc1 : Nat
  causeRid : Option Nat
  coalesced : Bool := false
  flashed : Bool := false
  torn : Bool := false
  count : Nat := 1
  seq : Nat := 0
  cause : Nat := 0
  deriving DecidableEq, Repr

/-- The RAS log (17 R458, R459). `inbox` holds records on their way to Monarch. -/
structure Ras where
  inbox : List Rec := []
  nextRid : Nat := 1
  next : Nat := 0
  wrap : Bool := false
  slots : Store (Option Rec) := []
  seqOf : Store Nat := []
  flash : List Rec := []
  flashQ : List Rec := []
  deriving DecidableEq, Repr

/-- PWR_SLEEP.STATE (16). -/
inductive Sleep where
  | running | entering | diapause | waking
  deriving DecidableEq, Repr

/-- The power controller and sensors. Power is in W, temperatures in °C (coolant in 0.1 °C), the input in 0.1 V. `effCap` and
`effBoost` are the cap and the Boost request that the limit follows; `bedPoint` holds the point of a bed plus one, 0 for a bed that
is power-gated; `exitSince` is keyed by reason, 16 plus the group of four or eight junction sensors, and 32 plus the stack; `hot` holds the
groups and stacks, by the same keys, for which THERMAL_SOFT and STACK_TEMP are in force. `eSum` and `eN` are the sum in mW and the number of
the estimates since the last calibration. -/
structure Pwr where
  cap : Nat := 2900
  boost : Bool := false
  effCap : Nat := 2900
  effBoost : Bool := false
  cstat : Nat := 0
  limit : Nat := 2900
  est : Nat := 0
  meas : Nat := 0
  point : Nat := 8
  boosted : Bool := false
  reasons : Nat := 0
  calClamp : Bool := false
  gain : Nat := 65536
  thr : Store Nat := []
  junction : Store Nat := []
  stackT : Store Nat := []
  inlet : Nat := 0
  outlet : Nat := 0
  warn : Nat := 450
  rst : Nat := 420
  lock : Bool := false
  sleep : Sleep := .running
  wakeAfter : Bool := false
  wakeAt : Nat := 0
  sleepCstat : Nat := 0
  drops : Nat := 0
  input : Nat := 540
  exitSince : Store (Option Nat) := []
  downAt : Option Nat := none
  stretched : Store Bool := []
  bedPoint : Store Nat := []
  risen : List Nat := []
  secSlow : Bool := false
  hot : List Nat := []
  eSum : Nat := 0
  eN : Nat := 0
  deriving DecidableEq, Repr

/-- Fabric time and its services. `slew` is the correction in ns that the count has still to take, `slewAt` its own counts since the
last one it took; `taken`: it has taken its time from upstream since it started. `up` counts the ns since VAON came up, which nothing
steps: durations are measured on it (assumption 8). `prev` is fabric time one tick ago, `ptpAnn` when the last Announce went. -/
structure Tim where
  now : Nat := 0
  master : Bool := false
  sync : Bool := false
  ppsLock : Bool := false
  holdover : Bool := false
  tai : Bool := false
  hops : Nat := 0
  offset : Int := 0
  upPort : Nat := 0
  cand : Bool := true
  prio : Nat := 128
  ppsOut : Bool := true
  refOut : Bool := true
  ppsW : Nat := 100
  ppsIn : Bool := false
  ptpEn : Bool := false
  ptpDomain : Nat := 0
  ptpL2 : Bool := true
  ptp4 : Bool := false
  ptp6 : Bool := false
  ptpLog : Nat := 12
  ptpUtc : Nat := 37
  ptpPrio1 : Nat := 128
  setPending : Option (Nat × Bool × Nat) := none
  setCstat : Nat := 0
  ppsGood : Nat := 0
  slew : Int := 0
  slewAt : Nat := 0
  taken : Bool := false
  ppsHigh : Bool := false
  ptpSeq : Nat := 0
  ptpLast : Option (Nat × Nat) := none
  up : Nat := 0
  prev : Nat := 0
  ptpAnn : Option Nat := none
  deriving DecidableEq, Repr

/-- MON_JOIN and the join of a spare (15 R410). -/
inductive JoinPhase where
  | notSpare | relay | preparing | receiving | replaying | failed
  deriving DecidableEq, Repr

/-- The join of a spare and the hold of a twin (15 R410-R414). `out` is what a twin sends while it holds, `created` and `ready` that a spare
has its partitions, and its Aquifer regions too. -/
structure Join where
  phase : JoinPhase := .notSpare
  twinHold : Bool := false
  predHold : Nat := 0
  prog : Nat := 0
  fstat : Nat := 0
  twinReady : Bool := false
  replayStep : Nat := 0
  prepAt : Nat := 0
  held : List Nat := []
  out : Transfer := {}
  created : Bool := false
  ready : Bool := false
  groups : List (Nat × RGroup) := []
  deriving DecidableEq, Repr

/-- What the last register, SMBus, Ethernet, TDISP or SPDM access returned: model's own (assumption 3). -/
structure Rsp where
  status : Nat := 0
  words : List Word := []
  bytes : List Byte := []
  lanes : List (List Nat) := []
  deriving DecidableEq, Repr

/-- The whole machine. -/
structure State where
  pending : List Instr
  free : Nat
  rsp : Rsp
  hostMem : Store Byte
  cores : Store Core
  canal : List CanalMsg
  secs : Store Sec
  sluices : Store Sluice
  resv : Store Byte
  aqf : Aqf
  links : Store Link
  hwk : Hwk
  rgs : Store RGroup
  syn : Syn
  fns : Store Fn
  parts : Store Part
  chr : Chr
  mon : Mon
  ras : Ras
  pwr : Pwr
  tim : Tim
  join : Join
  deriving DecidableEq, Repr

/-- Why the model stops on a command. -/
inductive Fault where
  /-- Raised by every meaning whose command names a unit the device does not have (core 2,560 or above, section 10, sluice
  20, port 48, function 11, partition 10 ...). SAFE: the device has no such unit, so no behaviour of it is hidden. -/
  | noSuchUnit (what : String)
  deriving DecidableEq, Repr

/-- Why the model gives a command no meaning. -/
inductive Refusal where
  /-- Raised only by an arm of exec for a row that has no meaning yet. SAFE: the run stops. No arm does so in this model. -/
  | notModelled (mnemonic : String)
  deriving DecidableEq, Repr

/-- A root secret bank: the 256-bit secret, then the leftmost 128 bits of SHA-384("D20 RS" and the secret) (14 R375). -/
def rsBank (secret : BitVec 256) : BitVec 384 :=
  secret ++ (sha384 (ascii "D20 RS" ++ beBytes 32 secret.toNat)).extractLsb' 256 128
/-- The lifecycle OTP of a module in Production with one owner (assumption 6). -/
def Otp.production : Otp :=
  { lcs := [BitVec.allOnes 64, BitVec.allOnes 64, 0], pm := [BitVec.allOnes 64, BitVec.allOnes 64, 0],
    tlock := BitVec.allOnes 64, owners := [Config.ownerHash 0], dbgcnt := 0, svnmin := [0, 0, 0], rsa := rsBank Config.rootSecret, rsb := 0 }

/-- The module right after reset (17 R446, R447): the ROM phase, every field at its Reset column, nothing listed in memory,
and the values of assumption 1 where the spec gives none. -/
def State.reset : State :=
  { pending := [], free := 0, rsp := {}, hostMem := [], cores := [], canal := [], secs := [], sluices := [], resv := [],
    aqf := {}, links := [], hwk := {}, rgs := [], syn := {}, fns := [], parts := [], chr := { otp := Otp.production },
    mon := {}, ras := {}, pwr := {}, tim := {}, join := {} }

end Sys2Proof.Machine
end

