-- ==== Sys2Proof/Machine/Store.lean ====
section
/-! DEFINITION. Operations over sparse stores, little-endian bytes and bit fields, which every meaning uses. -/

namespace Sys2Proof.Machine

/-! ### Sparse stores in canonical form -/

/-- The entry at a key, d where none is listed. -/
def sget {α : Type} (d : α) : Store α → Nat → α
  | [], _ => d
  | (k', v) :: r, k => if k = k' then v else sget d r k

/-- The store with the entry at a key set; an entry equal to d is not listed. -/
def sset {α : Type} [DecidableEq α] (d : α) : Store α → Nat → α → Store α
  | [], k, v => if v = d then [] else [(k, v)]
  | (k', v') :: r, k, v =>
    if k < k' then (if v = d then (k', v') :: r else (k, v) :: (k', v') :: r)
    else if k = k' then (if v = d then r else (k, v) :: r)
    else (k', v') :: sset d r k v

/-- The entries of n keys from k on, in order. -/
def sgets {α : Type} (d : α) (m : Store α) (k : Nat) : Nat → List α
  | 0 => []
  | n + 1 => sget d m k :: sgets d m (k + 1) n

/-- The store with the entries of a list set at the keys from k on. -/
def sputs {α : Type} [DecidableEq α] (d : α) : Store α → Nat → List α → Store α
  | m, _, [] => m
  | m, k, v :: r => sputs d (sset d m k v) (k + 1) r

/-- The store with every listed entry replaced by its image. -/
def smap {α : Type} [DecidableEq α] (d : α) (f : Nat → α → α) (m : Store α) : Store α :=
  m.foldl (fun r e => sset d r e.1 (f e.1 e.2)) []

/-- Canonical form: keys rising from n on, no entry equal to d. -/
def swfFrom {α : Type} [DecidableEq α] (d : α) : Nat → Store α → Bool
  | _, [] => true
  | n, (k, v) :: r => decide (n ≤ k) && decide (v ≠ d) && swfFrom d (k + 1) r
/-- Canonical form of a store. -/
def swf {α : Type} [DecidableEq α] (d : α) (m : Store α) : Bool := swfFrom d 0 m

/-- The canonical form of memory: a store of bytes whose unlisted addresses read 0 (08 R236, assumption 4). -/
abbrev Memory.wf (m : Store Byte) : Prop := swf (0 : Byte) m = true

/-! ### Bytes and bit fields -/

/-- The number a little-endian byte string stands for. -/
def leNat : List Byte → Nat
  | [] => 0
  | b :: r => b.toNat + 256 * leNat r
/-- The n bytes of a number, least significant first. -/
def leBytes : Nat → Nat → List Byte
  | 0, _ => []
  | n + 1, x => BitVec.ofNat 8 x :: leBytes n (x / 256)
/-- n entries of a list from the i-th on. -/
def slice {α : Type} (l : List α) (i n : Nat) : List α := (l.drop i).take n
/-- The little-endian field of n bytes at byte i. -/
def field (l : List Byte) (i n : Nat) : Nat := leNat (slice l i n)
/-- Bits [lo + n - 1 : lo] of a number. -/
def bits (x lo n : Nat) : Nat := x / 2 ^ lo % 2 ^ n
/-- Bit i of a number. -/
def bit (x i : Nat) : Bool := decide (x / 2 ^ i % 2 = 1)
/-- A Bool as a number. -/
def b2n (b : Bool) : Nat := if b then 1 else 0
/-- The value v placed at bit lo. -/
def place (lo v : Nat) : Nat := v * 2 ^ lo
/-- A list cut into pieces of n, k pieces at most. -/
def chunks {α : Type} (n : Nat) : Nat → List α → List (List α)
  | 0, _ => []
  | k + 1, l => match l with
    | [] => []
    | _ => l.take n :: chunks n k (l.drop n)
/-- The i-th entry replaced by its image. -/
def listMod {α : Type} (f : α → α) : Nat → List α → List α
  | _, [] => []
  | 0, x :: r => f x :: r
  | i + 1, x :: r => x :: listMod f i r
/-- n rounded up to a multiple of k. -/
def roundUp (n k : Nat) : Nat := (n + k - 1) / k * k

end Sys2Proof.Machine
end

