-- ==== Sys2Proof/Machine/Ops.lean ====
section
/-! DEFINITION. The named operations over units, registers and memory that the meanings share: looking a unit up and
putting it back, free values, error records, the registers, tokens and scratchpad of a core, and taking a core's fault. -/

namespace Sys2Proof.Machine

/-- The outcome of a command. -/
abbrev Out := Host.Outcome State Fault Refusal

/-! ### Status codes (00 R16, R17) -/

def Status.ok : Nat := 0x00
def Status.bounds : Nat := 0x01
def Status.state : Nat := 0x02
def Status.revoked : Nat := 0x03
def Status.abandoned : Nat := 0x04
def Status.integrity : Nat := 0x05
def Status.poisoned : Nat := 0x06
def Status.timeout : Nat := 0x07
def Status.underflow : Nat := 0x08
def Status.order : Nat := 0x09
def Status.quota : Nat := 0x0A
def Status.denied : Nat := 0x0B
def Status.unsupported : Nat := 0x0C
def Status.cancelled : Nat := 0x0D
def Status.deadlock : Nat := 0x0E
def Status.dropped : Nat := 0x0F
def Status.saturated : Nat := 0x10
def Status.illegal : Nat := 0x40
def Status.misaligned : Nat := 0x41
def Status.fetch : Nat := 0x42
def Status.line : Nat := 0x43
def Status.rstack : Nat := 0x44
def Status.break : Nat := 0x45
def Status.trap : Nat := 0x46
def Status.operand : Nat := 0x47
def Status.directory : Nat := 0x50
def Status.eyeLow : Nat := 0x51
def Status.generation : Nat := 0x52
def Status.copyRepaired : Nat := 0x60
def Status.lineEcc : Nat := 0x61
def Status.treeLost : Nat := 0x62
def Status.poisonFull : Nat := 0x63
def Status.rootFault : Nat := 0x64
def Status.counterEnd : Nat := 0x65
def Status.peerRejected : Nat := 0x70
def Status.linkAuth : Nat := 0x71
def Status.creditResync : Nat := 0x72
def Status.linkMargin : Nat := 0x73
def Status.linkDown : Nat := 0x74
def Status.redrawFailed : Nat := 0x75
def Status.malformed : Nat := 0x80
def Status.tdiState : Nat := 0x81
def Status.hostAbort : Nat := 0x82
def Status.ideFail : Nat := 0x83
def Status.lcFault : Nat := 0x90
def Status.tokenInvalid : Nat := 0x91
def Status.unwrapFailed : Nat := 0x92
def Status.debugUnlocked : Nat := 0x93
def Status.trngFail : Nat := 0x94
/-- The codes other than OK that a table of the spec defines (00 R16, R17). -/
def Status.defined : List Nat :=
  (List.range 17).drop 1 ++ [(0x40, 8), (0x50, 3), (0x60, 6), (0x70, 6), (0x80, 4), (0x90, 5)].flatMap (fun r =>
    (List.range r.2).map (r.1 + ·))

/-! ### Units -/

def State.core (s : State) (c : Nat) : Core := sget {} s.cores c
def State.setCore (s : State) (c : Nat) (k : Core) : State := { s with cores := sset {} s.cores c k }
def State.sec (s : State) (n : Nat) : Sec := sget {} s.secs n
def State.setSec (s : State) (n : Nat) (x : Sec) : State := { s with secs := sset {} s.secs n x }
def State.slu (s : State) (n : Nat) : Sluice := sget {} s.sluices n
def State.setSlu (s : State) (n : Nat) (x : Sluice) : State := { s with sluices := sset {} s.sluices n x }
def State.link (s : State) (n : Nat) : Link := sget {} s.links n
def State.setLink (s : State) (n : Nat) (x : Link) : State := { s with links := sset {} s.links n x }
def State.rg (s : State) (e : Nat) : RGroup := sget {} s.rgs e
def State.setRg (s : State) (e : Nat) (x : RGroup) : State := { s with rgs := sset {} s.rgs e x }
def State.fn (s : State) (f : Nat) : Fn := sget {} s.fns f
def State.setFn (s : State) (f : Nat) (x : Fn) : State := { s with fns := sset {} s.fns f x }
def State.part (s : State) (p : Nat) : Part := sget {} s.parts p
def State.setPart (s : State) (p : Nat) (x : Part) : State := { s with parts := sset {} s.parts p x }
def State.queue (s : State) (f q : Nat) : Queue := sget {} (s.fn f).queues q
def State.setQueue (s : State) (f q : Nat) (x : Queue) : State :=
  s.setFn f { s.fn f with queues := sset {} (s.fn f).queues q x }
def State.synPart (s : State) (p : Nat) : SynPart := sget {} s.syn.parts p
def State.setSynPart (s : State) (p : Nat) (x : SynPart) : State :=
  { s with syn := { s.syn with parts := sset {} s.syn.parts p x } }
def State.obj (s : State) (k : Nat) : Option SynObj := sget none s.syn.objs k
def State.setObj (s : State) (k : Nat) (x : Option SynObj) : State :=
  { s with syn := { s.syn with objs := sset none s.syn.objs k x } }

/-- The command acts on unit n of a kind of which there are `count`; a unit the device does not have stops the model. -/
def onUnit (what : String) (count n : Nat) (t : State) : Out :=
  if n < count then .next t else .fault (.noSuchUnit what)

/-- As onUnit, for a core of the 2,560 (00 R6). -/
def onCore (c : Nat) (t : State) : Out := onUnit "core" 2560 c t
def onSec (n : Nat) (t : State) : Out := onUnit "section" 10 n t
def onSlu (n : Nat) (t : State) : Out := onUnit "sluice" 20 n t
def onLink (n : Nat) (t : State) : Out := onUnit "link port" 48 n t
def onFn (n : Nat) (t : State) : Out := onUnit "function" 11 n t
def onPart (n : Nat) (t : State) : Out := onUnit "partition" 10 n t

/-- A fresh unconstrained 64-bit value (assumption 2), and the state with the counter advanced. -/
def State.fresh (s : State) : Word × State := (Config.freeValue s.free, { s with free := s.free + 1 })
/-- A fresh 256-bit output of the TRNG (14 R381). -/
def State.trng (s : State) : BitVec 256 × State := (Config.trng s.free, { s with free := s.free + 1 })

/-! ### Responses (assumption 3) -/

/-- What an access or message from outside is answered. -/
def State.answer (s : State) (status : Nat) (words : List Word := []) (bytes : List Byte := []) : State :=
  { s with rsp := { status, words, bytes } }

/-! ### Partitions, sections, cores -/

/-- Section of a core (00 R6). -/
def coreSec (c : Nat) : Nat := c / 256
/-- Bed of a core within its section (00 R6). -/
def coreBed (c : Nat) : Nat := c / 16 % 16
/-- The partition a section belongs to (01 R22). -/
def State.secPart (s : State) (n : Nat) : Option Nat :=
  (List.range 10).find? (fun p => (s.part p).state ≠ .free && bit (s.part p).sections n)
/-- The partition a core belongs to. -/
def State.corePart (s : State) (c : Nat) : Option Nat := s.secPart (coreSec c)
/-- The sections of a partition, ascending. -/
def State.partSecs (s : State) (p : Nat) : List Nat := (List.range 10).filter (fun n => bit (s.part p).sections n)
/-- The ordinal of a section among a partition's sections (03 R97). -/
def State.ordinal (s : State) (p n : Nat) : Nat := ((s.partSecs p).filter (fun m => decide (m < n))).length
/-- The section with an ordinal in a partition. -/
def State.secOf (s : State) (p o : Nat) : Option Nat := (s.partSecs p)[o]?
/-- A bed is good: passed its test and fenced by no runtime fence (17 R453, R455). -/
def State.bedGood (s : State) (n b : Nat) : Bool := bit (s.sec n).good b && !bit (s.sec n).runf b
/-- A core of a partition in a good bed (17 R454). -/
def State.coreOf (s : State) (p c : Nat) : Bool :=
  decide (c < 2560) && decide (s.corePart c = some p) && s.bedGood (coreSec c) (coreBed c)

/-! ### Error records (17 R457, R458) -/

/-- Severity classes (00 R19). -/
def Sev.corrected : Nat := 0
def Sev.deferred : Nat := 1
def Sev.partFatal : Nat := 2
def Sev.devFatal : Nat := 3

/-- BLOCK codes (17 R457). -/
def Blk.idn : Nat := 0x01
def Blk.mon : Nat := 0x02
def Blk.chr : Nat := 0x03
def Blk.tim : Nat := 0x04
def Blk.pwr : Nat := 0x05
def Blk.sec : Nat := 0x06
def Blk.slu : Nat := 0x07
def Blk.sip : Nat := 0x08
def Blk.aqf : Nat := 0x09
def Blk.hwk : Nat := 0x0A
def Blk.lnk : Nat := 0x0B
def Blk.syn : Nat := 0x0C
def Blk.boot : Nat := 0x0D

/-- A record under way to Monarch, with the fields that are the same for every source filled in. -/
def Rec.mk' (status sev block inst : Nat) (part : Nat := 0xFF) (loc0 loc1 : Nat := 0) : Rec :=
  { rid := 0, status, sev, time := 0, block, inst, part, boot := false, fence := false, cid := 0, loc0, loc1,
    causeRid := none }

/-- Sends a record to Monarch: it takes the model's name of it, the time and the tenancy of its partition (17 R457). -/
def State.report (s : State) (r : Rec) : State :=
  let r := { r with rid := s.ras.nextRid, time := s.tim.now,
                    cid := if r.part < 10 then (s.part r.part).cid else r.cid }
  { s with ras := { s.ras with inbox := s.ras.inbox ++ [r], nextRid := s.ras.nextRid + 1 } }

/-! ### Registers, tokens and scratchpad of a core (02, 03) -/

/-- An s register; s0 reads as zero (03 R74). -/
def Core.reg (k : Core) (r : Reg) : Word := if r = 0 then 0 else sget 0 k.regs r.toNat
/-- Writes an s register; a write of s0 is discarded (03 R74). -/
def Core.setReg (k : Core) (r : Reg) (v : Word) : Core :=
  if r = 0 then k else { k with regs := sset 0 k.regs r.toNat v }
/-- A tile descriptor register. -/
def Core.td (k : Core) (t : TReg) : Word := sget 0 k.tds t.toNat
/-- Writes a tile descriptor register with its reserved bits forced to zero (03 R81 TSET). -/
def Core.setTd (k : Core) (t : TReg) (v : Word) : Core :=
  { k with tds := sset 0 k.tds t.toNat (v &&& 0x3FFFFDFFFFFFFFFF#64) }
/-- A completion token. -/
def Core.tok (k : Core) (t : Nat) : BitVec 32 := sget 0 k.toks t
/-- Increments a token (02 R47, 03 R100). -/
def Core.incTok (k : Core) (t : Nat) : Core := { k with toks := sset 0 k.toks t (k.tok t + 1) }
/-- Increments the token an instruction names, if it names one. -/
def Core.incOpt (k : Core) (t : Option Tok) : Core :=
  match t with
  | none => k
  | some t => k.incTok t.toNat
/-- The threshold comparison, modulo 2^32 within a window of 2^31 (02 R47). -/
def tokReached (tok thr : BitVec 32) : Bool := decide ((tok - thr).toNat < 2 ^ 31)

/-- A byte of the scratchpad. -/
def Core.byte (k : Core) (a : Nat) : Byte := sget 0 k.pond a
/-- n bytes of the scratchpad. -/
def Core.bytes (k : Core) (a n : Nat) : List Byte := sgets 0 k.pond a n
/-- Writes bytes of the scratchpad. -/
def Core.setBytes (k : Core) (a : Nat) (l : List Byte) : Core := { k with pond := sputs 0 k.pond a l }
/-- Pond bytes of a core: 640 KiB (02). -/
def pondBytes : Nat := 0xA0000

/-- A runnel handle. -/
def Core.handle (k : Core) (q : Nat) : Handle := sget {} k.handles q
def Core.setHandle (k : Core) (q : Nat) (h : Handle) : Core := { k with handles := sset {} k.handles q h }
/-- An accumulator slot. -/
def Core.slot (k : Core) (a : Nat) : Slot := sget {} k.slots a
def Core.setSlot (k : Core) (a : Nat) (x : Slot) : Core := { k with slots := sset {} k.slots a x }

/-- The code of a unit of a core, as SEC_CSTAT.FSTN (02). -/
def stnCode : Stn → Nat
  | .scalar => 0
  | .intake => 1
  | .matrix => 2
  | .accmem => 3
  | .vector => 4
  | .outflow => 5
/-- LOC0 of a record of a section: the core and its unit, as SEC_CSTAT.FSTN (17 R457). -/
def unitLoc (c : Nat) (u : Stn) : Nat := c + place 12 (stnCode u)
/-- The five stations. -/
def stations : List Stn := [.intake, .matrix, .accmem, .vector, .outflow]
/-- The unit with a code. -/
def stnOf (n : Nat) : Option Stn :=
  match n with
  | 0 => some .scalar
  | 1 => some .intake
  | 2 => some .matrix
  | 3 => some .accmem
  | 4 => some .vector
  | 5 => some .outflow
  | _ => none
/-- A station's issue queue. -/
def Core.q (k : Core) (u : Stn) : List QEntry := sget [] k.queues (stnCode u)
def Core.setQ (k : Core) (u : Stn) (l : List QEntry) : Core := { k with queues := sset [] k.queues (stnCode u) l }
/-- What a unit waits for. -/
def Core.wait (k : Core) (u : Stn) : Wait := sget .none k.waits (stnCode u)
def Core.setWait (k : Core) (u : Stn) (w : Wait) : Core := { k with waits := sset .none k.waits (stnCode u) w }

/-! ### Stopping a core (03 R104, R105) -/

/-- Every queued instruction that has not started is discarded without posting its token (03 R104). -/
def Core.flush (k : Core) : Core :=
  stations.foldl (fun k u => k.setQ u ((k.q u).filter (fun e => e.stage ≠ .queued))) k

/-- A fault of an instruction: dispatch stops, the queues are flushed, and the fault of the earliest instruction in dispatch
order is the one kept (03 R104). A fault during the drain of a HALT or after a stop of R105 takes the record over. -/
def Core.fault (k : Core) (status : Nat) (u : Stn) (pc seq : Nat) : Core :=
  let x : Stop := { drain := false, status, stn := u, pc := pc % 65536, seq }
  let k := { k.flush with waits := sset .none k.waits 0 .none }
  match k.stop with
  | some y => if y.drain ∨ seq < y.seq then { k with stop := some x } else k
  | none => { k with stop := some x }

/-- A fault or a stop is under way, so that nothing of the core that blocks resumes (03 R104). The drain of a CT.HALT, CT.BRK or CT.TRAP is
no such stop: what is dispatched goes on until it retires (03 R81). -/
def Core.stopped (k : Core) : Bool := match k.stop with
  | some x => !x.drain
  | none => false

/-- The dispatch number of a stop of R105: later than any instruction's, so that a fault of the drain is recorded instead. -/
def stopSeq : Nat := 2 ^ 62

/-- Stops a core as 03 R105 has it: the status is recorded with FSTN 0b000 and the offset of the instruction that the scalar
unit would have dispatched next. A core that already stops keeps its record. DEDUCED (log entry 96): a core that drains after a CT.HALT, CT.BRK
or CT.TRAP takes the record of the stop; a SY instruction that waits in the scalar unit has been dispatched, so the next one follows
it, and a CT.TKW that waits has not, so its own offset is the one. -/
def Core.stopWith (k : Core) (status : Nat) : Core :=
  if k.halt then k else
  match k.stop with
  | some y =>
    if y.drain then { k.flush with stop := some { drain := false, status, stn := .scalar, pc := (k.pc + 8) % 65536, seq := stopSeq } }
    else k
  | none =>
    let pc := if k.syPend.isSome then k.pc + 8 else k.pc
    { k.flush with stop := some { drain := false, status, stn := .scalar, pc := pc % 65536, seq := stopSeq } }

/-- The program counter after adding a signed byte offset (03 R75, R84). -/
def pcAdd (pc : Nat) (off : Int) : Nat := (((pc : Int) + off) % (2 : Int) ^ 64).toNat

/-- The scalar unit has finished an instruction that goes to `pc`. -/
def Core.retireScalar (k : Core) (pc : Nat) : Core :=
  { k with pc, dseq := k.dseq + 1, waits := sset .none k.waits 0 .none }
/-- The scalar unit has finished an instruction and goes on to the next. -/
def Core.advance (k : Core) : Core := k.retireScalar (pcAdd k.pc 8)

/-- The core dispatches: it runs, no stop is under way, and its scalar unit has no SY instruction outstanding (03 R94). -/
def Core.dispatches (k : Core) : Bool := k.run && k.stop.isNone && k.syPend.isNone

/-- A fault the scalar unit finds (03 R104: FSTN 0b000). -/
def Core.scalarFault (k : Core) (status : Nat) : Core := k.fault status .scalar k.pc k.dseq

/-- Progress of a partition, as the stagnation detector counts it (11 R323). -/
def State.progress (s : State) (p : Nat) : State :=
  if p < 10 then s.setSynPart p { s.synPart p with progressAt := s.tim.up, raised := false } else s
/-- Progress of the partition of a core whose scalar unit has finished an instruction since `s` (11 R323). -/
def State.dispatched (s : State) (c : Nat) (t : State) : State :=
  if (t.core c).dseq = (s.core c).dseq then t else t.progress ((s.corePart c).getD 0xFF)

/-- Runs f on a core that dispatches; a core that does not is left as it is (assumption 10). -/
def onScalar (c : Nat) (s : State) (f : Core → State) : Out :=
  onCore c (if (s.core c).dispatches then s.dispatched c (f (s.core c)) else s)

end Sys2Proof.Machine
end

