-- ==== Sys2Proof/Machine/Operands.lean ====
section
/-! DEFINITION. Every operand form of the Pezal stations: tile descriptors and their checks (02 R51-R55, R60; 03 R103),
tiles in the scratchpad, operand specs (03 R78), local runnels, and the bytes and slots an instruction names (02 R46). -/

namespace Sys2Proof.Machine

/-! ### Tile descriptors (02 table before R51) -/

/-- The fields of a tile descriptor register. -/
structure Desc where
  base : Nat
  stride : Nat
  fmt : Nat
  tr : Bool
  scb : Nat
  deriving DecidableEq, Repr

/-- A tile descriptor register read by fields. -/
def Desc.of (w : Word) : Desc :=
  let x := w.toNat
  { base := bits x 0 20, stride := bits x 20 16, fmt := bits x 36 4, tr := bit x 40, scb := bits x 42 20 }

/-- The bytes of the 32 rows of a plane of a tile, as half-open ranges (02 R51). -/
def Desc.rowsAt (d : Desc) (base rowBytes : Nat) : List (Nat × Nat) :=
  (List.range 32).map (fun r => (base + r * d.stride, base + r * d.stride + rowBytes))
/-- The bytes a descriptor names: its rows, and its scale block for an MX format (02 R51). -/
def Desc.ranges (d : Desc) : List (Nat × Nat) :=
  d.rowsAt d.base (Fmt.rowBytes d.fmt) ++ (if Fmt.isMx d.fmt then [(d.scb, d.scb + 32)] else [])

/-- Two ranges share a byte. -/
def overlap (a b : Nat × Nat) : Bool := decide (a.1 < b.2 ∧ b.1 < a.2)
/-- Two lists of ranges share a byte. -/
def overlaps (a b : List (Nat × Nat)) : Bool := a.any (fun x => b.any (fun y => overlap x y))
/-- Every byte lies in the scratchpad. -/
def inPond (l : List (Nat × Nat)) : Bool := l.all (fun r => decide (r.2 ≤ pondBytes))

/-- The checks of 02 R53 pass for a descriptor whose plane has rows of `rowBytes` bytes. -/
def Desc.okBounds (d : Desc) : Bool :=
  decide (d.base % 16 = 0 ∧ d.stride % 16 = 0 ∧ d.stride ≠ 0xFFFF ∧ Fmt.rowBytes d.fmt ≤ d.stride) &&
  (!Fmt.isMx d.fmt || decide (d.scb % 32 = 0)) && inPond d.ranges

/-- The receive rings of a core: the Pond bytes of every canal consumer end that is bound (02 R57, R60). -/
def Core.rings (k : Core) : List (Nat × Nat) :=
  (k.handles.filter (fun h => h.2.state ≠ .unbound ∧ h.2.consumer ∧ h.2.kind = .canal)).map
    (fun h => (h.2.base, h.2.base + h.2.depth * (Fmt.tileBytes h.2.fmt + if Fmt.isMx h.2.fmt then 32 else 0)))

/-- The first of a list of checks that fails: (fails, status). -/
def firstFail : List (Bool × Nat) → Option Nat
  | [] => none
  | (bad, st) :: r => if bad then some st else firstFail r

/-! ### Tiles in the scratchpad -/

/-- The elements of one row's bytes, packed little-endian (06 R161). -/
def rowElems (fmt : Nat) (l : List Byte) : List Elem :=
  let x := leNat l
  let n := Fmt.bits fmt
  (List.range 32).map (fun i => BitVec.ofNat 48 (bits x (i * n) n))
/-- The number whose bits are the elements of a row. -/
def packRow (n : Nat) : List Elem → Nat
  | [] => 0
  | e :: r => e.toNat % 2 ^ n + 2 ^ n * packRow n r
/-- The bytes of one row's elements (06 R161). -/
def rowOf (fmt : Nat) (l : List Elem) : List Byte := leBytes (Fmt.rowBytes fmt) (packRow (Fmt.bits fmt) l)

/-- A 32 x 32 array in row-major order, transposed. -/
def transpose {α : Type} (d : α) (l : List α) : List α := (List.range 1024).map (fun i => l.getD (i % 32 * 32 + i / 32) d)

/-- The tile of rows given by their bytes, received with or without a transpose (02 R51, R55). -/
def tileOfRows (fmt : Nat) (tr : Bool) (rows : List (List Byte)) (scales : List Byte) : Tile :=
  let l := (rows.map (rowElems fmt)).flatten
  { fmt, elems := if tr then transpose 0 l else l, scales := if Fmt.isMx fmt then scales.map (·.toNat) else [], tr }

/-- The tile a descriptor names, as a station receives it (02 R51, R55). -/
def Core.readTile (k : Core) (d : Desc) : Tile :=
  tileOfRows d.fmt d.tr ((List.range 32).map (fun r => k.bytes (d.base + r * d.stride) (Fmt.rowBytes d.fmt)))
    (k.bytes d.scb 32)

/-- The 32 rows of a tile as received. -/
def Tile.rows (t : Tile) : List (List Elem) := chunks 32 32 t.elems
/-- The rows of a tile as bytes, in its own format. -/
def Tile.rowBytes (t : Tile) : List (List Byte) := t.rows.map (rowOf t.fmt)
/-- The scale block of a tile as bytes. -/
def Tile.scaleBytes (t : Tile) : List Byte := t.scales.map (BitVec.ofNat 8)

/-- Rows written at BASE + r * STRIDE. -/
def Core.writeRows (k : Core) (base stride : Nat) : List (List Byte) → Core
  | [] => k
  | r :: rest => (k.setBytes base r).writeRows (base + stride) stride rest
/-- A tile written through a descriptor (02 R51). -/
def Core.writeTile (k : Core) (d : Desc) (t : Tile) : Core :=
  let k := k.writeRows d.base d.stride t.rowBytes
  if Fmt.isMx d.fmt then k.setBytes d.scb t.scaleBytes else k

/-- The values of a tile as received, each with the scale of the stored row that held it (04 R115). -/
def Tile.vals (t : Tile) : List Num :=
  if Fmt.isMx t.fmt then
    t.elems.zipIdx.map (fun (x, i) =>
      let sc := t.scales.getD (if t.tr then i % 32 else i / 32) 0
      if sc = 0xFF then .nan else Num.scale (Fmt.decode t.fmt x.toNat) ((sc : Int) - 127))
  else t.elems.map (fun x => Fmt.decode t.fmt x.toNat)

/-- A tile made of values converted into a format: the tile and the elements counted as saturated (06 R167-R170). -/
def tileOfVals (fmt : Nat) (mode : Mode) (l : List Num) : Tile × Nat :=
  if Fmt.isMx fmt then
    let rows := (chunks 32 32 l).map (convMxRow fmt mode)
    ({ fmt, elems := (rows.map (fun r => r.2.1.map (BitVec.ofNat 48))).flatten, scales := rows.map (·.1), tr := false },
      (rows.map (·.2.2)).sum)
  else
    let c := l.map (Fmt.conv fmt mode)
    ({ fmt, elems := c.map (fun x => BitVec.ofNat 48 x.1), scales := [], tr := false }, (c.filter (·.2)).length)

/-! ### Accumulator slots -/

/-- A slot's wide-48 values. -/
def Slot.elems (x : Slot) : List Elem := sgets 0 x.w48 0 1024
/-- The slot image of a slot (06 R164). -/
def Slot.tile (x : Slot) : Tile := { fmt := Fmt.w48, elems := x.elems, scales := [], tr := false }
/-- A slot that holds given wide-48 values and no open chunk (04 R125, R139). -/
def Slot.ofElems (l : List Elem) : Slot := { w48 := sputs 0 [] 0 l }
/-- Field 0 encodes zero whatever the fraction holds; the device writes it with a zero fraction only (06 R164). -/
def w48canon (x : Elem) : Elem := if x.toNat / 2 ^ 37 % 1024 = 0 then BitVec.ofNat 48 (x.toNat / 2 ^ 47 * 2 ^ 47) else x

/-! ### Local runnels (03 R78) -/

/-- The tiles of a local runnel. -/
def Core.lq (k : Core) : Spec → List Tile
  | .lA => k.lA
  | .lB => k.lB
  | .lV => k.lV
  | .lO => k.lO
  | _ => []
def Core.setLq (k : Core) : Spec → List Tile → Core
  | .lA, l => { k with lA := l }
  | .lB, l => { k with lB := l }
  | .lV, l => { k with lV := l }
  | .lO, l => { k with lO := l }
  | _, _ => k
/-- The local runnel an intake instruction writes. -/
def lspec : LDst → Spec
  | .lA => .lA
  | .lB => .lB
  | .lV => .lV
/-- Depth of a local runnel (02). -/
def localDepth : Nat := 4
/-- The number of a local runnel, by which the positions of its ends are kept. -/
def lnum : Spec → Nat
  | .lA => 0
  | .lB => 1
  | .lV => 2
  | _ => 3
/-- One tile more at an end of a local runnel, modulo 2^32 (02 R63). -/
def Core.countLocal (k : Core) (l : Spec) (consumer : Bool) : Core :=
  let i := 2 * lnum l + b2n consumer
  { k with lpos := sset 0 k.lpos i (sget 0 k.lpos i + 1) }
/-- Tiles of a local runnel that instructions have taken and whose places are not free, since they have not retired (02 R61). -/
def Core.heldLocal (k : Core) (l : Spec) : Nat :=
  (stations.map (fun u => ((k.q u).map (fun e => (e.tookL.filter (· = l)).length)).sum)).sum
/-- Room in a local runnel: a credit is held (02 R61). -/
def Core.room (k : Core) (l : Spec) : Bool := decide ((k.lq l).length + k.heldLocal l < localDepth)
/-- A tile put into a local runnel. -/
def Core.putLocal (k : Core) (l : Spec) (t : Tile) : Core := (k.setLq l (k.lq l ++ [t])).countLocal l false
/-- The instruction at a station's head takes the next tile of a local runnel; its place is free once the instruction retires
(02 R61, 03 R102). -/
def Core.takeLocal (k : Core) (u : Stn) (l : Spec) : Option (Tile × Core) :=
  match k.lq l with
  | [] => none
  | t :: r => some (t, ((k.setLq l r).countLocal l true).setQ u
      (listMod (fun e => { e with tookL := e.tookL ++ [l] }) 0 (k.q u)))
/-- The ledger of a local runnel: tiles and places that are not free make up no more than its depth, and the positions of its ends
differ by the tiles that wait (02 R62, R63). -/
def Core.localOk (k : Core) (l : Spec) : Bool :=
  decide ((k.lq l).length + k.heldLocal l ≤ localDepth) &&
  decide (sget 0 k.lpos (2 * lnum l) = sget 0 k.lpos (2 * lnum l + 1) + BitVec.ofNat 32 (k.lq l).length)

/-! ### Queue entries: copied registers (02 R44) and what an instruction names (02 R46) -/

/-- The copy of an s register in a queue entry. -/
def QEntry.s (e : QEntry) (r : Reg) : Word := if r = 0 then 0 else sget 0 e.sv r.toNat
/-- The copy of a descriptor register in a queue entry. -/
def QEntry.d (e : QEntry) (t : TReg) : Desc := Desc.of (sget 0 e.tv t.toNat)

/-- The token fields of a station instruction. -/
def insTok : PInstr → TokF
  | .rclose t _ => t
  | .inn _ t => t
  | .mx _ t => t
  | .am _ t => t
  | .vc _ t => t
  | .outf _ t => t
  | .sy _ t _ _ _ _ _ => t
  | _ => ⟨none, none⟩

/-- Something an instruction names for the hazard check: a slot, or a range of Pond bytes. -/
inductive Named where
  | slot (a : Nat)
  | pond (lo hi : Nat)
  deriving DecidableEq, Repr

/-- Two named things are or share the same. -/
def Named.clash : Named → Named → Bool
  | .slot a, .slot b => a == b
  | .pond a b, .pond c d => overlap (a, b) (c, d)
  | _, _ => false

/-- Ranges as named things. -/
def pondNames (l : List (Nat × Nat)) : List Named := l.map (fun r => .pond r.1 r.2)
/-- What a spec names. -/
def QEntry.names (e : QEntry) : Spec → List Named
  | .pond t => pondNames (e.d t).ranges
  | .slot a => [.slot a.toNat]
  | _ => []

/-- What a BC's B operand names: its row 0 or column 0 as received (05 R145). -/
def QEntry.bcNames (e : QEntry) (col : Bool) : Spec → List Named
  | .pond t =>
    let d := e.d t
    if col = d.tr then [.pond d.base (d.base + Fmt.rowBytes d.fmt)]
    else pondNames (d.rowsAt d.base ((Fmt.bits d.fmt + 7) / 8))
  | s => e.names s

/-- FP32 planes of a VC.UPD block by function (05 R150). -/
def updPlanes : UpdFn → Nat
  | .twoMoment => 3
  | .momentum => 2
  | .plain => 1
/-- The bytes of a VC.UPD block: its FP32 planes, and the remainder plane where `rem` holds (05 R150). -/
def Desc.block (d : Desc) (fn : UpdFn) (rem : Bool) : List (Nat × Nat) :=
  ((List.range (updPlanes fn)).map (fun p => d.rowsAt (d.base + p * 32 * d.stride) 128)).flatten ++
  (if rem then d.rowsAt (d.base + updPlanes fn * 32 * d.stride) 64 else [])

/-- The slots and Pond bytes a queued instruction reads, and those it writes (02 R46; 05 R139, R145, R150, R151). -/
def QEntry.named (e : QEntry) : List Named × List Named :=
  match e.ins with
  | .inn (.ldt t _) _ => (pondNames (e.d t).ranges, [])
  | .mx (.mma a _ _) _ => ([.slot a.toNat], [.slot a.toNat])
  | .mx (.prom a) _ => ([.slot a.toNat], [.slot a.toNat])
  | .am (.save a t) _ => ([.slot a.toNat], pondNames (e.d t).ranges)
  | .am (.rest a t) _ => (pondNames (e.d t).ranges, [.slot a.toNat])
  | .am (.zero a) _ => ([], [.slot a.toNat])
  | .am (.move a b) _ => ([.slot b.toNat], [.slot a.toNat])
  | .vc (.ew _ d a b _) _ => (e.names a ++ e.names b, e.names d)
  | .vc (.un _ d a) _ => (e.names a, e.names d)
  | .vc (.red _ _ d a) _ => (e.names a ++ e.names d, e.names d)
  | .vc (.bc _ col d a b) _ => (e.names a ++ e.bcNames col b, e.names d)
  | .vc (.cvt _ d a _) _ => (e.names a, e.names d)
  | .vc (.upd fn d a b sc) _ =>
    let blk := match b with
      | .pond t => pondNames ((e.d t).block fn true)
      | _ => []
    let rec_ := (e.s sc).toNat % 2 ^ 20
    (e.names a ++ [.pond rec_ (rec_ + 64)] ++ blk, e.names d ++ blk)
  | .vc (.rng d _) _ => ([], e.names d)
  | .outf (.st s _ _ _) _ => (e.names s, [])
  | .outf (.stl s _ _) _ => (e.names s, [])
  | .outf (.snd s _) _ => (e.names s, [])
  | .outf (.put s t _) _ => (e.names s, pondNames (e.d t).ranges)
  | .outf (.gsnd a _ _) _ => ([.slot a.toNat], [.slot a.toNat])
  | _ => ([], [])

/-- The later of two instructions may not start before the earlier has retired (02 R46). -/
def conflict (later earlier : List Named × List Named) : Bool :=
  later.2.any (fun x => (earlier.1 ++ earlier.2).any (fun y => x.clash y)) ||
  later.1.any (fun x => earlier.2.any (fun y => x.clash y))

/-- Every instruction of a core that is queued and has not retired. -/
def Core.unretired (k : Core) : List QEntry := (stations.map k.q).flatten

/-- No earlier instruction that has not retired conflicts with what is named (02 R46). -/
def Core.hazardFree (k : Core) (seq : Nat) (n : List Named × List Named) : Bool :=
  k.unretired.all (fun e => !(decide (e.seq < seq) && conflict n e.named))

/-- A promotion of the slot is under way (04 R124). -/
def Core.promoting (k : Core) (a : Nat) : Bool := (k.slot a).promo.isSome
/-- The promotion engine runs a promotion (04 R123). -/
def Core.engineBusy (k : Core) : Bool := k.slots.any (fun x => x.2.promo.isSome)

/-- The named slots whose promotion holds an instruction back (04 R124, R126): every one, but an MX.MMA with Z = 0 may start. -/
def QEntry.heldSlots (e : QEntry) : List Nat :=
  match e.ins with
  | .mx (.mma a z _) _ => if z then [a.toNat] else []
  | _ => (e.named.1 ++ e.named.2).filterMap (fun n => match n with | .slot a => some a | _ => none)

/-- What keeps the instruction at a station's head from starting: its token (03 R100), a hazard (02 R46), or a promotion
into a slot it names (04 R124). -/
def Core.gate (k : Core) (e : QEntry) : Option Wait :=
  let t := match (insTok e.ins).tkw with
    | none => none
    | some (tk, r) =>
      let thr : BitVec 32 := (e.s r).truncate 32
      if tokReached (k.tok tk.toNat) thr then none else some (Wait.token tk.toNat thr.toNat)
  match t with
  | some w => some w
  | none =>
    if !k.hazardFree e.seq e.named then some .hazard
    else if e.heldSlots.any k.promoting then some .engine
    else none

/-- The entry at the head of a station's queue. -/
def Core.head (k : Core) (u : Stn) : Option QEntry := (k.q u).head?
/-- The head of a station's queue with another progress. -/
def Core.setStage (k : Core) (u : Stn) (g : Stage) : Core := k.setQ u (listMod (fun e => { e with stage := g }) 0 (k.q u))
/-- An IN.LDD, OF.ST or OF.STL whose accesses are under way goes on when its row comes again (03 R87, R92, R104). -/
def QEntry.resumes (e : QEntry) : Bool :=
  decide (e.stage = .running) && (match e.ins with
    | .inn (.ldd ..) _ | .outf (.st ..) _ | .outf (.stl ..) _ => true
    | _ => false)
/-- The runnel whose tile the head took, to which a credit goes back at retirement (02 R61). -/
def Core.noteTake (k : Core) (u : Stn) (q : Nat) : Core :=
  k.setQ u (listMod (fun e => { e with took := e.took ++ [q] }) 0 (k.q u))

/-- What a station did with the instruction at its head. -/
inductive Did where
  | waits (w : Wait)          -- it cannot start yet, or blocks with no effect so far
  | fault (status : Nat)      -- a check failed or it faulted: no effect
  | faultIn (s : State) (status : Nat) -- it faulted in a state that keeps what it did before the fault
  | waitsIn (s : State) (w : Wait) -- it has started, and something it asked for is under way
  | starts (s : State) (w : Wait)  -- it has started and waits for an event (SY waits, RCLOSE)
  | done (s : State)          -- it has had its whole effect and may retire

/-- One step of a station on the instruction at its head, where `sel` accepts that instruction: 03 R100 and 02 R45, R46
decide whether it starts, and `body` is its effect. Any other state of the station leaves the device as it is
(assumption 10). -/
def onStation {α : Type} (c : Nat) (u : Stn) (s : State) (sel : PInstr → Option α) (body : Core → QEntry → α → Did) : Out :=
  onCore c <|
    let k := s.core c
    match k.head u with
    | none => s
    | some e =>
      match (if (e.stage = .queued ∨ e.resumes) ∧ k.halt = false then sel e.ins else none) with
      | none => s
      | some a =>
        match k.gate e with
        | some w => s.setCore c (k.setWait u w)
        | none =>
          match body k e a with
          | .waits w => s.setCore c (k.setWait u w)
          | .fault st => s.setCore c ((k.setQ u ((k.q u).drop 1)).fault st u e.pc e.seq)
          | .faultIn t st => t.setCore c (((t.core c).setQ u (((t.core c).q u).drop 1)).fault st u e.pc e.seq)
          | .waitsIn t w => t.setCore c (((t.core c).setStage u .running).setWait u w)
          | .starts t w => t.setCore c (((t.core c).setStage u .running).setWait u w)
          | .done t => t.setCore c (((t.core c).setStage u .done).setWait u .none)

end Sys2Proof.Machine
end

