-- ==== Sys2Proof/Machine/Flags.lean ====
section
/-! DEFINITION. Every counter and flag computation the meanings share: saturating counters (00 R13), counters in units
(04 R134), the vector, outflow and matrix counters (05 R143, R159; 04 R119, R121), the census (06 R174-R177), and the
write rules of lock bits (00 R14). -/

namespace Sys2Proof.Machine

/-- A counter of w bits that saturates at all-ones. -/
def satAdd (w x n : Nat) : Nat := min (x + n) (2 ^ w - 1)

/-- A counter kept in single events and read in whole units (04 R134): the units read, saturating, and what stays. -/
def readUnits (w unit x : Nat) : Nat × Nat := (min (x / unit) (2 ^ w - 1), x % unit)

/-- An RWL field: it takes the written value until its lock bit is set (00 R13, R14). -/
def rwl (lock : Bool) (old new : Nat) : Nat := if lock then old else new

/-- Elements that a vector or outflow conversion clamped (05 R143). -/
def Core.countSats (k : Core) (n : Nat) : Core :=
  { k with vcSats := satAdd 32 k.vcSats n, sawSat := k.sawSat || decide (n ≠ 0) }
/-- Elements that became NaN or infinite from finite operands (05 R143). -/
def Core.countSpecials (k : Core) (n : Nat) : Core :=
  { k with vcNspec := satAdd 16 k.vcNspec n, sawSpec := k.sawSpec || decide (n ≠ 0) }
/-- Elements that a promotion clamped (04 R121), and those that it first made NaN or infinite (04 R119). -/
def Core.countPromotion (k : Core) (sats specs : Nat) : Core :=
  { k with mxProms := satAdd 32 k.mxProms 1, mxSats := satAdd 16 k.mxSats sats, mxNspec := satAdd 8 k.mxNspec specs,
           sawSat := k.sawSat || decide (sats ≠ 0), sawSpec := k.sawSpec || decide (specs ≠ 0) }
/-- Roundings of D12-emulation in the matrix station that clamped (06 R180). -/
def Core.countMx (k : Core) (sats : Nat) : Core :=
  { k with mxSats := satAdd 16 k.mxSats sats, sawSat := k.sawSat || decide (sats ≠ 0) }

/-! ### Census (06 R174-R176) -/

/-- Census mode of the launch that runs the core (13 R356). -/
def Core.censusOn (k : Core) : Bool := match k.launch with
  | some l => l.census
  | none => false
/-- Numerics mode of the launch that runs the core: true in D12-emulation. -/
def Core.d12 (k : Core) : Bool := match k.launch with
  | some l => l.d12
  | none => false

/-- The word of an entry that a wide-48 element is binned in (06 R175). -/
def censusWord (x : Elem) : Nat :=
  let f : Nat := x.toNat / 2 ^ 37 % 1024
  let e : Int := (f : Int) - 511
  if f = 0 then 0
  else if f = 1023 then 1
  else if e < -56 then 2
  else if e < 56 then 3 + ((e + 56) / 2).toNat
  else 59

/-- One count in a word of a census entry, saturating at 32 bits. -/
def Census.count (c : Census) (w n : Nat) : Census := { c with words := sset 0 c.words w (satAdd 32 (sget 0 c.words w) n) }

/-- The elements of one slot read binned into an entry, the entry taking the tag of the first (06 R174-R176). -/
def Census.bin (c : Census) (tag : Nat) (l : List Elem) : Census :=
  let c := if c.valid then c else { c with tag, valid := true }
  if c.tag = tag then l.foldl (fun c x => c.count (censusWord x) 1) c else c.count 61 l.length
/-- Elements that an instruction with the tag clamped or mapped (06 R174, word 60). -/
def Census.sat (c : Census) (tag n : Nat) : Census := if c.valid ∧ c.tag = tag then c.count 60 n else c

/-- The census of an instruction that read slots' values `l` and clamped n elements, in the section's entry of the tag copied
at dispatch; nothing with census off or when no slot was read. -/
def State.census (s : State) (c : Nat) (k : Core) (e : QEntry) (l : List (List Elem)) (n : Nat) : State :=
  if !k.censusOn || l.isEmpty then s else
  let tag := e.cfg.ctag.toNat % 65536
  let x := s.sec (coreSec c)
  let ent := sget {} x.census (tag % 256)
  let ent := (l.foldl (fun ent v => ent.bin tag v) ent).sat tag n
  s.setSec (coreSec c) { x with census := sset {} x.census (tag % 256) ent }

end Sys2Proof.Machine
end

