-- ==== Sys2Proof/Machine/Sluice.lean ====
section
/-! DEFINITION. The sluices (08) and the shared operations on Reservoir lines that every requester uses: counters, cache, tags,
poison table, reads and writes of lines; SLUICE_READ, STACK_BURST_ARRIVAL, SLUICE_WRITE, GROUP_REENCRYPTION,
REENCRYPTION_COMPLETE, METADATA_EVICTION, COUNTER_PREFETCH, WRITE_BUFFER_DRAIN, GROUP_REWRITE, SLUICE_TAG_TIMEOUT,
READ_EYE_WINDOW. -/

namespace Sys2Proof.Machine

/-! ### Keys, contexts, encryption (08 R215-R217; 14 R379-R381) -/


/-- KDF of 14 R379: blocks 1 to n of HMAC-SHA-384 in counter mode, the leftmost L bits. -/
def kdf (ki label ctx : List Byte) (l : Nat) : List Byte :=
  (((List.range ((l + 383) / 384)).map (fun i =>
    digestBytes (hmac384 ki (beBytes 4 (i + 1) ++ label ++ [0] ++ ctx ++ beBytes 4 l)))).flatten).take (l / 8)

/-- The key a vault slot holds (14 R384). -/
def State.vaultKey (s : State) (i : Nat) : BitVec 256 := let v := sget {} s.chr.vault i; v.shareA ^^^ v.shareB
/-- A key derived from the Reservoir key (vault slot 4) or the Aquifer key (slot 5), with context UID (14 R381). -/
def State.memKey (s : State) (slot : Nat) (label : String) : BitVec 256 :=
  BitVec.ofNat 256 (beNat (kdf (beBytes 32 (s.vaultKey slot).toNat) (ascii label) (beBytes 8 Config.uid.toNat) 256))

/-- The counter context of a line: domain, stack, line index, MINOR, MAJOR (08 R215). -/
def lineCtx (dom stack line minor major : Nat) : BitVec 128 :=
  BitVec.ofNat 128 (leNat ([BitVec.ofNat 8 dom, BitVec.ofNat 8 stack, 0] ++ leBytes 4 (line % 2 ^ 30) ++
    [BitVec.ofNat 8 minor] ++ leBytes 8 major))
/-- The counter context of a counter block or tree node: stack, level, index, and its parent's MINOR for it and MAJOR (08 R215).
Both copies carry the context of the stack of their sluice (assumption 98). -/
def nodeCtx (stack level index minor major : Nat) : BitVec 128 :=
  BitVec.ofNat 128 (leNat ([3, BitVec.ofNat 8 stack, BitVec.ofNat 8 level] ++ leBytes 4 index ++ [BitVec.ofNat 8 minor] ++
    leBytes 8 major))
/-- The context of a line on the expanders: its physical line address and the page's generation (08 R215). -/
def aqCtx (line gen : Nat) : BitVec 128 :=
  BitVec.ofNat 128 (leNat ([2] ++ leBytes 6 line ++ [0] ++ leBytes 4 gen ++ leBytes 4 0))
/-- Ciphertext and MAC of a line under a counter (08 R216, R217). -/
def Sluice.seal (x : Sluice) (stack line minor major : Nat) (data : List Byte) : WbLine :=
  let ct := xtsEnc x.k1.key x.k2.key (lineCtx 0 stack line minor major) data
  { line, cipher := ct, mac := gmac x.km.key (lineCtx 1 stack line minor major) ct }

/-! ### Places (07 R187; 08 R214, R219) -/

/-- The stack of a window offset: 2n + bit 13 (07 R187). -/
def stackOf (sec off : Nat) : Nat := 2 * sec + off / 2 ^ 13 % 2
/-- The line index of a window offset within its stack (08 "Metadata placement"). -/
def lineIdx (off : Nat) : Nat := off / 2 ^ 14 * 64 + off / 128 % 64
/-- The window offset of a line of a stack. -/
def lineOff (sl line : Nat) : Nat := line / 64 * 2 ^ 14 + sl % 2 * 2 ^ 13 + line % 64 * 128
/-- Bytes of one section window: 2^38 is its place in the DVA map (07 R186). -/
def winSpan : Nat := 2 ^ 38
/-- Key of a plaintext byte of the Reservoir. -/
def resKey (sec off : Nat) : Nat := sec * winSpan + off
/-- n plaintext bytes of a section's window. -/
def State.resBytes (s : State) (sec off n : Nat) : List Byte := sgets 0 s.resv (resKey sec off) n
/-- Bytes of a section's window replaced. -/
def State.setRes (s : State) (sec off : Nat) (l : List Byte) : State := { s with resv := sputs 0 s.resv (resKey sec off) l }
/-- A range of a section's window as zeros. -/
def State.zeroRes (s : State) (sec off n : Nat) : State :=
  { s with resv := s.resv.filter (fun e => !decide (resKey sec off ≤ e.1 ∧ e.1 < resKey sec off + n)) }
/-- Groups of one stack: 2^24 under the root of four levels of arity 64 (08 R219). -/
def maxGroups : Nat := 2 ^ 24

/-- A pair put into a list keyed by number, keys rising. -/
def keyPut {α : Type} (k : Nat) (v : α) : List (Nat × α) → List (Nat × α)
  | [] => [(k, v)]
  | (k', v') :: r => if k < k' then (k, v) :: (k', v') :: r else if k = k' then (k, v) :: r else (k', v') :: keyPut k v r
/-- The entry of a list keyed by number. -/
def keyGet {α : Type} (k : Nat) (l : List (Nat × α)) : Option α := (l.find? (fun e => e.1 == k)).map (·.2)

/-! ### Counter blocks and the tree (08 R218-R222) -/

/-- Key of a counter block (level 0) or node. -/
def nodeKey (level idx : Nat) : Nat := level * 2 ^ 32 + idx
/-- A counter block as the initialisation leaves it, its group rewritten once (08 R236); a tree node as it was cleared
(assumption 99). -/
def nodeInit (level : Nat) : Node := if level = 0 then { major := 1 } else {}
/-- A counter block, a node, or (level 4) the root. -/
def Sluice.node (x : Sluice) (level idx : Nat) : Node :=
  if 4 ≤ level then x.root else (keyGet (nodeKey level idx) x.nodes).getD (nodeInit level)
def Sluice.setNode (x : Sluice) (level idx : Nat) (n : Node) : Sluice :=
  if 4 ≤ level then { x with root := n } else { x with nodes := keyPut (nodeKey level idx) n x.nodes }
/-- A cache entry put in or marked; no entry equals the default, so a clean entry is listed too. -/
def Sluice.cached (x : Sluice) (level idx : Nat) : Bool := x.cache.any (fun e => e.1 == nodeKey level idx)
def Sluice.setCache (x : Sluice) (level idx : Nat) (dirty : Bool) : Sluice :=
  if 4 ≤ level then x else { x with cache := keyPut (nodeKey level idx) ⟨dirty⟩ x.cache }
/-- MINOR of a child. -/
def Node.minor (n : Node) (k : Nat) : Nat := sget 0 n.minors k
/-- MINOR of a child incremented. -/
def Node.bump (n : Node) (k : Nat) : Node := { n with minors := sset 0 n.minors k (n.minor k + 1) }
/-- MAJOR + 1 with every MINOR 0 (08 R221, R227, R228). -/
def Node.next (n : Node) : Node := { major := n.major + 1, minors := [] }

/-- Bytes 0 to 55 of a counter block or node: MAJOR, then 64 MINOR fields of 6 bits (08 R218). -/
def Node.body (n : Node) : List Byte :=
  leBytes 56 (n.major + ((List.range 64).map (fun k => n.minor k * 2 ^ (64 + 6 * k))).sum)
/-- The 64 bytes of a stored copy, its MAC in the last eight (08 R218; assumption 98). -/
def NodeCopy.image (c : NodeCopy) : List Byte := c.node.body ++ beBytes 8 c.mac.toNat
/-- The MAC of a counter block or node under its parent's counter (08 R215, R218). -/
def Sluice.nodeMac (x : Sluice) (sl level idx : Nat) (n : Node) : BitVec 64 :=
  let p := x.node (level + 1) (idx / 64)
  gmac x.km.key (nodeCtx sl level idx (p.minor (idx % 64)) p.major) n.body
/-- Both copies of a counter block or node written under its parent's counter (08 R214, R220). -/
def Sluice.writeCopies (x : Sluice) (sl level idx : Nat) : Sluice :=
  let n := x.node level idx
  let c : NodeCopy := { node := n, mac := x.nodeMac sl level idx n }
  { x with prim := keyPut (nodeKey level idx) c x.prim, mirr := keyPut (nodeKey level idx) c x.mirr }
/-- A stored copy verifies against its parent's counter; one that is not listed is as the initialisation sealed it (08 R220). -/
def Sluice.copyOk (x : Sluice) (sl level idx : Nat) (c : Option NodeCopy) : Bool := match c with
  | none => true
  | some c => c.mac == x.nodeMac sl level idx c.node

/-- Jobs the engine takes at once (08 R227). -/
def engineJobs : Nat := 64
/-- The re-encryption and re-key engine has 64 jobs in hand. -/
def Sluice.full (x : Sluice) : Bool := decide (engineJobs ≤ x.jobs.length + x.rekeys.length)

/-- The write-back and removal of a cache entry whose parent is in the cache (08 R220, R221): the parent's MINOR for it increments, or
the parent is re-keyed where it is at 63, with the MACs of its 64 children; both copies are written (08 R233). -/
def Sluice.evict (x : Sluice) (sl level idx : Nat) : Sluice :=
  match keyGet (nodeKey level idx) x.cache with
  | none => x
  | some ent =>
    let x := { x with cache := x.cache.filter (fun e => e.1 != nodeKey level idx) }
    if !ent.dirty then x else
    let pi := idx / 64
    let p := x.node (level + 1) pi
    if 63 ≤ p.minor (idx % 64) then
      let x := ({ x with rekey := satAdd 16 x.rekey 1, rekeys := x.rekeys ++ [(level + 1, pi)] }.setNode (level + 1) pi p.next).setCache
        (level + 1) pi true
      (List.range 64).foldl (fun x k => x.writeCopies sl level (pi * 64 + k)) x
    else ((x.setNode (level + 1) pi (p.bump (idx % 64))).setCache (level + 1) pi true).writeCopies sl level idx

/-- Entries of the metadata cache, and sectors of 32 bytes of the MAC buffer (08 R220). -/
def cacheSize : Nat := 32768
def macSectors : Nat := 4096
/-- A cache entry that gives up its place to another: no child of it is in the cache, and it is clean, or its parent is in the cache
and need not be re-keyed for it, so that the access that takes its place waits for no re-key (08 R220, R221; assumption 27). -/
def Sluice.evictable (x : Sluice) (e : Nat × CacheEnt) : Bool :=
  let l := e.1 / 2 ^ 32
  let i := e.1 % 2 ^ 32
  !x.cache.any (fun c => decide (c.1 / 2 ^ 32 + 1 = l ∧ c.1 % 2 ^ 32 / 64 = i)) &&
    (!e.2.dirty || ((l == 3 || x.cached (l + 1) (i / 64)) && decide ((x.node (l + 1) (i / 64)).minor (i % 64) < 63)))
/-- The cache has no room and no entry that may go. -/
def Sluice.stuck (x : Sluice) : Bool := decide (cacheSize ≤ x.cache.length) && !x.cache.any x.evictable
/-- Room for one more cache entry: of the evictable entries the clean one with the lowest key goes, else the one with the lowest key.
The spec names no replacement order; it changes timing and counters only (assumption 27). -/
def Sluice.makeRoom (x : Sluice) (sl : Nat) : Sluice :=
  if x.cache.length < cacheSize then x else
  match x.cache.find? (fun e => x.evictable e && !e.2.dirty) with
  | some (k, _) => x.evict sl (k / 2 ^ 32) (k % 2 ^ 32)
  | none => match x.cache.find? x.evictable with
    | some (k, _) => x.evict sl (k / 2 ^ 32) (k % 2 ^ 32)
    | none => x

/-- Brings a counter block or node into the cache, its missing parents first, counting the misses (08 R220, R224). The copies it comes
from have been verified (`State.checkChain`): a copy that verifies was sealed under its parent's present counter, so it holds the
value that `nodes` keeps. -/
def Sluice.fetch (sl : Nat) : Nat → Nat → Nat → Sluice → Sluice
  | 0, _, _, x => x
  | n + 1, level, idx, x =>
    if 4 ≤ level || x.cached level idx then x else
    let x := Sluice.fetch sl n (level + 1) (idx / 64) x
    let x := if level = 0 then { x with missCb := satAdd 20 x.missCb 1 } else { x with missNd := satAdd 16 x.missNd 1 }
    let x := x.makeRoom sl
    if x.cached level idx || decide (cacheSize ≤ x.cache.length) then x else x.setCache level idx false

/-- Number of a requester class. -/
def classKey : ReqClass → Nat
  | .core => 0
  | .siphon => 1
  | .scrub => 2
  | .host => 3
/-- The group that the class accessed is remembered; an access to line 0 of the group after it makes a prefetch due (08 R222). -/
def Sluice.noteClass (x : Sluice) (cls : ReqClass) (line : Nat) : Sluice :=
  let g := line / 64
  let k := classKey cls
  let due := decide (line % 64 = 0 ∧ 0 < g ∧ sget 0 x.lastGroup k = g)
  { x with lastGroup := sset 0 x.lastGroup k (g + 1), prefetchDue := if due then sset 0 x.prefetchDue k (g + 1) else x.prefetchDue }
/-- The MAC sector of a line is in the MAC buffer, the oldest sector going where 4,096 are there (08 R220; assumption 27). -/
def Sluice.touchMac (x : Sluice) (line : Nat) : Sluice :=
  if x.macBuf.contains (line / 4) then x
  else { x with macBuf := (if macSectors ≤ x.macBuf.length then x.macBuf.drop 1 else x.macBuf) ++ [line / 4] }
/-- A counter lookup (08 R223 step 2): LOOKUP counts in units of 64, MISSCB in units of 16. -/
def Sluice.look (x : Sluice) (sl line : Nat) : Sluice :=
  (Sluice.fetch sl 4 0 (line / 64) { x with lookup := satAdd 38 x.lookup 1 }).touchMac line

/-- Tags of a sluice (08 R235). -/
def sluTags : Nat := 1024
/-- The lowest free tag; each re-key in hand holds one too. -/
def Sluice.freeTag (x : Sluice) : Option Nat :=
  if sluTags ≤ x.tags.length + x.rekeys.length then none
  else (List.range sluTags).find? (fun t => !(x.tags.any (fun e => e.1 == t)))
/-- Tags held by requests, and by the engine (08 R235): the tag of a re-encryption counts as held by both, since the write that
triggered it holds it too. -/
def Sluice.heldTags (x : Sluice) : Nat := (x.tags.filter (fun e => !e.2.engine)).length + x.jobs.length
def Sluice.engineTags (x : Sluice) : Nat := (x.tags.filter (fun e => e.2.engine)).length + x.rekeys.length
/-- Tags that nothing holds (08 R235). -/
def Sluice.freeTags (x : Sluice) : Nat := sluTags - (x.tags.length + x.rekeys.length)
/-- The audit of 08 R235: free + held by requests + held by the engine = 1,024 but for the tags that a triggering write and the engine
share, each tag once and each job with its own. -/
def Sluice.tagsOk (x : Sluice) : Bool :=
  decide (x.freeTags + x.heldTags + x.engineTags = sluTags + x.jobs.length) && decide ((x.tags.map (·.1)).Nodup) && x.tags.all (fun e => decide (e.1 < sluTags)) &&
    decide ((x.tags.filter (fun e => e.2.engine)).length = x.jobs.length) &&
    x.jobs.all (fun j => x.tags.any (fun e => e.1 == j.tag && e.2.engine))

/-- A group under re-encryption, or below a node under re-key (08 R221, R227, R233). -/
def Sluice.busy (x : Sluice) (group : Nat) : Bool :=
  x.jobs.any (fun j => j.group == group) || x.rekeys.any (fun r => decide (group / 64 ^ r.1 = r.2 ∨ 4 ≤ r.1))
/-- An access to a line is not complete: a later one waits for it (08 R225). -/
def Sluice.held (x : Sluice) (line : Nat) : Bool :=
  x.tags.any (fun e => !e.2.engine && e.2.line == line) || x.waiting.any (fun q => q.line == line)

/-! ### What the stack holds (08 R214, R216, R217, R223) -/

/-- Byte address of a line's MAC in the MAC region of its stack (08 R214). -/
def macAt (line : Nat) : Nat := 8 * line
/-- The ciphertext and MAC of a line: in the write buffer, else in the stack; none where the line is as the last group rewrite
left it. -/
def Sluice.stored (x : Sluice) (line : Nat) : Option WbLine :=
  match x.wbuf.find? (fun w => w.line == line) with
  | some w => some w
  | none => match keyGet line x.stackData, keyGet (macAt line) x.stackMac with
    | some c, some m => some { line, cipher := c, mac := m }
    | _, _ => none
/-- A line and its MAC written to the stack (08 R225). -/
def Sluice.putStack (x : Sluice) (w : WbLine) : Sluice :=
  { x with stackData := keyPut w.line w.cipher x.stackData, stackMac := keyPut (macAt w.line) w.mac x.stackMac }
/-- The line's MAC matches under a group's counters (08 R217, R223). -/
def Sluice.verifiesAt (x : Sluice) (sl line : Nat) (n : Node) : Bool := match x.stored line with
  | none => true
  | some w => w.mac == gmac x.km.key (lineCtx 1 sl line (n.minor (line % 64)) n.major) w.cipher
/-- The line's MAC matches under its counter. -/
def Sluice.verifies (x : Sluice) (sl line : Nat) : Bool := x.verifiesAt sl line (x.node 0 (line / 64))
/-- What the line decrypts to under its counter (08 R216). -/
def Sluice.plain (x : Sluice) (sl line : Nat) : List Byte :=
  let n := x.node 0 (line / 64)
  match x.stored line with
  | none => List.replicate 128 0
  | some w => xtsDec x.k1.key x.k2.key (lineCtx 0 sl line (n.minor (line % 64)) n.major) w.cipher

/-! ### Poison table (08 R230, R231) -/

/-- An entry covers a line. -/
def Poison.covers (p : Poison) (line : Nat) : Bool :=
  if p.subtree then decide (line / 64 / 64 ^ p.level = p.index) else decide (p.index = line)
/-- The entry that makes a line poisoned. -/
def Sluice.bad (x : Sluice) (line : Nat) : Option Poison := x.poison.find? (·.covers line)
/-- A subtree entry covers a line: every write there is refused (08 R231). -/
def Sluice.lost (x : Sluice) (line : Nat) : Bool := x.poison.any (fun p => p.subtree && p.covers line)
/-- Line entries of a line or group cleared (08 R231). -/
def Sluice.clearLine (x : Sluice) (line : Nat) : Sluice :=
  { x with poison := x.poison.filter (fun p => p.subtree || p.index != line) }
def Sluice.clearGroup (x : Sluice) (group : Nat) : Sluice :=
  { x with poison := x.poison.filter (fun p => p.subtree || p.index / 64 != group) }
/-- Entries of a poison table. -/
def poisonSize : Nat := 256

/-- A record of sluice sl about a line or node (17 R457). -/
def State.sluReport (s : State) (sl status sev part loc0 loc1 : Nat) (cause : Option Nat := none) : State :=
  s.report { Rec.mk' status sev Blk.slu sl part loc0 loc1 with causeRid := cause }

/-- Granules of 64 KiB a section window holds (07 R186, R189). -/
def winGranules : Nat := 121241 * 32
/-- A block put into a list kept in ascending base order. -/
def insertBlock (b : Block) : List Block → List Block
  | [] => [b]
  | x :: r => if b.base < x.base then b :: x :: r else x :: insertBlock b r

/-- A poison entry made, with its record; where the table is full the entry is not made and a Device-fatal POISON_FULL record
is raised (08 R230). The granules under a subtree entry stay a live block of no partition (08 R231), beside the blocks of tenants that
they lie in until those are freed. -/
def State.addPoison (s : State) (sl : Nat) (subtree : Bool) (level index status part : Nat)
    (sev : Nat) : State :=
  let x := s.slu sl
  if poisonSize ≤ x.poison.length then
    s.sluReport sl Status.poisonFull Sev.devFatal part index (level + 4 * b2n subtree)
  else
    let rid := s.ras.nextRid
    let x := { x with poison := x.poison ++ [⟨subtree, level, index, rid⟩] }
    let x := if subtree then { x with treeLost := satAdd 8 x.treeLost 1 } else
      if status = Status.lineEcc then { x with linePoi := satAdd 8 x.linePoi 1 } else x
    let s := (s.setSlu sl x).sluReport sl status sev part index (level + 4 * b2n subtree)
    if subtree then
      let c := s.sec (sl / 2)
      let b : Block := { base := index * 64 ^ level / 4, n := max 1 (64 ^ level / 4), role := .retired, ctx := none }
      s.setSec (sl / 2) { c with live := insertBlock b c.live }
    else s

/-! ### Classes of lines and failed checks (08 R230) -/

/-- The partition a sluice's section belongs to, 0xFF for none. -/
def State.sluOwner (s : State) (sl : Nat) : Nat := (s.secPart (sl / 2)).getD 0xFF

/-- What a line of a stack holds (08 R230): a partition's window, a catchment slot, or the device-reserved region. -/
inductive LineClass where
  | window | catchment (slot : Nat) | reserved
  deriving DecidableEq, Repr
/-- The class of a line (07 R186). -/
def State.lineClass (s : State) (sl line : Nat) : LineClass :=
  let g := lineOff sl line / 65536
  let c := (s.sec (sl / 2)).catchC * 32
  if winGranules ≤ g then .reserved else if winGranules - c ≤ g then .catchment (g - (winGranules - c)) else .window
/-- A failed catchment line: its slot is retired (08 R230). A retired slot stays pinned and holds no page; the reader looks the page
up again and is served as a bypass miss (07 R199). -/
def State.retireSlot (s : State) (sl slot : Nat) : State :=
  let c := s.sec (sl / 2)
  let e : CSlot := { part := 0, dva := 0, valid := false, filling := false, pinned := true, age := 0, hit := false }
  s.setSec (sl / 2) { c with catchment := keyPut slot e c.catchment }

/-- A request's outcome is left for its requester. -/
def State.release (s : State) (sl : Nat) (q : TagReq) (status : Nat) (b : List Byte) : State :=
  let x := s.slu sl
  s.setSlu sl { x with released := x.released ++ [⟨q, status, b⟩] }
/-- A request writes less than a whole line. -/
def TagReq.isPartial (q : TagReq) : Bool := q.write && decide (q.data.length < 128)
/-- A partial write counted in SLU_MAINT.PARTIAL, whatever its status (08 R226). -/
def Sluice.notePartial (x : Sluice) (b : Bool) : Sluice := if b then { x with partialW := satAdd 22 x.partialW 1 } else x
/-- A request that the sluice took up ends. -/
def State.endReq (s : State) (sl : Nat) (q : TagReq) (status : Nat) (b : List Byte) : State :=
  (s.setSlu sl ((s.slu sl).notePartial q.isPartial)).release sl q status b
/-- The outcomes of failed reads of the lines that `p` names are past: the lines have been written anew. -/
def Sluice.forget (x : Sluice) (p : Nat → Bool) : Sluice :=
  { x with released := x.released.filter (fun r => r.status == Status.ok || !p r.req.line) }

/-- A group lies beneath a node (08 R231). -/
def beneath (level idx group : Nat) : Bool := decide (group / 64 ^ level = idx)
/-- The class of the loss of a node, by the worst that lies beneath it (08 R230): lines of the device-reserved region, of a window, or
of the catchment alone. -/
def State.lossSev (s : State) (sl level idx : Nat) : Nat :=
  let first := idx * 64 ^ (level + 1) / 256
  let last := ((idx + 1) * 64 ^ (level + 1) - 1) / 256
  if winGranules ≤ last then Sev.devFatal
  else if first < winGranules - (s.sec (sl / 2)).catchC * 32 then Sev.deferred
  else Sev.corrected
/-- A node is lost: its subtree is entered in the poison table and leaves the cache, and the re-encryptions and re-keys beneath it
stop, the write that triggered one completing with POISONED (08 R230, R233). -/
def State.nodeLost (s : State) (sl level idx : Nat) : State :=
  let s := s.addPoison sl true level idx Status.treeLost (s.sluOwner sl) (s.lossSev sl level idx)
  let x := s.slu sl
  let dead := x.jobs.filter (fun j => beneath level idx j.group)
  let under (l i : Nat) : Bool := decide (l ≤ level ∧ i / 64 ^ (level - l) = idx)
  s.setSlu sl { x with
    jobs := x.jobs.filter (fun j => !beneath level idx j.group)
    tags := x.tags.filter (fun e => !dead.any (fun j => j.tag == e.1))
    rekeys := x.rekeys.filter (fun r => !under r.1 r.2)
    cache := x.cache.filter (fun e => !under (e.1 / 2 ^ 32) (e.1 % 2 ^ 32))
    released := x.released ++ (dead.filterMap (·.holder)).map (fun q => ⟨q, Status.poisoned, []⟩) }

/-- What fails in a read of a line (08 R230). -/
inductive LineFault where
  | ecc
  | mac
  | tree (level index : Nat)
  | poisoned (p : Poison)
  deriving DecidableEq, Repr
/-- Record status of a failure (08 R230). -/
def LineFault.status : LineFault → Nat
  | .ecc => Status.lineEcc
  | .mac => Status.integrity
  | .tree _ _ => Status.treeLost
  | .poisoned _ => Status.poisoned

/-- The record of a read of a poisoned line, which names the record that reported the failure (00 R21). -/
def State.poisonRead (s : State) (sl line part rid : Nat) (sev : Nat := Sev.partFatal) : State :=
  s.sluReport sl Status.poisoned sev part line 0 (some rid)
/-- A read of a line fails, by the table of 08 R230: the state after it and what the requester receives. A catchment line retires
its slot with a Corrected record and OK; a lost node above one still enters its subtree, which 08 R231 asks of its counters, with the
class of what lies beneath it (assumption 100). Any failure on a line of the device-reserved region is Device-fatal. Where the poison
table is full the one record is POISON_FULL. -/
def State.lineFault (s : State) (sl line part : Nat) (f : LineFault) : State × Nat :=
  match s.lineClass sl line with
  | .catchment k =>
    let s := s.retireSlot sl k
    match f with
    | .tree l i => (s.nodeLost sl l i, Status.ok)
    | .mac =>
      let x := s.slu sl
      ((s.setSlu sl { x with integ := satAdd 8 x.integ 1 }).sluReport sl Status.integrity Sev.corrected (s.sluOwner sl) line 0, Status.ok)
    | f => (s.sluReport sl f.status Sev.corrected (s.sluOwner sl) line 0, Status.ok)
  | cls =>
    let reserved := decide (cls = .reserved)
    let rid := s.ras.nextRid
    let full := decide (poisonSize ≤ (s.slu sl).poison.length)
    let sev := if reserved then Sev.devFatal else Sev.deferred
    match f with
    | .poisoned p => (s.poisonRead sl line part p.rid (if reserved then Sev.devFatal else Sev.partFatal), Status.poisoned)
    | .mac =>
      let x := s.slu sl
      ((s.setSlu sl { x with integ := satAdd 8 x.integ 1 }).sluReport sl Status.integrity
        (if reserved then Sev.devFatal else Sev.partFatal) (s.sluOwner sl) line 0, Status.integrity)
    | .ecc =>
      let t := s.addPoison sl false 0 line Status.lineEcc (s.sluOwner sl) sev
      (if full || reserved then t else t.poisonRead sl line part rid, Status.poisoned)
    | .tree l i =>
      let t := s.nodeLost sl l i
      (if full || reserved then t else t.poisonRead sl line part rid, Status.poisoned)

/-- One copy of a counter block or node was bad: it is rewritten from the other, with a Corrected record (08 R230). -/
def State.copyRepaired (s : State) (sl level idx : Nat) : State :=
  let x := s.slu sl
  (s.setSlu sl { x with repair := satAdd 8 x.repair 1 }).sluReport sl Status.copyRepaired Sev.corrected (s.sluOwner sl) idx level
/-- The counter blocks and nodes, from level `lo` up, that a lookup of a group would fetch and of which some copy fails its MAC. -/
def Sluice.suspects (x : Sluice) (sl group : Nat) (lo : Nat := 0) : List (Nat × Bool × Bool) :=
  ((List.range 4).filter (fun l => decide (lo ≤ l))).filterMap (fun l =>
    let i := group / 64 ^ l
    let a := x.copyOk sl l i (keyGet (nodeKey l i) x.prim)
    let b := x.copyOk sl l i (keyGet (nodeKey l i) x.mirr)
    if x.cached l i || (a && b) then none else some (l, a, b))
/-- The copies that a lookup of a group fetches are verified (08 R220, R230): a bad one is repaired from its twin; the second part
names a node of which both fail. -/
def State.checkChain (s : State) (sl group : Nat) (lo : Nat := 0) : State × Option (Nat × Nat) :=
  let l := (s.slu sl).suspects sl group lo
  match l.find? (fun e => !e.2.1 && !e.2.2) with
  | some (k, _) => (s, some (k, group / 64 ^ k))
  | none => (l.foldl (fun s e =>
      let x := s.slu sl
      let key := nodeKey e.1 (group / 64 ^ e.1)
      let good := if e.2.1 then keyGet key x.prim else keyGet key x.mirr
      let x := match good with
        | some c => { x with prim := keyPut key c x.prim, mirr := keyPut key c x.mirr }
        | none => { x with prim := x.prim.filter (fun y => y.1 != key), mirr := x.mirr.filter (fun y => y.1 != key) }
      (s.setSlu sl x).copyRepaired sl e.1 (group / 64 ^ e.1)) s, none)

/-! ### Lines as requesters see them -/

/-- What a line access gives: the status, or that it waits. -/
inductive LineRes where
  | wait
  | done (status : Nat)
  deriving DecidableEq, Repr

/-- A granule of the section waits for its scrub (07 R191). -/
def Sec.scrubbing (c : Sec) (off : Nat) : Bool := c.scrub.any (fun r => decide (r.1 ≤ off / 65536 ∧ off / 65536 < r.1 + r.2))

/-- The failure that a commanded access of the same requester class and partition to a line left at the sluice, and the rest: what
the bursts of that access brought is what the requester receives (assumption 26). -/
def takeReleased (cls : ReqClass) (part line : Nat) (write : Bool) : List Released → Option (Nat × List Released)
  | [] => none
  | x :: r =>
    if x.req.line = line ∧ x.req.cls = cls ∧ x.req.part = part ∧ x.req.write = write ∧ x.status ≠ Status.ok then some (x.status, r)
    else match takeReleased cls part line write r with
    | some (st, r') => some (st, x :: r')
    | none => none

/-- A sluice serves its section's partition, and at a Pooled sluice the catchment reads of other Pooled partitions (08 R213). -/
def State.serves (s : State) (sl line part : Nat) (write : Bool) : Bool :=
  match s.secPart (sl / 2) with
  | none => false
  | some o => o == part || (!write && (s.part o).pooled && (s.part part).pooled && (match s.lineClass sl line with
    | .catchment _ => true
    | _ => false))

/-- What every access to a line meets first: a sluice not ready (08 R236), a section that is another's or an epoch that has
advanced (08 R234), a stopped sluice (08 R230); then what it waits for: a busy group (08 R227), a pending scrub (07 R191), an earlier
access to the line (08 R225), room in the cache. -/
def State.lineGate (s : State) (write : Bool) (part sec off : Nat) : Option LineRes :=
  let x := s.slu (stackOf sec off)
  if !x.ready then some (.done Status.state)
  else if (s.part part).epochDone ∨ s.serves (stackOf sec off) (lineIdx off) part write = false then some (.done Status.revoked)
  else if x.stopped then some (.done Status.poisoned)
  else if x.busy (lineIdx off / 64) || (s.sec sec).scrubbing off || x.held (lineIdx off) || x.stuck then some .wait
  else none

/-- One requester's read of the line at a window offset (08 R223, R230, R231): the counter chain is verified, the line's MAC is
checked, and the state after it and what it gives are answered. The failure of a commanded read of the line is taken where there is
one (assumption 26). -/
def State.readLine (s : State) (cls : ReqClass) (part sec off : Nat) : State × LineRes :=
  match s.lineGate false part sec off with
  | some r => (s, r)
  | none =>
    let sl := stackOf sec off
    let line := lineIdx off
    match takeReleased cls part line false (s.slu sl).released with
    | some (st, rest) => (s.setSlu sl { s.slu sl with released := rest }, .done st)
    | none =>
      match s.checkChain sl (line / 64) with
      | (t, some (l, i)) => let (u, st) := t.lineFault sl line part (.tree l i); (u, .done st)
      | (t, none) =>
        let x := ((t.slu sl).look sl line).noteClass cls line
        match x.bad line with
        | some p => let (u, st) := (t.setSlu sl x).lineFault sl line part (.poisoned p); (u, .done st)
        | none =>
          if x.verifies sl line then (t.setSlu sl x, .done Status.ok)
          else let (u, st) := (t.setSlu sl x).lineFault sl line part .mac; (u, .done st)

/-- The line and MAC enter the write buffer, the oldest line draining to the stack where 256 are there (08 R225). -/
def Sluice.putBuf (x : Sluice) (w : WbLine) : Sluice :=
  let b := x.wbuf.filter (fun y => y.line ≠ w.line)
  if b.length < 256 then { x with wbuf := b ++ [w] } else
  match b with
  | [] => { x with wbuf := [w] }
  | y :: r => { x.putStack y with wbuf := r ++ [w] }

/-- A group's counters move to MAJOR + 1 with every MINOR 0 and the engine takes the job with one tag (08 R227, R235); the lines
stay under the old counters until each is rewritten. -/
def Sluice.startJob (x : Sluice) (group tag part now : Nat) (cls : ReqClass) (whole : Option Nat) : Sluice :=
  let n := x.node 0 group
  let req : TagReq := { write := true, line := group * 64, part, epoch := 0, off := 0, data := [], engine := true, cls, since := now }
  let job : Job := { group, old := n, next := 0, tag, whole, holder := none }
  (({ x with jobs := x.jobs ++ [job], reenc := satAdd 16 x.reenc 1, tags := keyPut tag req x.tags }.clearGroup group).setNode
    0 group n.next).setCache 0 group true

/-- The contents of a line as 16 fresh words: 08 R231 lets a re-encryption clear a line entry and does not say what the line then
holds (assumption 85). -/
def State.freeLine (s : State) (sec off : Nat) : State :=
  { s.setRes sec off ((List.range 16).flatMap (fun i => leBytes 8 (Config.freeValue (s.free + i)).toNat)) with free := s.free + 16 }

/-- The re-encryption of a group as a write begins it, its data in place of its line (08 R227, R231). -/
def State.reencrypt (s : State) (cls : ReqClass) (sl line tag part off : Nat) (data : List Byte) : State :=
  let group := line / 64
  let poisoned := ((s.slu sl).poison.filter (fun p => !p.subtree && p.index / 64 == group)).map (·.index)
  let s := poisoned.foldl (fun s l => s.freeLine (sl / 2) (lineOff sl l)) s
  let s := s.setRes (sl / 2) off data
  s.setSlu sl ((s.slu sl).startJob group tag part s.tim.up cls (if data.length < 128 then none else some (line % 64)))

/-- MAJOR cannot go past 2^64 - 1 (08 R229). -/
def majorMax : Nat := 2 ^ 64 - 1

/-- A group has no counter left: every write of it gives COUNTER_END from now on (08 R229). -/
def State.counterEnd (s : State) (sl group part line : Nat) : State :=
  let x := s.slu sl
  (s.setSlu sl { x with ended := x.ended ++ [group] }).sluReport sl Status.counterEnd Sev.devFatal part line 0

/-- A write of bytes within the line at a window offset, which nothing makes wait (08 R225-R229, R231): a partial write reads,
verifies and merges; MINOR increments, or the group is re-encrypted where it is at 63. A line entry of the poison table is cleared
by a full-line write, and refuses a partial one: no byte of the line is given to anyone, so the refusal is no consumption in the sense of
00 R21 (assumption 119). A catchment line beneath a lost node retires its slot (08 R230). It waits where the engine or its tags are all
in hand. -/
def State.commitLine (s : State) (cls : ReqClass) (part sec off : Nat) (data : List Byte) : State × LineRes :=
  let sl := stackOf sec off
  let line := lineIdx off
  let partial_ := decide (data.length < 128)
  match s.checkChain sl (line / 64) with
  | (t, some (l, i)) =>
    if partial_ then let (u, st) := t.lineFault sl line part (.tree l i); (u, .done st)
    else (match t.lineClass sl line with
      | .catchment k => (t.retireSlot sl k).nodeLost sl l i
      | _ => t.nodeLost sl l i, .done Status.poisoned)
  | (t, none) =>
    let x := (t.slu sl).look sl line
    let n := x.node 0 (line / 64)
    if x.lost line || (partial_ && (x.bad line).isSome) then (t.setSlu sl x, .done Status.poisoned)
    else if partial_ && !x.verifies sl line then
      let (u, st) := (t.setSlu sl x).lineFault sl line part .mac
      (u, .done st)
    else if x.ended.contains (line / 64) then (t.setSlu sl x, .done Status.counterEnd)
    else if 63 ≤ n.minor (line % 64) then
      if majorMax ≤ n.major then ((t.setSlu sl x).counterEnd sl (line / 64) part line, .done Status.counterEnd)
      else if x.full then (s, .wait)
      else match x.freeTag with
        | none => (s, .wait)
        | some tag => ((t.setSlu sl (x.clearLine line)).reencrypt cls sl line tag part off data, .done Status.ok)
    else
      let n' := n.bump (line % 64)
      let x := (((x.clearLine line).forget (· == line)).setNode 0 (line / 64) n').setCache 0 (line / 64) true
      let t := (t.setSlu sl x).setRes sec off data
      let whole := t.resBytes sec (off / 128 * 128) 128
      (t.setSlu sl (x.putBuf (x.seal sl line (n'.minor (line % 64)) n'.major whole)), .done Status.ok)

/-- One requester's write of bytes within the line at a window offset (08 R225). A partial write reads the line, so it takes the
failure of a commanded partial write of it where there is one (08 R226; assumption 26). -/
def State.writeLine (s : State) (cls : ReqClass) (part sec off : Nat) (data : List Byte) : State × LineRes :=
  match s.lineGate true part sec off with
  | some r => (s, r)
  | none =>
    let sl := stackOf sec off
    let line := lineIdx off
    let p := decide (data.length < 128)
    match (if p then takeReleased cls part line true (s.slu sl).released else none) with
    | some (st, rest) => (s.setSlu sl { s.slu sl with released := rest }, .done st)
    | none => match s.commitLine cls part sec off data with
      | (t, .done st) => (t.setSlu sl (((t.slu sl).notePartial p).noteClass cls line), .done st)
      | (t, .wait) => (t, .wait)

/-- The byte range [off, off + n) of a window cut at line boundaries: (offset, bytes) pieces. -/
def linePieces : Nat → Nat → Nat → List (Nat × Nat)
  | 0, _, _ => []
  | f + 1, off, n => if n = 0 then [] else
    let m := min n (128 - off % 128)
    (off, m) :: linePieces f (off + m) (n - m)
/-- The pieces of a range. -/
def rangePieces (off n : Nat) : List (Nat × Nat) := linePieces (n / 128 + 2) off n

/-- Reads lines in order until one does not give OK (03 R87). -/
def State.readLines (s : State) (cls : ReqClass) (part sec : Nat) : List Nat → State × LineRes
  | [] => (s, .done Status.ok)
  | off :: r => match s.readLine cls part sec off with
    | (s', .done st) => if st = Status.ok then s'.readLines cls part sec r else (s', .done st)
    | (s', .wait) => (s', .wait)
/-- Writes pieces in order until one does not give OK (03 R93). -/
def State.writePieces (s : State) (cls : ReqClass) (part sec : Nat) : List (Nat × List Byte) → State × LineRes
  | [] => (s, .done Status.ok)
  | (off, b) :: r => match s.writeLine cls part sec off b with
    | (s', .done st) => if st = Status.ok then s'.writePieces cls part sec r else (s', .done st)
    | (s', .wait) => (s', .wait)

/-- A range of bytes cut into the pieces of each line. -/
def cutLines (off : Nat) (l : List Byte) : List (Nat × List Byte) :=
  (rangePieces off l.length).map (fun p => (p.1, slice l (p.1 - off) p.2))

/-- The lines of a group as a group rewrite leaves them: zeros under its counters, none listed (08 R228). -/
def Sluice.zeroGroup (x : Sluice) (group : Nat) : Sluice :=
  { x with
    wbuf := x.wbuf.filter (fun w => w.line / 64 != group)
    stackData := x.stackData.filter (fun e => e.1 / 64 != group)
    stackMac := x.stackMac.filter (fun e => e.1 / 8 / 64 != group) }
/-- A group rewritten as zero lines under MAJOR + 1 (08 R228): refused at a stopped sluice (08 R230) and beneath a lost subtree (08
R231), COUNTER_END past the last MAJOR (08 R229). -/
def State.rewriteGroup (s : State) (sl group : Nat) : State × Nat :=
  if (s.slu sl).stopped then (s, Status.poisoned) else
  match s.checkChain sl group with
  | (t, some (l, i)) => (t.nodeLost sl l i, Status.poisoned)
  | (t, none) =>
    let x := ((t.slu sl).look sl (group * 64)).noteClass .scrub (group * 64)
    let n := x.node 0 group
    if x.lost (group * 64) then (t.setSlu sl x, Status.poisoned)
    else if x.ended.contains group then (t.setSlu sl x, Status.counterEnd)
    else if majorMax ≤ n.major then ((t.setSlu sl x).counterEnd sl group 0xFF (group * 64), Status.counterEnd)
    else
      let x := ((((x.clearGroup group).forget (fun l => l / 64 == group)).setNode 0 group n.next).setCache 0 group true).zeroGroup group
      ((t.setSlu sl x).zeroRes (sl / 2) (lineOff sl (group * 64)) 8192, Status.ok)

/-- Groups from g on rewritten. -/
def State.rewriteGroups (s : State) (sl g : Nat) : Nat → State
  | 0 => s
  | n + 1 => (s.rewriteGroup sl g).1.rewriteGroups sl (g + 1) n
/-- The granules [a, a + n) of a section rewritten: four groups of each of its two stacks for each granule (07 R191, 08 R234). -/
def State.scrubGranules (s : State) (sec a n : Nat) : State :=
  ((s.rewriteGroups (2 * sec) (4 * a) (4 * n)).rewriteGroups (2 * sec + 1) (4 * a) (4 * n))
/-- A group of [a, a + n) is under re-encryption, or beneath a node under re-key (08 R233). -/
def Sluice.busyIn (x : Sluice) (a n : Nat) : Bool :=
  x.jobs.any (fun j => decide (a ≤ j.group ∧ j.group < a + n)) ||
    x.rekeys.any (fun r => decide (4 ≤ r.1 ∨ (a < (r.2 + 1) * 64 ^ r.1 ∧ r.2 * 64 ^ r.1 < a + n)))

/-! ### The sluice's own commands -/

/-- The sluice admits a request: its partition may use the sluice, and its epoch is the current one of its tenancy (08 R213,
R234). -/
def State.sluAdmits (s : State) (sl line part epoch : Nat) (write : Bool) : Bool :=
  s.serves sl line part write && !(s.part part).epochDone && decide ((sget (false, 0) s.hwk.epochs (s.part part).cid).2 = epoch)

/-- The request with a tag ends. -/
def State.dropTag (s : State) (sl tag : Nat) : State :=
  let x := s.slu sl
  s.setSlu sl { x with tags := x.tags.filter (fun e => e.1 != tag) }
/-- An access joins those that wait, in the order of their arrival at the model (08 R225, R227; assumption 138). -/
def State.park (s : State) (sl : Nat) (q : TagReq) : State :=
  let x := s.slu sl
  s.setSlu sl { x with waiting := x.waiting ++ [q] }
/-- A request takes a tag. -/
def State.takeTag (s : State) (sl tag : Nat) (q : TagReq) : State :=
  let x := s.slu sl
  s.setSlu sl { x with tags := keyPut tag { q with since := s.tim.up } x.tags }

/-- A write commits; where it starts a re-encryption it completes with it, and until then its tag and the engine's are one (08 R225,
R227, R235). -/
def State.commitReq (s : State) (sl : Nat) (q : TagReq) : State :=
  match s.commitLine q.cls q.part (sl / 2) (lineOff sl q.line + q.off) q.data with
  | (_, .wait) => s.park sl q
  | (t, .done st) =>
    let x := t.slu sl
    if st = Status.ok ∧ x.busy (q.line / 64) = true ∧ (s.slu sl).busy (q.line / 64) = false then
      t.setSlu sl ({ x with jobs := x.jobs.map (fun (j : Job) => if j.group = q.line / 64 then { j with holder := some q } else j) }.notePartial
        q.isPartial)
    else t.endReq sl q st []

/-- What a request that a sluice takes up waits for: a group in the engine's hands, a pending scrub of its granule unless the STU
checked it before the FREE (07 R191, R192), an earlier access of the line (08 R225), room in the cache. -/
def State.reqWaits (s : State) (sl : Nat) (q : TagReq) : Bool :=
  let x := s.slu sl
  x.busy (q.line / 64) || ((s.sec (sl / 2)).scrubbing (lineOff sl q.line) && !q.past) || x.held q.line || x.stuck
/-- A request reaches the sluice (08 R223, R225, R226): STATE before READY (08 R236), REVOKED for a stale epoch or another's section
(08 R234), POISONED at a stopped sluice; it waits for its group, its scrub or an earlier access of its line; then a read or a
partial write takes a tag and its bursts are issued, and a full-line write commits. -/
def State.serve (s : State) (sl : Nat) (q : TagReq) : State :=
  let x := s.slu sl
  if !x.ready then s.release sl q Status.state []
  else if !s.sluAdmits sl q.line q.part q.epoch q.write then s.release sl q Status.revoked []
  else if x.stopped then s.release sl q Status.poisoned []
  else if s.reqWaits sl q then s.park sl q
  else
    let s := s.setSlu sl (x.noteClass q.cls q.line)
    if q.write && decide (128 ≤ q.data.length) then s.commitReq sl q
    else match x.bad q.line with
      | some p =>
        if q.write then s.endReq sl q Status.poisoned []
        else let (t, st) := s.lineFault sl q.line q.part (.poisoned p); t.endReq sl q st []
      | none => match x.freeTag with
        | none => s.park sl q
        | some tag => s.takeTag sl tag q

/-- Every rewrite and access that waits at a sluice, in order of arrival (08 R227, R233). -/
def State.runAllWaiting (s : State) (sl : Nat) : State :=
  let x := s.slu sl
  let s := x.rewriteDue.foldl (fun s g =>
    if (s.slu sl).busy g then let y := s.slu sl; s.setSlu sl { y with rewriteDue := y.rewriteDue ++ [g] }
    else (s.rewriteGroup sl g).1) (s.setSlu sl { x with waiting := [], rewriteDue := [] })
  x.waiting.foldl (fun s q => s.serve sl q) s
/-- The accesses of a partition that wait at its sluices complete with REVOKED (08 R234). -/
def State.revokeWaiting (s : State) (p : Nat) : State :=
  (List.range 20).foldl (fun s sl =>
    let x := s.slu sl
    s.setSlu sl { x with
      waiting := x.waiting.filter (fun q => q.part != p)
      released := x.released ++ (x.waiting.filter (fun q => q.part == p)).map (fun q => ⟨q, Status.revoked, []⟩) }) s

/-- SLUICE_READ (08 R223, R225, R230, R231, R234, R236). -/
def execSluiceRead (sl line part epoch : Nat) (cls : ReqClass) (s : State) : Out :=
  onSlu sl <| s.serve sl { write := false, line, part, epoch, off := 0, data := [], engine := false, cls, since := s.tim.up }

/-! ### The re-encryption engine (08 R227, R233) -/

/-- The line that a job has come to is read under the old counters and written back under MAJOR + 1 with MINOR 0. A line that could
not be read is written as zeros with a line entry; the line that the triggering write replaces whole needs no read (08 R233;
assumption 101). The failure is reported as 08 R230 gives it for the line's class. -/
def State.jobLine (s : State) (sl : Nat) (j : Job) (f : Option LineFault) : State :=
  let line := j.group * 64 + j.next
  let x := s.slu sl
  let f := if j.whole = some j.next then none else match f with
    | some f => some f
    | none => if x.verifiesAt sl line j.old then none else some .mac
  let s := if f.isSome then s.zeroRes (sl / 2) (lineOff sl line) 128 else s
  let w := x.seal sl line 0 (j.old.major + 1) (s.resBytes (sl / 2) (lineOff sl line) 128)
  let x := Sluice.putStack { x with wbuf := x.wbuf.filter (fun y => y.line != line) } w
  let x := { x with
    jobs := x.jobs.map (fun k => if k.tag = j.tag then { k with next := j.next + 1 } else k)
    tags := x.tags.map (fun e => if e.1 = j.tag then (e.1, { e.2 with line := j.group * 64 + min 63 (j.next + 1) }) else e) }
  let s := s.setSlu sl x
  match f with
  | none => s
  | some f =>
    let rid := s.ras.nextRid
    let own := s.sluOwner sl
    if poisonSize ≤ x.poison.length then s.sluReport sl Status.poisonFull Sev.devFatal own line 0 else
    let x : Sluice := { x with poison := x.poison ++ [⟨false, 0, line, rid⟩] }
    let mac := decide (f = .mac)
    let x : Sluice := if mac then { x with integ := satAdd 8 x.integ 1 } else { x with linePoi := satAdd 8 x.linePoi 1 }
    let s := s.setSlu sl x
    match s.lineClass sl line with
    | .catchment k => (s.retireSlot sl k).sluReport sl f.status Sev.corrected own line 0
    | .reserved => s.sluReport sl f.status Sev.devFatal own line 0
    | .window => s.sluReport sl f.status (if mac then Sev.partFatal else Sev.deferred) own line 0

/-- The lines that a job has still to rewrite, n at most. -/
def State.jobRest (s : State) (sl tag : Nat) : Nat → State
  | 0 => s
  | n + 1 => match (s.slu sl).jobs.find? (fun j => j.tag == tag) with
    | some j => if j.next < 64 then (s.jobLine sl j none).jobRest sl tag n else s
    | none => s

/-- A request whose bursts are in (08 R223, R226): the counters that it fetched are verified with their copies, the MAC of the line is
checked and the line decrypted, or a partial write goes on to its commit. A failure is that of 08 R230. -/
def State.readReq (s : State) (sl : Nat) (q : TagReq) (f : Option LineFault) : State :=
  let (t, chain) := s.checkChain sl (q.line / 64)
  let f : Option LineFault := match f, (s.slu sl).bad q.line, chain with
    | some f, _, _ => some f
    | none, some p, _ => some (.poisoned p)
    | none, none, some (l, i) => some (.tree l i)
    | none, none, none => if (t.slu sl).verifies sl q.line then none else some .mac
  match f with
  | some f => let (u, st) := t.lineFault sl q.line q.part f; u.endReq sl q st []
  | none =>
    if q.write then t.commitReq sl q
    else (t.setSlu sl ((t.slu sl).look sl q.line)).endReq sl q Status.ok ((t.slu sl).plain sl q.line)

/-- STACK_BURST_ARRIVAL: what the bursts of a tag brought, by the table of 08 R230; for a tag of the re-encryption engine, by
08 R233. The requester's tag is returned, and the accesses that waited go on; data returning for a stale epoch is discarded with
REVOKED (08 R234). A request of a group that the engine has taken meanwhile runs under the new counters (08 R227), and a sluice that an
error of its root has stopped gives POISONED (08 R230). -/
def execStackBurstArrival (sl tag : Nat) (b : Burst) (s : State) : Out :=
  onSlu sl <|
    let x := s.slu sl
    match keyGet tag x.tags with
    | none => s
    | some q =>
      let seen : State := match b with
        | .eccCorrected => s.setSlu sl { x with eccC := satAdd 16 x.eccC 1 }
        | .copyBad l i => s.copyRepaired sl l i
        | .rootFault => (s.setSlu sl { x with stopped := true }).sluReport sl Status.rootFault Sev.devFatal (s.sluOwner sl) q.line 0
        | _ => s
      let fault : Option LineFault := match b with
        | .lineEcc => some .ecc
        | .macMismatch => some .mac
        | .bothBad l i => some (.tree l i)
        | _ => none
      if q.engine then
        match x.jobs.find? (fun j => j.tag == tag), fault with
        | none, _ => s
        | some _, some (.tree l i) => if x.stopped then s else (s.nodeLost sl l i).runAllWaiting sl
        | some j, f => if (seen.slu sl).stopped ∨ 64 ≤ j.next then seen else seen.jobLine sl j f
      else if !s.sluAdmits sl q.line q.part q.epoch q.write then
        ((s.dropTag sl tag).release sl q Status.revoked []).runAllWaiting sl
      else
        let t := seen.dropTag sl tag
        (if (t.slu sl).stopped then t.endReq sl q Status.poisoned []
         else if (t.slu sl).busy (q.line / 64) && fault.isNone then t.park sl q
         else t.readReq sl q fault).runAllWaiting sl

/-- SLUICE_WRITE: bytes of one line from `off` within it: a full line commits into the write buffer, a partial write reads the line
first (08 R225, R226, R229, R231); STATE before READY, REVOKED for a stale epoch (08 R234, R236). The outcome is left for its
requester. -/
def execSluiceWrite (sl line part epoch off : Nat) (data : List Byte) (cls : ReqClass) (s : State) : Out :=
  onSlu sl <| s.serve sl { write := true, line, part, epoch, off := off % 128, data := data.take (128 - off % 128), engine := false,
                           cls, since := s.tim.up }

/-- GROUP_REENCRYPTION: a write that finds its line's MINOR at 63 starts the re-encryption of the group, its data taking the
place of the line (08 R227). Where 64 jobs are in hand it waits; a stale request completes with REVOKED (08 R234). A write whose MINOR
is below 63 starts none. -/
def execGroupReencryption (sl line part epoch off : Nat) (data : List Byte) (cls : ReqClass) (s : State) : Out :=
  onSlu sl <|
    if s.sluAdmits sl line part epoch true ∧ ((s.slu sl).node 0 (line / 64)).minor (line % 64) < 63 then s else
    s.serve sl { write := true, line, part, epoch, off := off % 128, data := data.take (128 - off % 128), engine := false,
                 cls, since := s.tim.up }

/-- REENCRYPTION_COMPLETE: the oldest group re-encryption in hand ends with its last line and the write that triggered it completes,
else the oldest re-key ends; the accesses that waited run under the new counters (08 R221, R227, R233). A stopped sluice ends none
(08 R230). -/
def execReencryptionComplete (sl : Nat) (s : State) : Out :=
  onSlu sl <|
    let x := s.slu sl
    if x.stopped then s else
    match x.jobs, x.rekeys with
    | j :: _, _ =>
      let s := s.jobRest sl j.tag 64
      let x := s.slu sl
      (s.setSlu sl { x with
        jobs := x.jobs.filter (fun k => k.tag != j.tag)
        tags := x.tags.filter (fun e => e.1 != j.tag)
        released := x.released ++ j.holder.toList.map (fun q => ⟨q, Status.ok, []⟩) }).runAllWaiting sl
    | [], _ :: r => (s.setSlu sl { x with rekeys := r }).runAllWaiting sl
    | [], [] => s

/-- METADATA_EVICTION (08 R220, R221) of a counter block or node of the tree: waits where it would re-key a parent while 64 jobs are in
hand. A parent that is missing from the cache is verified and fetched first; one of which both copies fail is lost, and the entry with
it. -/
def execMetadataEviction (sl level index : Nat) (s : State) : Out :=
  onSlu sl <|
    let x := s.slu sl
    if 4 ≤ level ∨ maxGroups ≤ index * 64 ^ level ∨ x.stopped ∨ x.cached level index = false ∨
        (63 ≤ (x.node (level + 1) (index / 64)).minor (index % 64) ∧ x.full) then s
    else match s.checkChain sl (index * 64 ^ level) (level + 1) with
      | (t, some (l, i)) => t.nodeLost sl l i
      | (t, none) => t.setSlu sl ((Sluice.fetch sl 4 (level + 1) (index / 64) (t.slu sl)).evict sl level index)

/-- COUNTER_PREFETCH: an access to line 0 of group g right after group g - 1 of the same requester class brings in the counter
blocks of groups g + 1 to g + 16 with the nodes they need, their copies verified (08 R220, R222). A group whose counters cannot be
verified is left to the access that demands it. -/
def execCounterPrefetch (sl group : Nat) (cls : ReqClass) (s : State) : Out :=
  onSlu sl <|
    let x := s.slu sl
    if sget 0 x.prefetchDue (classKey cls) ≠ group + 1 ∨ x.stopped then s else
    let s := s.setSlu sl { x with prefetchDue := sset 0 x.prefetchDue (classKey cls) 0 }
    (List.range 16).foldl (fun s i =>
      if maxGroups ≤ group + 1 + i ∨ (s.slu sl).stuck then s else
      match s.checkChain sl (group + 1 + i) with
      | (t, none) => t.setSlu sl (Sluice.fetch sl 4 0 (group + 1 + i) (t.slu sl))
      | (_, some _) => s) s

/-- WRITE_BUFFER_DRAIN: the oldest committed line and MAC go to the stack (08 R225). -/
def execWriteBufferDrain (sl : Nat) (s : State) : Out :=
  onSlu sl <|
    let x := s.slu sl
    match x.wbuf with
    | [] => s
    | y :: r => if x.stopped then s else s.setSlu sl { x.putStack y with wbuf := r }

/-- GROUP_REWRITE (08 R228, R229, R231). A group under re-encryption or re-key waits (08 R233). -/
def execGroupRewrite (sl group : Nat) (s : State) : Out :=
  onSlu sl <|
    if maxGroups ≤ group then s
    else if (s.slu sl).busy group then let x := s.slu sl; s.setSlu sl { x with rewriteDue := x.rewriteDue ++ [group] }
    else (s.rewriteGroup sl group).1

/-- SLUICE_TAG_TIMEOUT: a tag outstanding for 1 ms raises a Device-fatal TIMEOUT record (08 R235). -/
def execSluiceTagTimeout (sl tag : Nat) (s : State) : Out :=
  onSlu sl <|
    match keyGet tag (s.slu sl).tags with
    | none => s
    | some q =>
      if q.since + 1000000 ≤ s.tim.up then s.sluReport sl Status.timeout Sev.devFatal (s.sluOwner sl) q.line 0 else s

/-! ### Read eyes (07 R210, R211) -/

/-- The phase or reference step of a lane: one toward the side with fewer disagreements where they differ by more than 64. -/
def eyeStep (v width lo hi : Nat) : Nat × Nat :=
  if lo + 64 < hi then ((v + 2 ^ width - 1) % 2 ^ width, 1)
  else if hi + 64 < lo then ((v + 1) % 2 ^ width, 1) else (v, 0)

/-- Unset margins read as 16: no disagreement found in the sweep (07 R211). -/
def eyeMargin (e : Eye) (lane : Nat) : Nat := 16 - sget 0 e.margins lane
/-- The lane with the smallest margin, the lowest-numbered of several. -/
def eyeWorst (e : Eye) : Nat :=
  (List.range 64).foldl (fun b l => if eyeMargin e l < eyeMargin e b then l else b) 0
/-- Probe offset of a lane's window: 1 to 16 steps in successive windows (07 R211). -/
def eyeProbe (win : Nat) : Nat := win % 16 + 1
/-- A lane's margin and the candidate of its sweep after a window: a disagreement at a smaller offset than the margin lowers it at
once, and the end of a sweep records the smallest offset that disagreed in it, 16 where none did (07 R211; assumption 102). -/
def eyeSweep (margin cand win : Nat) (disagrees : Bool) : Nat × Nat :=
  let cand := if eyeProbe win = 1 then 16 else cand
  let cand := if disagrees then min cand (eyeProbe win) else cand
  (if eyeProbe win = 16 then cand else min margin cand, cand)

/-- READ_EYE_WINDOW: at the end of a window a lane moves its sampling phase, in alternate windows its reference voltage, by at
most one step; a margin that falls to 3 steps or fewer raises EYE_LOW (07 R210, R211). `lo` and `hi` are the disagreements on the two
sides. The record names the stack in INST, and channel and lane in DETAIL, since LOC0 of a sluice is a line or node (17 R457; assumption 53). -/
def execReadEyeWindow (sl ch lane lo hi : Nat) (s : State) : Out :=
  onSlu sl <|
    if 32 ≤ ch ∨ 64 ≤ lane then s else
    let x := s.slu sl
    let e := sget {} x.eyes ch
    let w := sget 0 e.wins lane
    let old := eyeMargin e lane
    let (m, c) := eyeSweep old (16 - sget 0 e.cands lane) w (decide (lo + hi ≠ 0))
    let odd := decide (w % 2 = 1)
    let (ph, a) := if odd then (sget 0 e.phases lane, 0) else eyeStep (sget 0 e.phases lane) 6 lo hi
    let (vr, b) := if odd then eyeStep (sget 0 e.vrefs lane) 7 lo hi else (sget 0 e.vrefs lane, 0)
    let e := { e with phases := sset 0 e.phases lane ph, vrefs := sset 0 e.vrefs lane vr, wins := sset 0 e.wins lane (w + 1),
                      margins := sset 0 e.margins lane (16 - m), cands := sset 0 e.cands lane (16 - c),
                      moves := satAdd 16 e.moves (a + b) }
    let w := eyeWorst e
    let e := { e with lane := w, margin := eyeMargin e w, phase := sget 0 e.phases w, vref := sget 0 e.vrefs w }
    let s := s.setSlu sl { x with eyes := sset {} x.eyes ch e }
    if m ≤ 3 ∧ 3 < old then s.sluReport sl Status.eyeLow Sev.corrected 0xFF 0 0 else s

end Sys2Proof.Machine
end

