-- ==== Sys2Proof/Machine/Alloc.lean ====
section
/-! DEFINITION. The DVA map, the memory objects of a partition and the section allocators (07 R186-R193; 13 R366-R370);
AL_ALLOC, AL_FREE (03 R96), FREED_BLOCK_SCRUB (07 R191). -/

namespace Sys2Proof.Machine

/-! ### Compacts as the memory checks see them (13 R366-R370) -/

/-- The member entry of a partition, where it belongs to a compact. -/
def State.entryOf (s : State) (p : Nat) : Option Member :=
  match (s.part p).member with
  | none => none
  | some m => match sget none s.chr.compacts (s.part p).cid with
    | none => none
    | some c => c.members[m]?
/-- The partition has the commons role. -/
def State.isCommons (s : State) (p : Nat) : Bool := match s.entryOf p with
  | some m => m.role == 1
  | none => false
/-- Two partitions belong to one compact. -/
def State.sameCompact (s : State) (p q : Nat) : Bool :=
  (s.part p).member.isSome && (s.part q).member.isSome && (s.part p).cid == (s.part q).cid
/-- EGRESS codes (13 R366). -/
def Egress.declared : Nat := 0
def Egress.own : Nat := 1
def Egress.full : Nat := 2

/-! ### The DVA map (07 R186) -/

/-- Where a DVA lies. -/
inductive Place where
  | res (sec off : Nat)
  | aq
  | none
  deriving DecidableEq, Repr

/-- First and last + 1 DVA of Aquifer space (07 R186). -/
def aqBase : Nat := 0x040000000000
def aqEnd : Nat := 0x140000000000
/-- Granules of a section that its allocator may hand out (07 R189). -/
def Sec.usable (c : Sec) : Nat := winGranules - 32 * c.catchC

/-- The place of a DVA of a partition: the catchment and the remainder of a window are not addressable (07 R186). -/
def State.placeOf (s : State) (p dva : Nat) : Place :=
  if dva < 10 * winSpan then
    match s.secOf p (dva / winSpan) with
    | some n => if dva % winSpan < (s.sec n).usable * 65536 then .res n (dva % winSpan) else .none
    | none => .none
  else if aqBase ≤ dva ∧ dva < aqEnd then .aq
  else .none

/-- The DVA of a granule of a section of a partition. -/
def State.dvaOf (s : State) (p sec gran : Nat) : Nat := s.ordinal p sec * winSpan + gran * 65536

/-- The live block that holds a granule (07 R189); granules under a lost subtree belong to no partition (08 R231). -/
def Sec.blockAt (c : Sec) (gran : Nat) : Option Block :=
  c.live.find? (fun b => b.role ≠ .retired ∧ b.base ≤ gran ∧ gran < b.base + b.n)

/-- A Sealed region that holds a DVA, in the Aquifer space of a partition: its own, or one that the commons partition of its
compact sealed (07 R193, 13 R370). -/
def State.regionAt (s : State) (p dva : Nat) : Option (Nat × Nat) :=
  ((List.range 10).filter (fun q => q == p || (s.sameCompact p q && s.isCommons q))).findSome? (fun q =>
    ((s.part q).regions.find? (fun r => r.2.state == .sealed && decide (r.2.base ≤ dva ∧ dva < r.2.base + r.2.size))).map
      (fun r => (q, r.1)))

/-- What a granule of a partition's DVA space is as a memory object. -/
inductive Obj where
  | block (sec : Nat) (b : Block)
  | region (owner idx : Nat)
  | none
  deriving DecidableEq, Repr

/-- The memory object that holds a DVA. -/
def State.objAt (s : State) (p dva : Nat) : Obj :=
  match s.placeOf p dva with
  | .res n off => match (s.sec n).blockAt (off / 65536) with
    | some b => .block n b
    | none => .none
  | .aq => match s.regionAt p dva with
    | some (q, i) => .region q i
    | none => .none
  | .none => .none

/-- The first DVA of each granule that a range touches. -/
def granulesOf (lo n : Nat) : List Nat :=
  if n = 0 then [] else (List.range ((lo + n - 1) / 65536 - lo / 65536 + 1)).map (fun i => (lo / 65536 + i) * 65536)

/-- Every byte of a range lies in a memory object that a core or siphon of section n may reach (07 R186, R188). -/
def State.coreRange (s : State) (p n lo len : Nat) : Bool :=
  decide (lo + len ≤ 2 ^ 52) && (granulesOf lo len).all (fun d => match s.objAt p d with
    | .block m _ => m == n
    | .region _ _ => true
    | .none => false)
/-- A range touches Aquifer space. -/
def touchesAq (lo len : Nat) : Bool := decide (lo < aqEnd ∧ aqBase < lo + len)
/-- A range touches a commons object. -/
def State.touchesCommons (s : State) (p lo len : Nat) : Bool :=
  (granulesOf lo len).any (fun d => match s.objAt p d with
    | .block _ b => b.role == .commons
    | _ => false)

/-- A range lies wholly within one memory object of the partition (12 R347): that object. -/
def State.hostRange (s : State) (p lo len : Nat) : Obj :=
  match s.objAt p lo with
  | .block n b =>
    if (lo % winSpan) + len ≤ (b.base + b.n) * 65536 then .block n b else .none
  | .region q i =>
    let r := sget {} (s.part q).regions i
    if lo + len ≤ r.base + r.size then .region q i else .none
  | .none => .none

/-! ### The allocator (07 R189) -/

/-- Objects that count against the 4,096 of a section. -/
def Sec.objects (c : Sec) : Nat := (c.live.filter (fun b => b.role ≠ .retired)).length
/-- Free runs in ascending order: what the live blocks (sorted by base) leave of [a, u). -/
def freeRuns (u : Nat) : Nat → List Block → List (Nat × Nat)
  | a, [] => if a < u then [(a, u)] else []
  | a, b :: r => (if a < min u b.base then [(a, min u b.base)] else []) ++ freeRuns u (max a (b.base + b.n)) r
/-- The free runs of a section. -/
def Sec.runs (c : Sec) : List (Nat × Nat) := freeRuns c.usable 0 c.live
/-- Live objects of a section at most. -/
def maxObjects : Nat := 4096

/-- alloc(bytes) of 07 R189: the first granule of the new block, none for bytes = 0. -/
def Sec.alloc (c : Sec) (bytes : Nat) (role : BlkRole) (ctx : Option Nat) : Except Nat (Option Nat × Sec) :=
  if bytes = 0 then .ok (none, c)
  else if 2 ^ 64 - 1 ≤ bytes then .error Status.bounds
  else
    let n := (bytes + 65535) / 65536
    let big := decide (32 ≤ n)
    let n := if big then roundUp n 32 else n
    if maxObjects ≤ c.objects then .error Status.quota
    else match c.runs.find? (fun r => decide ((if big then roundUp r.1 32 else r.1) + n ≤ r.2)) with
      | none => .error Status.quota
      | some r =>
        let a := if big then roundUp r.1 32 else r.1
        .ok (some a, { c with live := insertBlock { base := a, n, role, ctx } c.live })

/-- The ranges (base, length) of a block's granules that no scrub is pending for: a granule freed again before its scrub is pending
once. -/
def Sec.unscrubbed (c : Sec) (b : Block) : List (Nat × Nat) :=
  (freeRuns (b.base + b.n) b.base (c.scrub.foldl (fun l r => insertBlock { base := r.1, n := r.2, role := .priv, ctx := none } l) [])).map
    (fun r => (r.1, r.2 - r.1))
/-- The blocks of an image put beside what this section keeps for its lost subtrees (08 R231). -/
def Sec.putBlocks (c : Sec) (l : List Block) (scrub : List (Nat × Nat)) : Sec :=
  { c with live := (l.filter (fun b => b.role != .retired)).foldl (fun m b => insertBlock b m) (c.live.filter (fun b => b.role == .retired)), scrub }
/-- free of 07 R189: the block leaves the live blocks and is scrub-pending. -/
def Sec.free (c : Sec) (b : Block) : Sec :=
  { c with live := c.live.filter (fun x => !(x.base == b.base && x.n == b.n && x.role != .retired)),
           scrub := c.scrub ++ c.unscrubbed b }

/-- Allocation for a partition in one of its sections: the DVA of the block, 0 for no block. -/
def State.allocIn (s : State) (p sec bytes : Nat) (ctx : Option Nat) : Except Nat (Nat × State) :=
  match (s.sec sec).alloc bytes .priv ctx with
  | .error e => .error e
  | .ok (none, _) => .ok (0, s)
  | .ok (some a, c) => .ok (s.dvaOf p sec a, s.setSec sec c)

/-- The live block of a partition whose base a DVA is. -/
def State.blockBase (s : State) (p dva : Nat) : Option (Nat × Block) :=
  match s.objAt p dva with
  | .block n b => if b.base * 65536 = dva % winSpan then some (n, b) else none
  | _ => none

/-! ### Reads under way (07 R192, R200) -/

/-- The ranges of a tile in DVA space: row r at sa + r * sb, and for an MX format its scale block at sc (03 R87, R91). -/
def tileRanges (fmt : Nat) (sa sb sc : Word) : List (Nat × Nat) :=
  (List.range 32).map (fun r => ((sa + BitVec.ofNat 64 r * sb).toNat, Fmt.rowBytes fmt)) ++
    (if Fmt.isMx fmt then [(sc.toNat, 32)] else [])
/-- The ranges that an IN.LDD under way reads, none for any other entry. -/
def QEntry.lddRanges (e : QEntry) : List (Nat × Nat) :=
  if e.resumes then (match e.ins with
    | .inn (.ldd t _ sa sb sc) _ => tileRanges (e.d t).fmt (e.s sa) (e.s sb) (e.s sc)
    | _ => [])
  else []
/-- The range that a schedule's descriptor, checked and not complete, has still to read. -/
def Sched.rest (x : Sched) : List (Nat × Nat) := match x.cur with
  | some d => if x.state = .running ∨ x.state = .waiting then [(d.src + x.moved, d.len - x.moved)] else []
  | none => []
/-- The range that a COPY_OUT under way reads. -/
def Cmd.rest (c : Cmd) : List (Nat × Nat) := if c.begun then [(field c.args 16 8, field c.args 24 8)] else []
/-- A range in a list overlaps [lo, hi). -/
def hits (l : List (Nat × Nat)) (lo hi : Nat) : Bool := l.any (fun r => decide (r.1 < hi ∧ lo < r.1 + r.2))
/-- A partition has a read under way, checked by the STU, that overlaps a DVA range; with `old`, one that reads one of the granule
ranges freed since it was checked (07 R192). -/
def State.reading (s : State) (p lo hi : Nat) (old : Option (Nat × Nat)) : Bool :=
  let on (l : List (Nat × Nat)) (past : List (Nat × Nat)) : Bool := hits l lo hi && (match old with
    | none => true
    | some r => past.contains r)
  s.cores.any (fun e => s.corePart e.1 == some p && (match e.2.head .intake with
    | some x => on x.lddRanges x.past
    | none => false)) ||
  (s.partSecs p).any (fun n => (s.sec n).scheds.any (fun e => on e.2.rest e.2.past)) ||
  (s.fn (p + 1)).queues.any (fun e => match e.2.cur with
    | some c => on c.rest c.past
    | none => false)
/-- The reads of a section under way that overlap a block being freed are marked with the granules whose scrub begins with this FREE:
they complete with their old contents (07 R192). -/
def State.markPast (s : State) (p n : Nat) (b : Block) : State :=
  let lo := s.dvaOf p n b.base
  let hi := lo + b.n * 65536
  let l := (s.sec n).unscrubbed b
  let s : State := { s with cores := smap {} (fun c k =>
    if coreSec c = n then k.setQ .intake (listMod (fun x => if hits x.lddRanges lo hi then { x with past := x.past ++ l } else x) 0
      (k.q .intake)) else k) s.cores }
  let s := s.setSec n { s.sec n with scheds := smap {} (fun _ x =>
    if hits x.rest lo hi then { x with past := x.past ++ l } else x) (s.sec n).scheds }
  let f := s.fn (p + 1)
  let mark (q : Queue) : Queue := { q with cur := q.cur.map (fun c => if hits c.rest lo hi then { c with past := c.past ++ l } else c) }
  let s := s.setFn (p + 1) { f with queues := smap {} (fun _ q => mark q) f.queues }
  let mark (sl : Nat) (q : TagReq) : TagReq :=
    if hits l (lineOff sl q.line / 65536) (lineOff sl q.line / 65536 + 1) then { q with past := true } else q
  [2 * n, 2 * n + 1].foldl (fun s sl =>
    let x := s.slu sl
    let ws := x.waiting.map (mark sl)
    let ts := x.tags.map (fun e => (e.1, mark sl e.2))
    s.setSlu sl { x with waiting := ws, tags := ts }) s
/-- A read passes the pending scrubs of the granules that were freed since it was checked (07 R192). -/
def State.beforeScrub {α : Type} (s : State) (past : List (Nat × Nat)) (n : Nat) (f : State → State × α) : State × α :=
  if past.isEmpty then f s else
  let c := s.sec n
  let (t, r) := f (s.setSec n { c with scrub := c.scrub.filter (fun x => !past.contains x) })
  (t.setSec n { t.sec n with scrub := c.scrub }, r)

/-- A DVA is the base of a region that another partition, the commons partition of the compact, shares: a commons object (13 R370). -/
def State.sharedRegion (s : State) (p dva : Nat) : Bool :=
  match s.objAt p dva with
  | .region q i => q != p && (sget {} (s.part q).regions i).base == dva
  | _ => false
/-- Frees the block at a DVA (03 R96, 07 R189; 13 R368, R370): STATE where none is based there, but OK for DVA 0; DENIED for an
output or commons object. -/
def State.freeAt (s : State) (p dva : Nat) : State × Nat :=
  match s.blockBase p dva with
  | none => (s, if dva = 0 then Status.ok else if s.sharedRegion p dva then Status.denied else Status.state)
  | some (n, b) =>
    if b.role ≠ .priv then (s, Status.denied)
    else (let t := s.markPast p n b; t.setSec n ((t.sec n).free b), Status.ok)

/-! ### AL.ALLOC and AL.FREE (03 R96) -/

/-- The failure value of a status: bit 63 and the code (03 R96). -/
def alFail (status : Nat) : Word := BitVec.ofNat 64 (2 ^ 63 + status)
/-- The context of the launch that runs a core. -/
def State.coreCtx (s : State) (k : Core) : Option Nat := match k.launch with
  | some l => (s.queue l.fn l.q).ctx
  | none => none

/-- AL.ALLOC: a block of sa bytes from the core's own section. -/
def alAlloc (c : Nat) (nf : Bool) (sd sa : Reg) (s : State) (k : Core) : State :=
  match s.corePart c with
  | none => s.setCore c (if nf then (k.setReg sd (alFail Status.bounds)).advance else k.scalarFault Status.bounds)
  | some p => match s.allocIn p (coreSec c) (k.reg sa).toNat (s.coreCtx k) with
    | .ok (d, t) => t.setCore c (k.setReg sd (BitVec.ofNat 64 d)).advance
    | .error st => s.setCore c (if nf then (k.setReg sd (alFail st)).advance else k.scalarFault st)

/-- AL.FREE: the block of the partition at DVA sa; all-ones is BOUNDS. -/
def alFree (c : Nat) (nf : Bool) (sd sa : Reg) (s : State) (k0 : Core) : State :=
  let dva := (k0.reg sa).toNat
  let (t, st) : State × Nat := match s.corePart c with
    | none => (s, Status.state)
    | some p => if dva = 2 ^ 64 - 1 then (s, Status.bounds) else s.freeAt p dva
  let k := t.core c
  if st = Status.ok then t.setCore c (if nf then (k.setReg sd 0).advance else k.advance)
  else if nf then t.setCore c (k.setReg sd (alFail st)).advance
  else t.setCore c (k.scalarFault st)

/-- AL_ALLOC (03 R96, 07 R189). -/
def execAlAlloc (core : Nat) (nf : Bool) (sd sa : Reg) (s : State) : Out := onScalar core s (alAlloc core nf sd sa s)
/-- AL_FREE (03 R96, 07 R189). -/
def execAlFree (core : Nat) (nf : Bool) (sd sa : Reg) (s : State) : Out := onScalar core s (alFree core nf sd sa s)

/-! ### Scrub of freed blocks (07 R191, R192) -/

/-- The scrub-pending block with the lowest base. -/
def lowestScrub : List (Nat × Nat) → Option (Nat × Nat)
  | [] => none
  | r :: rest => match lowestScrub rest with
    | none => some r
    | some q => if q.1 < r.1 then some q else some r

/-- A request to the granules [a, a + n) holds a tag of a sluice, or waits there since before their FREE. -/
def Sluice.tagIn (x : Sluice) (sl a n : Nat) : Bool :=
  let at_ (q : TagReq) : Bool := let g := lineOff sl q.line / 65536; decide (a ≤ g ∧ g < a + n)
  x.tags.any (fun t => at_ t.2) || x.waiting.any (fun q => q.past && at_ q)
/-- What the scrub of granules [a, a + n) of a section waits for: every access checked against the old block (07 R192), and the
re-encryptions and re-keys there (08 R233). -/
def State.scrubWaits (s : State) (sec a n : Nat) : Bool :=
  [2 * sec, 2 * sec + 1].any (fun sl => (s.slu sl).tagIn sl a n || (s.slu sl).busyIn (4 * a) (4 * n)) ||
    (match s.secPart sec with
     | some p => s.reading p (s.dvaOf p sec a) (s.dvaOf p sec (a + n)) (some (a, n))
     | none => false)

/-- FREED_BLOCK_SCRUB: the lowest freed block of a section is rewritten as zero lines once every access to the old block has
completed, and the accesses that waited for it go on (07 R191, R192; 08 R228, R231, R233). -/
def execFreedBlockScrub (sec : Nat) (s : State) : Out :=
  onSec sec <|
    match lowestScrub (s.sec sec).scrub with
    | none => s
    | some (a, n) =>
      if s.scrubWaits sec a n then s else
      let t := s.scrubGranules sec a n
      let c := t.sec sec
      let t := t.setSec sec { c with scrub := c.scrub.erase (a, n) }
      let t := (t.runAllWaiting (2 * sec)).runAllWaiting (2 * sec + 1)
      if (t.slu (2 * sec)).tagsOk ∧ (t.slu (2 * sec + 1)).tagsOk then t else t.report (Rec.mk' Status.integrity Sev.devFatal Blk.slu (2 * sec))

/-- Scrub-pending granules that are free: those allocated again are live (07 R189, R208). -/
def Sec.pendingFree (c : Sec) : Nat :=
  (c.scrub.map (fun r => ((freeRuns (r.1 + r.2) r.1 c.live).map (fun e => e.2 - e.1)).sum)).sum
/-- The allocator's ledger (07 R208): the live blocks lie one after another inside the window, so free + live is the whole of it but for
what lies under a lost subtree (08 R231), and the scrub-pending granules are free ones. -/
def Sec.allocOk (c : Sec) : Bool :=
  let l := c.live.filter (fun b => b.role != .retired)
  (l.zip (l.drop 1)).all (fun e => decide (e.1.base + e.1.n ≤ e.2.base)) && l.all (fun b => decide (b.base + b.n ≤ c.usable)) &&
    decide (c.pendingFree ≤ (c.runs.map (fun r => r.2 - r.1)).sum)

end Sys2Proof.Machine
end

