-- ==== Sys2Proof/Machine/Aquifer.lean ====
section
/-! DEFINITION. The Aquifer port (07 R193-R202, R208): the Furrow frame format, page fetches, the catchment, and region states;
AQUIFER_READ, AQUIFER_FRAME_ARRIVAL, CATCHMENT_FILL, CATCHMENT_AGE_TICK, AQUIFER_TAG_TIMEOUT. -/

namespace Sys2Proof.Machine

/-! ### Furrow frames (07 R195, R196) -/

/-- Planes of a frame by element width. -/
def widthCode (w : Nat) : Nat := if w = 1 then 0 else if w = 2 then 1 else 2
/-- The planes of 4,096 bytes cut into elements of k bytes: plane p holds byte p of each. -/
def planesOf (k : Nat) (l : List Byte) : List (List Byte) :=
  let es := chunks k 4096 l
  (List.range k).map (fun p => es.map (fun e => e.getD p 0))
/-- The frame's bytes of its planes. -/
def joinPlanes (ps : List (List Byte)) : List Byte :=
  match ps with
  | [a] => a
  | [a, b] => (List.zipWith (fun x y => [x, y]) a b).flatten
  | [a, b, c, d] => (List.zipWith (fun x y => x ++ y) (List.zipWith (fun x y => [x, y]) a b)
      (List.zipWith (fun x y => [x, y]) c d)).flatten
  | _ => []

/-- A value placed by descending count, then ascending value. -/
def rankInsert (x : Nat × Nat) : List (Nat × Nat) → List (Nat × Nat)
  | [] => [x]
  | y :: r => if y.1 < x.1 ∨ (x.1 = y.1 ∧ x.2 < y.2) then x :: y :: r else y :: rankInsert x r
/-- The 15 most frequent byte values, by descending count and then by ascending value. -/
def nibDict (l : List Byte) : List Byte :=
  let cs := (List.range 256).map (fun v => (l.count (BitVec.ofNat 8 v), v))
  ((cs.foldl (fun acc x => (rankInsert x acc).take 15) []).take 15).map (fun x => BitVec.ofNat 8 x.2)

/-- Pairs of nibbles as bytes, element i in the low nibble for even i. -/
def packNibbles : List Nat → List Byte
  | [] => []
  | [a] => [BitVec.ofNat 8 a]
  | a :: b :: r => BitVec.ofNat 8 (a + 16 * b) :: packNibbles r
/-- The nibbles of bytes. -/
def nibblesOf (l : List Byte) : List Nat := (l.map (fun b => [b.toNat % 16, b.toNat / 16])).flatten

/-- A NIB plane. -/
def nibPlane (l : List Byte) : List Byte :=
  let d := nibDict l
  let idx := l.map (fun b => d.idxOf b)
  d ++ [0] ++ packNibbles (idx.map (fun i => min i 15)) ++ l.filter (fun b => !d.contains b)

/-- A plane's mode, CVAL byte and body (07 R196): CONST where all bytes are equal, NIB where shorter than RAW, else RAW. -/
def encodePlane (l : List Byte) : Nat × Byte × List Byte :=
  match l with
  | [] => (0, 0, [])
  | b :: _ =>
    if l.all (· == b) then (1, b, [])
    else if (nibPlane l).length < l.length then (2, 0, nibPlane l) else (0, 0, l)

/-- Header bytes of a frame (07 R195). -/
def frameHeader (w modes : Nat) (cval : List Byte) (clen : Nat) : List Byte :=
  [1, BitVec.ofNat 8 w, BitVec.ofNat 8 modes, 0] ++ (cval ++ List.replicate 4 0).take 4 ++ leBytes 2 clen ++ List.replicate 6 0

/-- A frame of 4,096 bytes encoded for an element width: header and body, before encryption and MAC (07 R196). -/
def encodeFrame (width : Nat) (l : List Byte) : List Byte :=
  let ps := (planesOf width l).map encodePlane
  let body := (ps.map (·.2.2)).flatten
  if 4120 < 16 + body.length + 8 then frameHeader 3 0 [] 4120 ++ l
  else frameHeader (widthCode width) ((ps.zipIdx.map (fun p => p.1.1 * 4 ^ p.2)).sum) (ps.map (·.2.1)) (16 + body.length + 8) ++ body

/-- One plane of n bytes decoded from the rest of a body. -/
def decodePlane (mode n : Nat) (cval : Byte) (l : List Byte) : Option (List Byte × List Byte) :=
  match mode with
  | 0 => if l.length < n then none else some (l.take n, l.drop n)
  | 1 => some (List.replicate n cval, l)
  | 2 =>
    let d := l.take 15
    let idx := nibblesOf (slice l 16 (n / 2))
    let lits := l.drop (16 + n / 2)
    let k := (idx.filter (· = 15)).length
    if l.length < 16 + n / 2 + k ∨ l.getD 15 0 ≠ 0 then none
    else some ((idx.foldl (fun (acc : List Byte × List Byte) i =>
        if i = 15 then (match acc.2 with | [] => acc | x :: r => (x :: acc.1, r)) else (d.getD i 0 :: acc.1, acc.2)) ([], lits)).1.reverse,
      lits.drop k)
  | _ => none
/-- Planes decoded in ascending order, and what is left of the body. -/
def decodePlanes (n : Nat) : List (Nat × Byte) → List Byte → Option (List (List Byte) × List Byte)
  | [], l => some ([], l)
  | (m, c) :: r, l => match decodePlane m n c l with
    | none => none
    | some (p, rest) => (decodePlanes n r rest).map (fun x => (p :: x.1, x.2))
/-- A frame's 4,096 bytes from its lines: header, body, the bytes of the MAC and zeros up to whole lines; none where the frame breaks
07 R195. -/
def decodeFrame (l : List Byte) : Option (List Byte) :=
  let w := (l.getD 1 0).toNat
  let modes := (l.getD 2 0).toNat
  let clen := field l 8 2
  let body := slice l 16 (clen - 24)
  let zero (m : List Byte) : Bool := m.all (· == 0)
  if l.getD 0 0 ≠ 1 ∨ l.getD 3 0 ≠ 0 ∨ !zero (slice l 10 6) ∨ clen < 24 ∨ l.length ≠ roundUp clen 128 ∨ !zero (l.drop clen) then none
  else if w = 3 then (if modes = 0 ∧ body.length = 4096 ∧ zero (slice l 4 4) then some body else none)
  else if 3 < w then none
  else
    let k := 2 ^ w
    let ps := (List.range k).map (fun p => (modes / 4 ^ p % 4, l.getD (4 + p) 0))
    if 4 ^ k ≤ modes ∨ !zero (slice l (4 + k) (4 - k)) ∨ ps.any (fun p => p.1 != 1 && p.2 != 0) then none
    else match decodePlanes (4096 / k) ps body with
      | some (qs, []) => some (joinPlanes qs)
      | _ => none

/-- Lines of 128 bytes that a frame takes with its MAC (07 R195). -/
def frameLines (f : List Byte) : Nat := (f.length + 8 + 127) / 128
/-- Frames of a page (07). -/
def pageFrames : Nat := 16
/-- Bytes of a page. -/
def pageBytes : Nat := 65536
/-- The 16 frames of a page of 64 KiB. -/
def encodePage (width : Nat) (l : List Byte) : List (List Byte) := (chunks 4096 pageFrames l).map (encodeFrame width)
/-- Lines of 128 bytes on the expanders (07 R193). -/
def Aqf.lines (a : Aqf) : Nat := a.gib * 2 ^ 23
/-- Lines of a region's locator table: four locators to a line (07 R197). -/
def locatorLines (size : Nat) : Nat := (size / pageBytes + 3) / 4
/-- Lines that a region's written pages take. -/
def Region.pageLines (r : Region) : Nat := (r.pages.map (fun p => p.2.2)).sum
/-- Regions of a partition at most (07). -/
def maxRegions : Nat := 64
/-- Pages of one Aquifer space: 16 TiB of 64 KiB (07 R186). -/
def aqPages : Nat := 2 ^ 28
/-- The entry of a page in the generation table, by its DVA in the Aquifer space of its owner (07 R197; assumption 120). -/
def genAt (p dva : Nat) : Nat := p * aqPages + (dva - aqBase) / pageBytes
/-- Generation of a page of a partition (07 R197). -/
def Aqf.gen (a : Aqf) (p dva : Nat) : Nat := sget 0 a.gens (genAt p dva)

/-! ### The expanders (07 R195, R197; 08 R215, R217) -/

/-- A region of a partition. -/
def State.region (s : State) (p i : Nat) : Region := sget {} (s.part p).regions i
/-- The line ranges of the expanders in use: locator tables and page frames. -/
def State.aqRanges (s : State) : List (Nat × Nat) :=
  (List.range 10).flatMap (fun p => (s.part p).regions.flatMap (fun e =>
    if e.2.state = .none then [] else (e.2.tbl, e.2.tbl + locatorLines e.2.size) :: e.2.pages.map (fun x => (x.2.1, x.2.1 + x.2.2))))
/-- The lowest run of n free lines of the expanders (assumption 103). -/
def State.aqPlace (s : State) (n : Nat) : Option Nat :=
  let rs := s.aqRanges
  (0 :: rs.map (·.2)).foldl (fun (b : Option Nat) c =>
    if c + n ≤ s.aqf.lines ∧ !rs.any (fun r => decide (r.1 < c + n ∧ c < r.2)) then
      (match b with
       | none => some c
       | some x => some (min x c))
    else b) none

/-- A line of the expanders under a page's generation, encrypted by the Aquifer data key (08 R215, R216). -/
def Aqf.encLine (a : Aqf) (line gen : Nat) (l : List Byte) : List Byte := xtsEnc a.k1.key a.k2.key (aqCtx line gen) l
def Aqf.decLine (a : Aqf) (line gen : Nat) : List Byte := match keyGet line a.exp with
  | some c => xtsDec a.k1.key a.k2.key (aqCtx line gen) c
  | none => List.replicate 128 0
/-- Lines written from a physical line on. -/
def Aqf.putLines (a : Aqf) : Nat → List (List Byte) → Aqf
  | _, [] => a
  | n, c :: r => Aqf.putLines { a with exp := keyPut n c a.exp } (n + 1) r
/-- The ciphertext of n lines from a physical line on. -/
def Aqf.cipher (a : Aqf) (line n : Nat) : List Byte := (List.range n).flatMap (fun i => (keyGet (line + i) a.exp).getD [])
/-- The MAC of a frame: the context of its first line, over its DVA and its ciphertext lines (08 R217). -/
def Aqf.frameMac (a : Aqf) (line gen dva : Nat) (ct : List Byte) : BitVec 64 :=
  gmac a.km.key (aqCtx line gen) (leBytes 8 dva ++ ct)
/-- A frame written from a physical line on: its header and body, zeros in place of its MAC and up to whole lines, encrypted line by
line; its MAC is kept beside the lines it covers (07 R195, R197; assumption 104). -/
def Aqf.putFrame (a : Aqf) (line gen dva : Nat) (f : List Byte) : Aqf :=
  let n := frameLines f
  let p := f ++ List.replicate (128 * n - f.length) 0
  let cs := (List.range n).map (fun i => a.encLine (line + i) gen (slice p (128 * i) 128))
  { a.putLines line cs with macs := keyPut line (a.frameMac line gen dva cs.flatten) a.macs }
/-- The frames of a page written one after another. -/
def Aqf.putFrames (a : Aqf) (gen : Nat) : Nat → Nat → List (List Byte) → Aqf
  | _, _, [] => a
  | line, dva, f :: r => Aqf.putFrames (a.putFrame line gen dva f) gen (line + frameLines f) (dva + 4096) r

/-- The first 24 bytes of a locator: base line, sixteen frame lengths of 6 bits, four zero bytes (07 R197). -/
def locatorHead (base : Nat) (lens : List Nat) : List Byte :=
  leBytes 8 base ++ leBytes 12 ((lens.zipIdx.map (fun e => e.1 * 2 ^ (6 * e.2))).sum) ++ leBytes 4 0
/-- The MAC of a locator: over its first 24 bytes, the page's DVA and its generation (07 R197; assumption 104). -/
def Aqf.locatorMac (a : Aqf) (line gen dva : Nat) (head : List Byte) : BitVec 64 :=
  gmac a.km.key (aqCtx line gen) (head ++ leBytes 8 dva ++ leBytes 4 gen)
/-- A locator put into its line of the locator table, four to a line, encrypted with the generation bytes zero (07 R197). -/
def Aqf.putLocator (a : Aqf) (tbl page gen dva base : Nat) (lens : List Nat) : Aqf :=
  let line := tbl + page / 4
  let head := locatorHead base lens
  let loc := head ++ beBytes 8 (a.locatorMac line gen dva head).toNat
  let old := a.decLine line 0
  { a with exp := keyPut line (a.encLine line 0 (old.take (32 * (page % 4)) ++ loc ++ old.drop (32 * (page % 4) + 32))) a.exp }
/-- A page's locator read and checked: base line and frame lengths; none where its MAC fails. -/
def Aqf.locator (a : Aqf) (tbl page gen dva : Nat) : Option (Nat × List Nat) :=
  let line := tbl + page / 4
  let loc := slice (a.decLine line 0) (32 * (page % 4)) 32
  let head := loc.take 24
  if beBytes 8 (a.locatorMac line gen dva head).toNat ≠ loc.drop 24 then none
  else some (field loc 0 8, (List.range pageFrames).map (fun i => field loc 8 12 / 2 ^ (6 * i) % 64))

/-- One frame of a page read from the expanders (07 R197): its bytes, or the status that it fails with. -/
def State.readFrame (s : State) (p i page frame : Nat) : Except Nat (List Byte) :=
  let r := s.region p i
  let a := s.aqf
  let dva := r.base + page * pageBytes
  let gen := a.gen p dva
  match a.locator r.tbl page gen dva with
  | none => .error Status.integrity
  | some (base, lens) =>
    let line := base + (lens.take frame).sum
    let n := lens.getD frame 0
    if keyGet line a.macs ≠ some (a.frameMac line gen (dva + 4096 * frame) (a.cipher line n)) then .error Status.integrity
    else match decodeFrame ((List.range n).flatMap (fun j => a.decLine (line + j) gen)) with
      | some l => .ok l
      | none => .error Status.poisoned

/-- A page's 16 frames written for the first time of a load: its generation moves on, its frames take a run of free lines and its
locator names them (07 R193, R197). None where no run of free lines is long enough. -/
def State.putPage (s : State) (p i page : Nat) (l : List Byte) : Option State :=
  let r := s.region p i
  let fr := encodePage r.width l
  let n := (fr.map frameLines).sum
  let dva := r.base + page * pageBytes
  match s.aqPlace n with
  | none => none
  | some base =>
    let gen := s.aqf.gen p dva + 1
    let a := ((s.aqf.putFrames gen base dva fr).putLocator r.tbl page gen dva base (fr.map frameLines))
    let x := s.part p
    let s := s.setPart p { x with regions := sset {} x.regions i { r with pages := keyPut page (base, n) r.pages } }
    some { s with aqf := { a with linesUsed := a.linesUsed + n, gens := sset 0 a.gens (genAt p dva) gen } }

/-! ### The catchment (07 R199-R201) -/

/-- The first DVA of a page. -/
def pageOf (dva : Nat) : Nat := dva / pageBytes * pageBytes

/-- The sections whose catchments a partition's section may use: its own where Sealed, every Pooled partition's where Pooled
(07 R201). -/
def State.catchSecs (s : State) (p n : Nat) : List Nat :=
  if (s.part p).pooled then (List.range 10).filter (fun m => match s.secPart m with
    | some q => (s.part q).pooled
    | none => false)
  else [n]
/-- Page slots of a section's catchment (07 "The catchment"). -/
def Sec.slots (c : Sec) : Nat := c.catchC * 32
/-- A catchment slot, none where it is free. -/
def Sec.cslot (c : Sec) (i : Nat) : Option CSlot := keyGet i c.catchment
/-- Window offset of a slot's first byte: the catchment is the top of the window (07 R186). -/
def Sec.slotOff (c : Sec) (i : Nat) : Nat := (c.usable + i) * 65536

/-- The slot that holds a page of a region's owner. -/
def State.findPage (s : State) (secs : List Nat) (owner page : Nat) : Option (Nat × Nat) :=
  secs.findSome? (fun m => ((s.sec m).catchment.find? (fun e => e.2.valid && e.2.part == owner && e.2.dva == page)).map
    (fun e => (m, e.1)))
/-- A reader whose lookup of a page is counted has not ended its read: a queue's command in hand, an AQUIFER_READ of a section; the
reads of cores and schedules are found in them. -/
def State.asks (s : State) (rd : Reader) : Bool := match rd with
  | .host f q => (s.queue f q).cur.isSome
  | .port _ => true
  | _ => false
/-- Any read of a page is in flight, which pins its slot (07 R200). -/
def State.pageInUse (s : State) (owner page : Nat) : Bool :=
  (List.range 10).any (fun p => (match s.regionAt p page with
    | some (q, _) => q == owner
    | none => false) && s.reading p page (page + pageBytes) none) ||
  s.aqf.askers.any (fun e => e.2.1 == owner && e.2.2 == page && s.asks e.1)

/-- The victim of a fill: the free slot with the lowest index, else the unpinned slot with the highest age, ties to the lowest
index (07 R200). -/
def State.victim (s : State) (secs : List Nat) : Option (Nat × Nat) :=
  match secs.findSome? (fun m => ((List.range (s.sec m).slots).find? (fun i => ((s.sec m).cslot i).isNone)).map (fun i => (m, i))) with
  | some v => some v
  | none =>
    let c := (secs.map (fun m => ((s.sec m).catchment.filter (fun e =>
        !e.2.pinned && decide (e.1 < (s.sec m).slots) && !s.pageInUse e.2.part e.2.dva)).map (fun e => (m, e.1, e.2.age)))).flatten
    (c.foldl (fun (b : Option (Nat × Nat × Nat)) e => match b with
      | none => some e
      | some x => if x.2.2 < e.2.2 then some e else b) none).map (fun e => (e.1, e.2.1))

/-- A slot set, or freed. -/
def State.setSlot (s : State) (m i : Nat) (e : CSlot) : State :=
  s.setSec m { s.sec m with catchment := keyPut i e (s.sec m).catchment }
def State.freePageSlot (s : State) (v : Option (Nat × Nat)) : State := match v with
  | none => s
  | some (m, i) => s.setSec m { s.sec m with catchment := (s.sec m).catchment.filter (fun e => e.1 != i) }

/-! ### Page fetches (07 R199) -/

/-- Read tags of one CXL port (07 R208). -/
def aqTags : Nat := 512
/-- The lowest idle read tag of any port. -/
def Aqf.freeTag (a : Aqf) : Option Nat :=
  (List.range (a.ports * aqTags)).find? (fun t => !(a.tagsOut.any (fun e => e.1 == t)))

/-- The fetch of a page for a section. -/
def Aqf.fetch (a : Aqf) (sec owner page : Nat) : Option Fetch :=
  a.fetches.find? (fun f => f.sec = sec ∧ f.part = owner ∧ f.dva = page ∧ !f.discard)
/-- A fetch has all its frames. -/
def Fetch.complete (f : Fetch) : Bool := decide (pageFrames ≤ f.frames.length)
/-- The bytes of a fetched page. -/
def Fetch.bytes (f : Fetch) : List Byte := (List.range pageFrames).flatMap (fun i => (keyGet i f.frames).getD [])
/-- A fetch ends: where frames are still to come, it stays to return its tag (07 R208, R209); the slot it was to fill is free. -/
def State.endFetch (s : State) (f : Fetch) : State :=
  let s := s.freePageSlot f.fill
  if f.complete then { s with aqf := { s.aqf with fetches := s.aqf.fetches.erase f } }
  else { s with aqf := { s.aqf with fetches := s.aqf.fetches.map (fun x =>
    if x = f then { x with discard := true, fill := none } else x) } }

/-- A page lookup of a reader of section n is counted once, as a hit or as a miss; a hit sets the slot's age to 0 (07 R199, R200,
R202). -/
def State.noteLook (s : State) (rd : Reader) (n owner page : Nat) (hit : Option (Nat × Nat)) : State :=
  if s.aqf.askers.contains (rd, owner, page) then s else
  let s : State := { s with aqf := { s.aqf with askers := (rd, owner, page) :: s.aqf.askers } }
  let c := s.sec n
  match hit with
  | none => s.setSec n { c with misses := satAdd 24 c.misses 1 }
  | some (m, i) =>
    let s := s.setSec n { c with hits := satAdd 24 c.hits 1 }
    match (s.sec m).cslot i with
    | none => s
    | some e => s.setSlot m i { e with age := 0, hit := true }
/-- A reader's access is complete: its lookups are counted. -/
def State.lookedUp (s : State) (rd : Reader) : State :=
  { s with aqf := { s.aqf with askers := s.aqf.askers.filter (fun e => e.1 != rd) } }

/-- The fetch of all 16 frames of a page that missed: it takes a victim slot, which is pinned while it fills; with C = 0, where every
slot is pinned, or where `fill` is false, it is a bypass (07 R199, R200). No fetch starts where no read tag is idle. -/
def State.startFetch (s : State) (p n owner page : Nat) (fill : Bool := true) : State :=
  match s.aqf.freeTag with
  | none => s
  | some t =>
    let v := if fill then s.victim (s.catchSecs p n) else none
    let s := match v with
      | some (m, i) => s.setSlot m i { part := owner, dva := page, valid := false, filling := true, pinned := true, age := 0, hit := false }
      | none => let c := s.sec n; s.setSec n { c with bypass := satAdd 16 c.bypass 1 }
    { s with aqf := { s.aqf with
        fetches := s.aqf.fetches ++ [{ sec := n, part := owner, dva := page, frames := [], bad := 0, fill := v, tag := t, discard := false }]
        tagsOut := keyPut t s.tim.up s.aqf.tagsOut } }

/-- The class of a reader (08 R222). -/
def Reader.cls : Reader → ReqClass
  | .core _ | .port _ => .core
  | .siphon _ _ => .siphon
  | .host _ _ => .host

/-- What an Aquifer read of `len` bytes at a DVA, within one page, gives (07 R199): it is served from the catchment through the
sluice of the slot's lines, or from the fetched page, or it waits, or it fails. A slot that failed is retired, and the read goes on as
a bypass miss (08 R230). -/
def State.pageReady (s : State) (rd : Reader) (p n dva len : Nat) : State × LineRes :=
  match s.regionAt p dva with
  | none => (s, .done Status.bounds)
  | some (owner, _) =>
    let page := pageOf dva
    match s.findPage (s.catchSecs p n) owner page with
    | some (m, i) =>
      let s := s.noteLook rd n owner page (some (m, i))
      let off := (s.sec m).slotOff i + dva % pageBytes
      match s.readLines rd.cls p m ((rangePieces off len).map (·.1)) with
      | (t, .wait) => (t, .wait)
      | (t, .done st) =>
        if st ≠ Status.ok ∨ (t.findPage [m] owner page).isSome then (t, .done st)
        else (t.startFetch p n owner page false, .wait)
    | none =>
      let s := s.noteLook rd n owner page none
      match s.aqf.fetch n owner page with
      | none => (s.startFetch p n owner page, .wait)
      | some f =>
        if f.bad ≠ 0 then (s.endFetch f, .done f.bad)
        else if f.complete then (if f.fill.isSome then s else s.endFetch f, .done Status.ok)
        else (s, .wait)

/-- `len` bytes of an Aquifer page at a DVA within it, as a read that pageReady lets go on takes them: from the catchment slot, else
from the fetch. -/
def State.pageBytesAt (s : State) (p n dva len : Nat) : List Byte :=
  match s.regionAt p dva with
  | none => []
  | some (owner, _) => match s.findPage (s.catchSecs p n) owner (pageOf dva) with
    | some (m, i) => s.resBytes m ((s.sec m).slotOff i + dva % pageBytes) len
    | none => match s.aqf.fetch n owner (pageOf dva) with
      | some f => slice f.bytes (dva % pageBytes) len
      | none => []
/-- A range of Aquifer space cut at page boundaries: (DVA, bytes) pieces. -/
def pagePieces : Nat → Nat → Nat → List (Nat × Nat)
  | 0, _, _ => []
  | f + 1, a, n => if n = 0 then [] else
    let m := min n (pageBytes - a % pageBytes)
    (a, m) :: pagePieces f (a + m) (n - m)
/-- The pieces of a range, one for each page it touches. -/
def pagesOf (a n : Nat) : List (Nat × Nat) := pagePieces (n / pageBytes + 2) a n
/-- The bytes of a range of Aquifer space. -/
def State.aqBytes (s : State) (p n a len : Nat) : List Byte := (pagesOf a len).flatMap (fun r => s.pageBytesAt p n r.1 r.2)

/-! ### The commands -/

/-- AQUIFER_READ: a page lookup of a section's partition for the line at a DVA (07 R199-R201). A DVA in no Sealed region is BOUNDS
and reads nothing. -/
def execAquiferRead (sec dva : Nat) (s : State) : Out :=
  onSec sec <| match s.secPart sec with
    | none => s
    | some p => match s.pageReady (.port sec) p sec (dva / 128 * 128) 128 with
      | (t, .done _) => t.lookedUp (.port sec)
      | (t, .wait) => t

/-- AQUIFER_FRAME_ARRIVAL: a frame of a fetched page arrives (07 R197): the locator's and the frame's MAC are checked, the frame is
decrypted and decoded. A failed MAC is INTEGRITY; a frame that breaks 07 R195 after its MAC passed is POISONED and a Device-fatal
record; the read tag returns with the last frame. A discarded read only returns its tag (07 R209). `macOk` is false where the lines
came altered. -/
def execAquiferFrameArrival (sec dva frame : Nat) (macOk : Bool) (s : State) : Out :=
  onSec sec <|
    match s.aqf.fetches.find? (fun f => f.sec = sec ∧ f.dva = pageOf dva ∧ (keyGet frame f.frames).isNone ∧ decide (frame < pageFrames)) with
    | none => s
    | some f =>
      let got : Except Nat (List Byte) := if !macOk then .error Status.integrity else
        match (s.part f.part).regions.find? (fun r => decide (r.2.base ≤ f.dva ∧ f.dva < r.2.base + r.2.size)) with
        | some (i, r) => s.readFrame f.part i ((f.dva - r.base) / pageBytes) frame
        | none => .error Status.integrity
      let (l, st) : List Byte × Nat := match got with
        | .ok l => (l, 0)
        | .error st => ([], st)
      let f' := { f with frames := keyPut frame l f.frames, bad := if f.bad ≠ 0 ∨ f.discard then f.bad else st }
      let tags := if f'.complete then s.aqf.tagsOut.filter (fun e => e.1 != f.tag) else s.aqf.tagsOut
      let s' := { s with aqf := { s.aqf with
        tagsOut := tags
        fetches := if f'.complete && f.discard then s.aqf.fetches.erase f else s.aqf.fetches.map (fun x => if x = f then f' else x) } }
      if f.discard ∨ st ≠ Status.poisoned then s'
      else s'.report (Rec.mk' Status.poisoned Sev.devFatal Blk.aqf 0 ((s.secPart sec).getD 0xFF))

/-- The page's lines are written into its slot through the slot's sluice, by the port for the partition of the slot's section. -/
def State.fillSlot (s : State) (m i : Nat) (l : List Byte) : State × LineRes :=
  match s.secPart m with
  | none => (s, .done Status.revoked)
  | some q => s.writePieces .core q m (cutLines ((s.sec m).slotOff i) l)

/-- CATCHMENT_FILL: a page whose frames are all in is written into its victim slot (07 R199, R200), which is then valid and no longer
pinned. Where a line of the slot fails, the slot is retired and the page is served as a bypass miss from the fetch (08 R230). -/
def execCatchmentFill (sec dva : Nat) (s : State) : Out :=
  onSec sec <|
    match s.aqf.fetches.find? (fun f => f.sec = sec ∧ f.dva = pageOf dva ∧ f.complete ∧ f.bad = 0 ∧ f.fill.isSome ∧ !f.discard) with
    | none => s
    | some f => match f.fill with
      | none => s
      | some (m, i) => match s.fillSlot m i f.bytes with
        | (_, .wait) => s
        | (t, .done st) =>
          if st ≠ Status.ok then
            let c := t.sec sec
            let t := if ((t.sec m).cslot i).any (·.filling) then t.freePageSlot (some (m, i)) else t
            let t := t.setSec sec { t.sec sec with bypass := satAdd 16 c.bypass 1 }
            { t with aqf := { t.aqf with fetches := t.aqf.fetches.map (fun x => if x = f then { x with fill := none } else x) } }
          else
            let t := { t with aqf := { t.aqf with fetches := t.aqf.fetches.erase f } }
            match (t.sec m).cslot i with
            | none => t
            | some e =>
              if !e.filling then t else t.setSlot m i { e with valid := true, filling := false, pinned := false }

/-- CATCHMENT_AGE_TICK: every 64 µs each unpinned valid slot that was not hit in the interval ages by one, to 15 at most, and a new
interval begins for every slot (07 R200). -/
def execCatchmentAgeTick (s : State) : Out :=
  .next { s with secs := smap {} (fun _ c => { c with catchment := c.catchment.map (fun (i, e) =>
    (i, { e with
      age := if e.valid && !e.pinned && !e.hit && !s.pageInUse e.part e.dva then min 15 (e.age + 1) else e.age
      hit := false })) }) s.secs }

/-- AQUIFER_TAG_TIMEOUT: a read tag of a CXL port outstanding for 1 ms raises a Device-fatal TIMEOUT record (07 R208). -/
def execAquiferTagTimeout (port : Nat) (s : State) : Out :=
  .next <|
    if s.aqf.tagsOut.any (fun e => e.1 / aqTags == port && decide (e.2 + 1000000 ≤ s.tim.up)) then
      s.report (Rec.mk' Status.timeout Sev.devFatal Blk.aqf 0)
    else s

/-! ### Ledgers (07 R208) -/

/-- The catchment's slots: each listed once and inside the catchment, valid, filling or retired, so free + valid + filling is C * 32
with the retired ones. -/
def Sec.catchOk (c : Sec) : Bool :=
  decide ((c.catchment.map (·.1)).Nodup) && c.catchment.all (fun e => decide (e.1 < c.slots) && !(e.2.valid && e.2.filling))
/-- The port's read tags: each outstanding once, within its ports, by the one fetch that has frames to come. -/
def Aqf.tagsOk (a : Aqf) : Bool :=
  decide ((a.tagsOut.map (·.1)).Nodup) && a.tagsOut.all (fun e => decide (e.1 < a.ports * aqTags) &&
    a.fetches.any (fun f => f.tag == e.1 && !f.complete)) &&
    a.fetches.all (fun f => f.complete || a.tagsOut.any (fun e => e.1 == f.tag))

/-! ### Regions end (07 R193, R209) -/

/-- A region goes to None: its pages are discarded, and pages of it in a catchment are no page of any region any more (07 R193,
R209). The reads of it under way end, their tags to return. -/
def State.dropRegion (s : State) (p i : Nat) : State :=
  let r := s.region p i
  let x := s.part p
  let s := s.setPart p { x with regions := sset {} x.regions i {} }
  let hit (d : Nat) : Bool := decide (r.base ≤ d ∧ d < r.base + r.size)
  let s := (s.aqf.fetches.filter (fun f => f.part == p && hit f.dva)).foldl State.endFetch s
  { s with
    aqf := { s.aqf with linesUsed := s.aqf.linesUsed - (r.pageLines + locatorLines r.size) }
    secs := smap {} (fun _ c => { c with catchment := c.catchment.filter (fun e => !(e.2.valid && e.2.part == p && hit e.2.dva)) }) s.secs }

/-- A schedule of a partition that maps a region of p is Running (07 R193). -/
def State.regionInUse (s : State) (p : Nat) : Bool :=
  (List.range 10).any (fun r => (r == p || (s.sameCompact p r && s.isCommons p)) &&
    (s.partSecs r).any (fun n => (s.sec n).scheds.any (fun e => e.2.state == .running)))


end Sys2Proof.Machine
end

