-- ==== Sys2Proof/Machine/Runnel.lean ====
section
/-! DEFINITION. Runnels (02 R57-R64; 09 R262; 10 R278): opening, sending, receiving and closing an end, the messages of the
canal, and the packets of a fabric runnel; CT_ROPEN, CT_RCLOSE, RUNNEL_OPEN_REQUEST, OPEN_ACKNOWLEDGEMENT,
CANAL_TILE_ARRIVAL, CREDIT_RETURN, CLOSE_ACKNOWLEDGEMENT. -/

namespace Sys2Proof.Machine

/-! ### Messages on the canal -/

/-- Partition and runnel identifier a message is about. -/
def CanalMsg.key : CanalMsg → Nat × Nat
  | .openReq p r => (p, r.rid)
  | .openAck p r _ _ _ _ => (p, r)
  | .item p r _ _ _ => (p, r)
  | .credit p r _ _ _ => (p, r)
  | .closeAck p r _ _ => (p, r)

/-- The first entry of a list that satisfies a test, and the rest of the list. -/
def takeFirst {α : Type} (f : α → Bool) : List α → Option (α × List α)
  | [] => none
  | x :: r => if f x then some (x, r) else match takeFirst f r with
    | some (y, r') => some (y, x :: r')
    | none => none

def State.sendCanal (s : State) (m : CanalMsg) : State := { s with canal := s.canal ++ [m] }

/-- The partition of a core, 0xFF for none. -/
def State.partOf (s : State) (c : Nat) : Nat := (s.corePart c).getD 0xFF

/-- The core and handle of an end of one of some kinds that a runnel of a partition has in one role (02 R58). -/
def State.findEndOf (kinds : List EndKind) (s : State) (part rid : Nat) (consumer : Bool) : Option (Nat × Nat) :=
  (s.cores.map (fun (c, k) =>
    if s.partOf c = part then
      (k.handles.filter (fun (_, h) => h.state ≠ .unbound ∧ h.consumer = consumer ∧ h.rid = rid ∧ h.kind ∈ kinds)).map
        (fun (q, _) => (c, q))
    else [])).flatten.head?
/-- The canal end that a runnel of a partition has in one role. -/
def State.findEnd (s : State) (part rid : Nat) (consumer : Bool) : Option (Nat × Nat) :=
  s.findEndOf [.canal] part rid consumer
/-- The runnel identifier is bound at a role in the partition (02 R58). -/
def State.ridBound (s : State) (part rid : Nat) (consumer : Bool) : Bool :=
  (s.findEndOf [.canal, .fabric] part rid consumer).isSome

/-! ### Fabric packets of a core's runnels (09 R254) -/

/-- The empty packet: what an unlisted slot of a receive ring holds. -/
def noPacket : Packet :=
  { typ := 0, vc := 0, tag := 0, hops := 0, dst := 0, src := 0, dep := 0, sep := 0, birth := 0, flow := 0, pos := 0, cnt := 0,
    rsv27 := 0, arg := 0, payload := [] }

/-- A position in the DST layout of a packet (09 R254). -/
def coordOf (p : Pos) : Nat := p.x % 16 + p.y % 16 * 16 + p.z % 16 * 256 + p.d % 2 * 4096
/-- This module's logical coordinate; its position before any takeover. A relay has none: what its packets carry is a free value (09 R241;
assumption 110). -/
def State.coord (s : State) : Nat :=
  s.hwk.coord.getD (if s.hwk.role = .spare then (Config.relayCoord (coordOf s.hwk.pos)).toNat else coordOf s.hwk.pos)
/-- The tenancy tag of an identifier with its current epoch (09 R254, R264). -/
def State.tagOf (s : State) (cid : Nat) : Nat := cid + 65536 * (sget (false, 0) s.hwk.epochs cid).2
/-- BIRTH of a packet sent now (09 R254). -/
def State.birth (s : State) : Nat := bits s.tim.now 12 32

/-- The low virtual channel of a packet type's class (09 R256). -/
def vcLow (typ : Nat) : Nat :=
  match typ with
  | 1 | 5 => 0
  | 2 | 3 => 2
  | 4 => 4
  | _ => 6

/-- ARG of an acknowledgement of a ROUTE or MGMT packet (assumption 36). -/
def ackArg : Nat := 0x80
/-- A packet of this module enters the headworks through an internal port (48 + endpoint), waiting to leave (09 R255, R264). A MGMT packet is
numbered in POS, so that its acknowledgement names it (09 R265; assumption 36). -/
def State.sendFrom (s : State) (endpoint : Nat) (p : Packet) : State :=
  let counts := p.typ == 6 && p.arg != ackArg
  { s with hwk := { s.hwk with
    mgmtSent := if counts then (s.hwk.mgmtSent + 1) % 2 ^ 32 else s.hwk.mgmtSent
    bufs := s.hwk.bufs ++ [⟨{ p with
      vc := vcLow p.typ, hops := 64, src := s.coord, birth := s.birth, pos := if counts then s.hwk.mgmtSent else p.pos }, 48 + endpoint, false⟩] } }
/-- A packet that its source endpoint sends. -/
def State.sendPacket (s : State) (p : Packet) : State := s.sendFrom p.sep p

/-- The identifier is valid at this headworks and its tag current (09 R264). -/
def State.tagCurrent (s : State) (tag : Nat) : Bool :=
  let e := sget (false, 0) s.hwk.epochs (tag % 65536)
  e.1 && decide (tag / 65536 % 16 = e.2)

/-- Key of slot i of a fabric consumer's receive ring. -/
def ringKey (c q i : Nat) : Nat := (c * 32 + q) * 16 + i
/-- Tokens of 256 bytes that one tile of a format takes in a section queue (09 R262). -/
def tileTokens (fmt : Nat) : Nat := (Fmt.tileBytes fmt + (if Fmt.isMx fmt then 32 else 0) + 255) / 256
/-- Tokens of one section's queue (09 R259). -/
def secTokens : Nat := 19456
/-- Tokens of its section's queue pool that a fabric end holds (09 R262, 10 R278). -/
def Handle.tokens (h : Handle) : Nat :=
  match h.kind with
  | .canal => 0
  | .fabric => if h.consumer then h.depth * tileTokens h.fmt else 0
  | _ => 4 * tileTokens h.fmt
/-- Tokens a section's queue pool has handed out. -/
def State.secHeld (s : State) (n : Nat) : Nat :=
  (s.cores.map (fun (c, k) => if coreSec c = n then
    ((k.handles.filter (fun (_, h) => h.state ≠ .unbound)).map (fun (_, h) => h.tokens)).sum else 0)).sum

/-- The bytes of a tile as a fabric packet carries them: rows, then scales. -/
def Tile.payload (t : Tile) : List Byte := t.rowBytes.flatten ++ t.scaleBytes
/-- The tile of a format that a payload carries. -/
def tileOfPayload (fmt : Nat) (l : List Byte) : Tile :=
  tileOfRows fmt false (chunks (Fmt.rowBytes fmt) 32 (l.take (Fmt.tileBytes fmt))) (l.drop (Fmt.tileBytes fmt))

/-! ### Opening (02 R57, R58; 03 R80) -/

/-- The stations that may use an end of a role (03 R80). -/
def ropenStn (consumer : Bool) (code : Nat) : Option Stn :=
  match consumer, stnOf code with
  | true, some .intake => some .intake
  | true, some .vector => some .vector
  | false, some .vector => some .vector
  | false, some .outflow => some .outflow
  | _, _ => none

/-- A format that no end opened by a core may have: a reserved one (02 R58), and an MX one in D12-emulation (06 R179). -/
def Core.badEndFmt (k : Core) (fmt : Nat) : Bool := Fmt.reserved fmt || (k.d12 && Fmt.isMx fmt)

/-- The first condition of 02 R58 that a request for a canal end breaks at its own core. DESIGN CHOICE (log entry 97): where a request
breaks several, STATE comes first, then DENIED, UNSUPPORTED and BOUNDS. -/
def State.ropenCheck (s : State) (c : Nat) (k : Core) (f : RopenF) (rid peer : Nat) (d : Desc) : Option Nat :=
  let p := s.partOf c
  let bytes := f.depth.toNat * (Fmt.tileBytes d.fmt + if Fmt.isMx d.fmt then 32 else 0)
  firstFail [
    (decide ((k.handle f.q.toNat).state ≠ .unbound), Status.state),
    (s.ridBound p rid f.role, Status.state),
    (!s.coreOf p peer, Status.denied),
    (k.badEndFmt d.fmt, Status.unsupported),
    (f.role && decide (f.depth.toNat = 0 ∨ 16 < f.depth.toNat), Status.bounds),
    (f.role && decide (pondBytes < d.base + bytes), Status.bounds),
    (f.role && overlaps [(d.base, d.base + bytes)] k.rings, Status.bounds)]

/-- A consumer end becomes Open, and its core acknowledges to the producer (02 R57). -/
def State.openPair (s : State) (part : Nat) (cons : Nat × Nat) (r : OpenReq) : State :=
  let k := s.core cons.1
  let h := k.handle cons.2
  let s := s.setCore cons.1 (k.setHandle cons.2 { h with state := .opened, peer := r.prodCore, peerQ := r.prodQ })
  s.sendCanal (.openAck part r.rid r.prodCore r.prodQ cons.2 h.depth)

/-- Opens a canal end whose own-core conditions hold (02 R57): a consumer pairs at once with a request present at its core,
or fails with STATE where that request names another peer or another format. -/
def State.openCanal (s : State) (c : Nat) (k : Core) (f : RopenF) (rid peer : Nat) (d : Desc) : Except Nat State :=
  let p := s.partOf c
  let stn := (ropenStn f.role f.stn.toNat).getD .outflow
  let h : Handle := { state := .pending, kind := .canal, rid, consumer := f.role, stn, peer, fmt := d.fmt, opc := k.pc, oseq := k.dseq,
                      depth := if f.role then f.depth.toNat else 0, base := if f.role then d.base else 0 }
  let k' := k.advance.setHandle f.q.toNat h
  if f.role then
    match takeFirst (fun r : OpenReq => decide (r.rid = rid)) k.reqs with
    | none => .ok (s.setCore c k')
    | some (r, rest) =>
      if r.prodCore ≠ peer ∨ r.fmt ≠ d.fmt then .error Status.state
      else .ok ((s.setCore c { k' with reqs := rest }).openPair p (c, f.q.toNat) r)
  else
    .ok ((s.setCore c k').sendCanal (.openReq p
      { rid, prodCore := c, prodQ := f.q.toNat, consCore := peer, fmt := d.fmt, pc := k.pc, seq := k.dseq }))

/-! The messages between the ends of a fabric runnel (09 R262; assumption 22). A TILE packet without payload carries what the producer
asks for, in ARG: 1 an open request with its format in [15:8], 2 the end marker, 3 a request withdrawn. An RCRED packet carries in ARG
[7:0] 1 a credit, 2 the acknowledgement of an open with the depth in [15:8], 3 that the consumer's end is unbound, 4 that the request
does not pair. -/

def ctlOpen : Nat := 1
def ctlMark : Nat := 2
def ctlWithdraw : Nat := 3
def rcCredit : Nat := 1
def rcOpen : Nat := 2
def rcGone : Nat := 3
def rcRefuse : Nat := 4

/-- A packet of type TILE or RCRED from a fabric end to the other end. -/
def State.fabricPacket (s : State) (c : Nat) (h : Handle) (typ pos arg : Nat) (payload : List Byte) : Packet :=
  { noPacket with typ, tag := s.tagOf (s.part (s.partOf c)).cid, dst := bits h.peer 0 16, dep := bits h.peer 16 8, sep := coreSec c,
                  flow := h.rid, pos, arg, payload }
/-- Sends what an end has to say to the other. -/
def State.fabricCtl (s : State) (c : Nat) (h : Handle) (typ pos arg : Nat) : State :=
  s.sendPacket (s.fabricPacket c h typ pos arg [])

/-- A consumer end becomes Open and acknowledges with its depth. -/
def State.openFabricPair (s : State) (c q : Nat) : State :=
  let k := s.core c
  let h := k.handle q
  (s.setCore c (k.setHandle q { h with state := .opened })).fabricCtl c h 5 0 (rcOpen + 256 * h.depth)

/-- Opens a fabric end (09 R262; 02 R57-R59). A producer end is Pending and sends its request. A consumer end holds its tokens, and is
Open at once where a pairing request is held at its headworks, else Pending. The peer value holds the DST layout in bits [15:0] and
the peer's section in bits [23:16]. -/
def State.openFabric (s : State) (c : Nat) (k : Core) (f : RopenF) (rid : Nat) (peer : Word) (d : Desc) : Except Nat State :=
  let p := s.partOf c
  let cid := (s.part p).cid
  let h : Handle := { state := .pending, kind := .fabric, rid, consumer := f.role, opc := k.pc, oseq := k.dseq,
                      stn := (ropenStn f.role f.stn.toNat).getD .outflow, peer := bits peer.toNat 0 24, fmt := d.fmt,
                      depth := if f.role then f.depth.toNat else 0 }
  match firstFail [
      (decide ((k.handle f.q.toNat).state ≠ .unbound), Status.state),
      (s.ridBound p rid f.role, Status.state),
      (k.badEndFmt d.fmt, Status.unsupported),
      (f.role && decide (f.depth.toNat = 0 ∨ 16 < f.depth.toNat), Status.bounds),
      (decide (secTokens < s.secHeld (coreSec c) + h.tokens), Status.quota)] with
  | some st => .error st
  | none =>
    let t := s.setCore c (k.advance.setHandle f.q.toNat h)
    if f.role then
      match takeFirst (fun r : FabReq => decide (r.sec = coreSec c ∧ r.cid = cid ∧ r.rid = rid)) s.hwk.fopens with
      | none => .ok t
      | some (r, rest) =>
        if r.peer ≠ h.peer ∨ r.fmt ≠ d.fmt then .error Status.state
        else .ok ({ t with hwk := { t.hwk with fopens := rest } }.openFabricPair c f.q.toNat)
    else .ok (t.fabricCtl c h 1 0 (ctlOpen + 256 * d.fmt))

/-- The entry of a group with an identifier on this module. -/
def State.findRg (s : State) (gid : Nat) : Option Nat :=
  (List.range 64).find? (fun e => (s.rg e).state ≠ .none ∧ (s.rg e).gid = gid)

/-- The source-map entry of a core's contribution runnel (10 R275, R278). -/
def RGroup.srcOf (g : RGroup) (part c rid : Nat) : Option SrcMap :=
  g.srcs.find? (fun m => m.part = part ∧ m.core = c ∧ m.rid = rid)

/-- Opens an end bound to a reduction group (10 R278): depth 4, at the outflow station, Open at once. -/
def State.openGroup (s : State) (c : Nat) (k : Core) (f : RopenF) (rid : Nat) (peer : Word) (d : Desc) : Except Nat State :=
  let gid := bits peer.toNat 0 14
  let gather := bit peer.toNat 62
  let p := s.partOf c
  let h : Handle := { state := .opened, kind := if gather then .gather gid else .contribution gid, rid, consumer := false,
                      stn := .outflow, peer := peer.toNat, fmt := d.fmt, depth := 4, credits := 4 }
  match s.findRg gid with
  | none => .error Status.denied
  | some e =>
    let g := s.rg e
    match firstFail [
        (decide ((k.handle f.q.toNat).state ≠ .unbound), Status.state),
        (k.badEndFmt d.fmt, Status.unsupported),
        (bits peer.toNat 14 48 != 0, Status.bounds),
        (f.role || decide (f.stn.toNat ≠ 5), Status.operand),
        (decide (secTokens < s.secHeld (coreSec c) + h.tokens), Status.quota),
        (if gather then decide (g.owner ≠ some p) else !g.srcs.any (fun m => m.part = p), Status.denied),
        (!gather && (g.srcOf p c rid).isNone, Status.state)] with
    | some st => .error st
    | none => .ok (s.setCore c (k.advance.setHandle f.q.toNat h))

/-- CT.ROPEN opens one end of a runnel (03 R80; 02 R57, R58; 09 R262; 10 R278). -/
def ropen (c : Nat) (f : RopenF) (s : State) (k : Core) : State :=
  let d := Desc.of (k.td f.td)
  let rid := (k.reg f.sa).toNat % 65536
  let peer := k.reg f.sb
  match ropenStn f.role f.stn.toNat with
  | none => s.setCore c (k.scalarFault Status.operand)
  | some _ =>
    let r := if f.kind then
        (if bit peer.toNat 63 then s.openGroup c k f rid peer d else s.openFabric c k f rid peer d)
      else match s.ropenCheck c k f rid peer.toNat d with
        | some st => .error st
        | none => s.openCanal c k f rid peer.toNat d
    match r with
    | .ok t => t
    | .error st => s.setCore c (k.scalarFault st)

/-- CT_ROPEN (02 R57). -/
def execCtRopen (core : Nat) (f : RopenF) (s : State) : Out := onScalar core s (ropen core f s)

/-- A producer's request that fails at the consumer's core: its handle is unbound and its core faults at the CT.ROPEN
(02 R58). -/
def State.failRequest (s : State) (r : OpenReq) (status : Nat := Status.state) : State :=
  let k := s.core r.prodCore
  if (k.handle r.prodQ).state = .pending ∧ (k.handle r.prodQ).rid = r.rid then
    s.setCore r.prodCore ((k.setHandle r.prodQ {}).fault status .scalar r.pc r.seq)
  else s

/-- The Pending canal consumer end of a core for a runnel: a request present at that core (02 R57). -/
def Core.awaits (k : Core) (rid : Nat) : Option Nat :=
  (k.handles.find? (fun e => e.2.state = .pending ∧ e.2.consumer ∧ e.2.kind = .canal ∧ e.2.rid = rid)).map (·.1)

/-- The router of a core's bed injects and ejects: the bed is not fenced (17 R453). -/
def State.passes (s : State) (c : Nat) : Bool := s.bedGood (coreSec c) (coreBed c)
/-- RUNNEL_OPEN_REQUEST: a producer's request reaches the core it names (02 R57). It pairs with a consumer's request present
there, fails where the two do not agree (02 R58) or with DENIED at a core whose bed has been fenced (17 R454), or stays there Pending. -/
def execRunnelOpenRequest (part rid : Nat) (s : State) : Out :=
  .next <|
    match takeFirst (fun m => match m with | .openReq p r => p == part && r.rid == rid | _ => false) s.canal with
    | some (.openReq _ r, rest) =>
      let s := { s with canal := rest }
      let k := s.core r.consCore
      if !s.passes r.consCore then s.failRequest r Status.denied
      else match k.awaits rid with
      | some q =>
        let h := k.handle q
        if h.peer ≠ r.prodCore ∨ h.fmt ≠ r.fmt then s.failRequest r
        else s.openPair part (r.consCore, q) r
      | none => s.setCore r.consCore { k with reqs := k.reqs ++ [r] }
    | _ => s

/-- OPEN_ACKNOWLEDGEMENT: the producer end becomes Open with D credits (02 R57, R61). An end that is no longer Pending has
been withdrawn, and the consumer meets an end marker (assumption 23). -/
def execOpenAcknowledgement (part rid : Nat) (s : State) : Out :=
  .next <|
    match takeFirst (fun m => match m with | .openAck p r _ _ _ _ => p == part && r == rid | _ => false) s.canal with
    | some (.openAck _ _ c q pq depth, rest) =>
      let s := { s with canal := rest }
      let k := s.core c
      let h := k.handle q
      if h.state = .pending ∧ h.rid = rid ∧ !h.consumer then
        s.setCore c (k.setHandle q { h with state := .opened, credits := depth, depth, peerQ := pq })
      else match s.findEnd part rid true with
        | some (cc, cq) => s.sendCanal (.item part rid cc cq .endMark)
        | none => s
    | _ => s

/-- A tile written into a slot of a canal ring, through the core's ingress port: its rows follow one another in the slot, and the scale
block of an MX format in its own part of the ring (02 R57, R67). -/
def Core.writeRing (k : Core) (h : Handle) (slot : Nat) (t : Tile) : Core :=
  let k := k.setBytes (h.base + slot * Fmt.tileBytes h.fmt) t.rowBytes.flatten
  if Fmt.isMx h.fmt then k.setBytes (h.base + h.depth * Fmt.tileBytes h.fmt + slot * 32) t.scaleBytes else k
/-- The ring slot of the next tile that arrives: tiles taken and tiles that wait, modulo the depth. -/
def Handle.nextSlot (h : Handle) : Nat := (h.pos + (h.ring.filter (fun x => x != .endMark)).length) % h.depth

/-- CANAL_TILE_ARRIVAL: the next tile or end marker of a runnel is written into the consumer's ring (02 R64, R67); nothing
is left to write where the end has been unbound (02 R106), or where the bed has been fenced (17 R453). -/
def execCanalTileArrival (part rid : Nat) (s : State) : Out :=
  .next <|
    match takeFirst (fun m => match m with | .item p r _ _ _ => p == part && r == rid | _ => false) s.canal with
    | some (.item _ _ c q x, rest) =>
      let s := { s with canal := rest }
      let k := s.core c
      let h := k.handle q
      if s.passes c ∧ h.state = .opened ∧ h.rid = rid ∧ h.consumer ∧ h.kind = .canal then
        let k' := match x with
          | .tile t => k.writeRing h h.nextSlot t
          | .endMark => k
        s.setCore c (k'.setHandle q { h with ring := h.ring ++ [x] })
      else s
    | _ => s

/-- CREDIT_RETURN: a credit reaches the producer (02 R61). -/
def execCreditReturn (part rid : Nat) (s : State) : Out :=
  .next <|
    match takeFirst (fun m => match m with | .credit p r _ _ _ => p == part && r == rid | _ => false) s.canal with
    | some (.credit _ _ c q n, rest) =>
      let s := { s with canal := rest }
      let k := s.core c
      let h := k.handle q
      if h.state ≠ .unbound ∧ h.rid = rid ∧ !h.consumer ∧ h.kind = .canal then
        s.setCore c (k.setHandle q { h with credits := h.credits + n })
      else s
    | _ => s

/-! ### Closing (02 R59, R62) -/

/-- A running CT.RCLOSE of a handle at a station has finished. On a core that a fault or stop drains it never resumes (03 R104). -/
def Core.rcloseDone (k : Core) (u : Stn) (q : Nat) : Core :=
  if k.stopped then k else
  match k.head u with
  | some e => match e.ins with
    | .rclose _ x => if x.toNat = q ∧ e.stage = .running then (k.setStage u .done).setWait u .none else k
    | _ => k
  | none => k

/-- The ledger of a canal runnel when its producer end goes to Unbound: credits held and on the canal make up D (02 R62);
a failed audit is a Device-fatal record with status INTEGRITY. -/
def State.auditClose (s : State) (part rid c : Nat) (h : Handle) : State :=
  let fly := (s.canal.map (fun m => match m with | .credit p r _ _ n => if p = part ∧ r = rid then n else 0 | _ => 0)).sum
  if h.credits + fly = h.depth then s
  else s.report (Rec.mk' Status.integrity Sev.devFatal Blk.sec (coreSec c) part (unitLoc c h.stn))

/-- Credits of a runnel whose producer end is gone reach nobody. -/
def State.dropCredits (s : State) (part rid : Nat) : State :=
  { s with canal := s.canal.filter (fun m => match m with | .credit p r _ _ _ => !(p == part && r == rid) | _ => true) }

/-- CLOSE_ACKNOWLEDGEMENT: the producer end goes to Unbound, and the close that waits for it may retire (02 R59). -/
def execCloseAcknowledgement (part rid : Nat) (s : State) : Out :=
  .next <|
    match takeFirst (fun m => match m with | .closeAck p r _ _ => p == part && r == rid | _ => false) s.canal with
    | some (.closeAck _ _ c q, rest) =>
      let s := { s with canal := rest }
      let k := s.core c
      let h := k.handle q
      if h.state = .closing ∧ h.rid = rid ∧ h.kind = .canal then
        ((s.setCore c ((k.setHandle q {}).rcloseDone h.stn q)).auditClose part rid c h).dropCredits part rid
      else s
    | _ => s

/-- Withdraws a producer's request: from the canal, and from the consumer's core (02 R59). -/
def State.withdrawReq (s : State) (part rid c : Nat) : State :=
  { s with
    canal := s.canal.filter (fun m => match m with | .openReq p r => !(p == part && r.rid == rid && r.prodCore == c) | _ => true)
    cores := smap {} (fun n k =>
      if s.partOf n = part then { k with reqs := k.reqs.filter (fun r => !(r.rid == rid && r.prodCore == c)) } else k) s.cores }

/-- The slots of a fabric consumer's receive ring emptied. -/
def State.clearRing (s : State) (c q : Nat) : State :=
  { s with hwk := { s.hwk with rings := s.hwk.rings.filter (fun e => !decide (ringKey c q 0 ≤ e.1 ∧ e.1 < ringKey c (q + 1) 0)) } }
/-- The next item of a fabric consumer end: the tile in its slot with the next POS (09 R262), the end marker, or nothing yet. -/
def State.fabricNext (s : State) (c q : Nat) (h : Handle) : Option RingItem :=
  let x := sget (0, noPacket) s.hwk.rings (ringKey c q (h.pos % h.depth))
  if x.1 = 1 ∧ x.2.pos = h.pos then some (.tile (tileOfPayload h.fmt x.2.payload))
  else if h.mark = some h.pos then some .endMark
  else none

/-- The ledger of an end bound to a reduction group: its credits and the tiles that wait for the engine make up 4 (10 R297, as 02 R62). -/
def State.auditRed (s : State) (c : Nat) (h : Handle) : State :=
  if h.credits + h.ring.length = 4 then s else s.report (Rec.mk' Status.integrity Sev.devFatal Blk.sec (coreSec c) (s.partOf c) (unitLoc c h.stn))

/-- What CT.RCLOSE does at the head of a station's queue (02 R59), on a canal end or a fabric end. An end bound to a reduction group has
the module's engine as its consumer: it closes once the engine has taken the tiles sent, at once where none waits or the group is gone
(10 R278, R297; assumption 22). -/
def rcloseBody (c : Nat) (s : State) (k : Core) (q : Nat) : Did :=
  let h := k.handle q
  let p := s.partOf c
  let gone := s.setCore c (k.setHandle q {})
  match h.state with
  | .unbound => .fault Status.state
  | .closing => .fault Status.state
  | .pending =>
    if h.consumer then .done gone
    else match h.kind with
    | .canal => .done (gone.withdrawReq p h.rid c)
    | .fabric => .done (gone.fabricCtl c h 1 0 ctlWithdraw)
    | _ => .done gone
  | .opened =>
    match h.kind with
    | .canal =>
      if h.consumer then
        match h.ring with
        | [] => .waits .tile
        | .tile _ :: _ => .fault Status.state
        | .endMark :: _ => .done (gone.sendCanal (.closeAck p h.rid h.peer h.peerQ))
      else
        .starts ((s.setCore c (k.setHandle q { h with state := .closing })).sendCanal (.item p h.rid h.peer h.peerQ .endMark))
          .pending
    | .fabric =>
      if h.consumer then
        match s.fabricNext c q h with
        | none => .waits .tile
        | some (.tile _) => .fault Status.state
        | some .endMark => .done ((gone.clearRing c q).fabricCtl c h 5 0 rcGone)
      else if !s.tagCurrent (s.tagOf (s.part p).cid) then .fault Status.revoked
      else .starts ((s.setCore c (k.setHandle q { h with state := .closing })).fabricCtl c h 1 h.pos ctlMark) .pending
    | .contribution gid =>
      if h.ring.isEmpty ∨ (s.findRg gid).isNone then .done (gone.auditRed c h)
      else .starts ((s.setCore c (k.setHandle q { h with state := .closing })).auditRed c h) .pending
    | .gather _ => .done (gone.auditRed c h)

/-- CT_RCLOSE (02 R59), at the station bound to its handle (03 R98). -/
def execCtRclose (core : Nat) (stn : Stn) (s : State) : Out :=
  onStation core stn s (fun i => match i with | .rclose _ q => some q | _ => none)
    (fun k _ q => rcloseBody core s k q.toNat)

/-! ### Sending and receiving (02 R59, R61, R63; 09 R262) -/

/-- The next tile of a handle at a station, where there is one. -/
inductive Taken where
  | wait (w : Wait)
  | fault (status : Nat)
  | tile (t : Tile) (k : Core) (hwk : Hwk)

/-- Takes the next tile of the consumer end bound to a handle (02 R59); a fabric runnel's tiles come in POS order
(09 R262). The position counts the tiles received (02 R63). -/
def takeTile (c : Nat) (s : State) (k : Core) (u : Stn) (q : Nat) : Taken :=
  let h := k.handle q
  match h.state with
  | .unbound => .fault Status.state
  | .pending => .wait .pending
  | .closing => .fault Status.state
  | .opened =>
    if !h.consumer ∨ h.stn ≠ u then .fault Status.operand
    else match h.kind with
    | .canal => match h.ring with
      | [] => .wait .tile
      | .endMark :: _ => .fault Status.state
      | .tile t :: r => .tile t (k.setHandle q { h with ring := r, pos := (h.pos + 1) % 2 ^ 32 }) s.hwk
    | .fabric => match s.fabricNext c q h with
      | none => .wait .tile
      | some .endMark => .fault Status.state
      | some (.tile t) => .tile t (k.setHandle q { h with pos := (h.pos + 1) % 2 ^ 32 })
          { s.hwk with rings := sset (0, noPacket) s.hwk.rings (ringKey c q (h.pos % h.depth)) (0, noPacket) }
    | _ => .fault Status.operand

/-- What a producer end says to a send. -/
def sendReady (k : Core) (u : Stn) (q : Nat) (fmt : Nat) : Option Did :=
  let h := k.handle q
  match h.state with
  | .unbound => some (.fault Status.state)
  | .closing => some (.fault Status.state)
  | .pending => some (.waits .pending)
  | .opened =>
    if h.consumer ∨ h.stn ≠ u then some (.fault Status.operand)
    else if fmt ≠ h.fmt then some (.fault Status.unsupported)
    else if h.credits = 0 then some (.waits .credit)
    else none

/-- The tag of a core's partition. -/
def State.coreTag (s : State) (c : Nat) : Nat := s.tagOf (s.part (s.partOf c)).cid

/-- Sends a tile on an Open producer end that holds a credit: on the canal, or as a TILE packet (02 R61, R63, R64; 09 R254,
R262). A gather end sends REDDN packets (10 R292). The second part says that the headworks refused the packet (09 R264). -/
def sendTile (c : Nat) (s : State) (k : Core) (e : QEntry) (q : Nat) (t : Tile) : State × Bool :=
  let h := k.handle q
  let s' := s.setCore c (k.setHandle q { h with
    credits := h.credits - 1, pos := (h.pos + 1) % 2 ^ 32, spc := e.pc, sseq := e.seq })
  match h.kind with
  | .canal => (s'.sendCanal (.item (s.partOf c) h.rid h.peer h.peerQ (.tile t)), false)
  | _ =>
    let tag := s.coreTag c
    if s.tagCurrent tag then
      (s'.sendPacket (s.fabricPacket c h 1 h.pos 0 t.payload), false)
    else (s, true)

end Sys2Proof.Machine
end

