-- ==== Sys2Proof/Machine/Scalar.lean ====
section
/-! DEFINITION. The scalar unit (03 R81-R86): arithmetic, scratchpad loads and stores, branches, tokens, descriptors,
configuration words, and the instructions that stop a core. Each meaning is the instruction with the operands it names, run on
a core that dispatches. -/

namespace Sys2Proof.Machine

/-! ### Values (03 R81) -/

/-- A Bool as a register value. -/
def flag (b : Bool) : Word := if b then 1 else 0

/-- Register arithmetic: 64-bit two's complement with wrap-around; shift counts use bits [5:0] (03 R81). -/
def aluVal (op : AluOp) (a b : Word) : Word :=
  match op with
  | .add => a + b
  | .sub => a - b
  | .and => a &&& b
  | .or => a ||| b
  | .xor => a ^^^ b
  | .sll => a <<< (b.toNat % 64)
  | .srl => a >>> (b.toNat % 64)
  | .sra => a.sshiftRight (b.toNat % 64)
  | .slt => flag (a.slt b)
  | .sltu => flag (a.ult b)
  | .min => if a.slt b then a else b
  | .max => if a.slt b then b else a
  | .mul => a * b
  | .mulhu => BitVec.ofNat 64 (a.toNat * b.toNat / 2 ^ 64)
  | .divu => if b = 0 then BitVec.allOnes 64 else a / b
  | .remu => if b = 0 then a else a % b

/-- Immediate arithmetic; IMM is sign-extended but in LUI (03 R75, R81). -/
def immVal (op : ImmOp) (a : Word) (i : BitVec 32) : Word :=
  match op with
  | .addi => a + i.signExtend 64
  | .andi => a &&& i.signExtend 64
  | .ori => a ||| i.signExtend 64
  | .xori => a ^^^ i.signExtend 64
  | .slli => a <<< (i.toNat % 64)
  | .srli => a >>> (i.toNat % 64)
  | .srai => a.sshiftRight (i.toNat % 64)
  | .lui => (i.zeroExtend 64 <<< 32) ||| (a &&& 0xFFFFFFFF#64)

/-- Branch conditions (03 R81). -/
def brTaken (op : BrOp) (a b : Word) : Bool :=
  match op with
  | .beq => a == b
  | .bne => a != b
  | .blt => a.slt b
  | .bge => !a.slt b
  | .bltu => a.ult b
  | .bgeu => !a.ult b

/-! ### Shared operations on a core that dispatches -/

/-- sd = sa op sb. -/
def alu (op : AluOp) (c : Nat) (sd sa sb : Reg) (s : State) (k : Core) : State :=
  s.setCore c (k.setReg sd (aluVal op (k.reg sa) (k.reg sb))).advance
/-- sd = sa op IMM. -/
def immOp (op : ImmOp) (c : Nat) (sd sa : Reg) (i : BitVec 32) (s : State) (k : Core) : State :=
  s.setCore c (k.setReg sd (immVal op (k.reg sa) i)).advance
/-- The Pond address of a scalar access. -/
def scalarAddr (k : Core) (sa : Reg) (i : BitVec 32) : Nat := (k.reg sa + i.signExtend 64).toNat
/-- The check of 03 R83 on the 8 bytes of a scalar access. DESIGN CHOICE (log entry 97): of an address both unaligned and out of range,
MISALIGNED is reported. -/
def scalarCheck (k : Core) (a : Nat) : Option Nat :=
  firstFail [(decide (a % 8 ≠ 0), Status.misaligned), (decide (0x9FFF8 < a), Status.bounds),
    (overlaps [(a, a + 8)] k.rings, Status.bounds)]
/-- LDS: waits while an earlier station write of the bytes has not retired (03 R83). -/
def lds (c : Nat) (sd sa : Reg) (i : BitVec 32) (s : State) (k : Core) : State :=
  let a := scalarAddr k sa i
  match scalarCheck k a with
  | some st => s.setCore c (k.scalarFault st)
  | none =>
    if k.hazardFree k.dseq ([.pond a (a + 8)], []) then
      s.setCore c (k.setReg sd (BitVec.ofNat 64 (leNat (k.bytes a 8)))).advance
    else s.setCore c (k.setWait .scalar .hazard)
/-- STS: the register named by SD goes to Pond (03 R81, R83). -/
def sts (c : Nat) (sd sa : Reg) (i : BitVec 32) (s : State) (k : Core) : State :=
  let a := scalarAddr k sa i
  match scalarCheck k a with
  | some st => s.setCore c (k.scalarFault st)
  | none =>
    if k.hazardFree k.dseq ([], [.pond a (a + 8)]) then
      s.setCore c (k.setBytes a (leBytes 8 (k.reg sd).toNat)).advance
    else s.setCore c (k.setWait .scalar .hazard)
/-- A branch: MISALIGNED where OFF is no multiple of 8, taken or not (03 R84). -/
def branch (op : BrOp) (c : Nat) (sa sb : Reg) (off : BitVec 32) (s : State) (k : Core) : State :=
  if off.toNat % 8 ≠ 0 then s.setCore c (k.scalarFault Status.misaligned)
  else s.setCore c (if brTaken op (k.reg sa) (k.reg sb) then k.retireScalar (pcAdd k.pc off.toInt) else k.advance)
/-- JMP (03 R81, R84). -/
def jmp (c : Nat) (off : BitVec 32) (s : State) (k : Core) : State :=
  if off.toNat % 8 ≠ 0 then s.setCore c (k.scalarFault Status.misaligned)
  else s.setCore c (k.retireScalar (pcAdd k.pc off.toInt))
/-- Entries of the return stack (03 R82). -/
def stackDepth : Nat := 16
/-- CALL pushes PC + 8; a full stack is RSTACK (03 R82). DESIGN CHOICE (log entry 97): a misaligned OFF is reported before a full stack. -/
def call (c : Nat) (off : BitVec 32) (s : State) (k : Core) : State :=
  if off.toNat % 8 ≠ 0 then s.setCore c (k.scalarFault Status.misaligned)
  else if stackDepth ≤ k.rstack.length then s.setCore c (k.scalarFault Status.rstack)
  else s.setCore c ({ k with rstack := pcAdd k.pc 8 :: k.rstack }.retireScalar (pcAdd k.pc off.toInt))
/-- RET pops; an empty stack is RSTACK (03 R82). -/
def ret (c : Nat) (s : State) (k : Core) : State :=
  match k.rstack with
  | [] => s.setCore c (k.scalarFault Status.rstack)
  | a :: r => s.setCore c ({ k with rstack := r }.retireScalar a)
/-- TKW waits until the token reaches sa[31:0] (03 R81, 02 R47). -/
def tkw (c : Nat) (tk : Tok) (sa : Reg) (s : State) (k : Core) : State :=
  let thr : BitVec 32 := (k.reg sa).truncate 32
  if tokReached (k.tok tk.toNat) thr then s.setCore c k.advance
  else s.setCore c (k.setWait .scalar (.token tk.toNat thr.toNat))
/-- TSET (03 R81). -/
def tset (c : Nat) (t : TReg) (sa : Reg) (s : State) (k : Core) : State := s.setCore c (k.setTd t (k.reg sa)).advance
/-- TBASE: BASE = (sa + IMM)[19:0], the other fields unchanged (03 R81). -/
def tbase (c : Nat) (t : TReg) (sa : Reg) (i : BitVec 32) (s : State) (k : Core) : State :=
  let v := (k.td t &&& ~~~0xFFFFF#64) ||| ((k.reg sa + i.signExtend 64) &&& 0xFFFFF#64)
  s.setCore c (k.setTd t v).advance
/-- TGET (03 R81). -/
def tget (c : Nat) (sd : Reg) (t : TReg) (s : State) (k : Core) : State := s.setCore c (k.setReg sd (k.td t)).advance

/-- The check of 03 R85 on a configuration word. -/
def cfgCheck (i : BitVec 32) (v : Word) : Option Nat :=
  match i.toNat with
  | 0 => if 64 ≤ v.toNat ∧ v.toNat ≤ 512 ∧ v.toNat % 32 = 0 then none else some Status.bounds
  | 1 => none
  | 2 => none
  | 3 => if v.toNat < 65536 then none else some Status.bounds
  | _ => some Status.unsupported
/-- The configuration words with one of them written (03 R85). -/
def Cfg.set (g : Cfg) (i : Nat) (v : Word) : Cfg :=
  match i with
  | 0 => { g with chunk := v }
  | 1 => { g with seed := v }
  | 2 => { g with stream := v }
  | _ => { g with ctag := v }
/-- A configuration word by its index (03 R85, R97). -/
def Cfg.get (g : Cfg) (i : Nat) : Option Word :=
  match i with
  | 0 => some g.chunk
  | 1 => some g.seed
  | 2 => some g.stream
  | 3 => some g.ctag
  | _ => none
/-- CCFG (03 R85); CHUNK is accepted in D12-emulation and has no effect there (04 R133). -/
def ccfg (c : Nat) (sa : Reg) (i : BitVec 32) (s : State) (k : Core) : State :=
  match cfgCheck i (k.reg sa) with
  | some st => s.setCore c (k.scalarFault st)
  | none => s.setCore c { k with cfg := k.cfg.set i.toNat (k.reg sa) }.advance

/-- HALT, BRK and TRAP stop dispatch; the core halts with the status once every dispatched instruction has retired
(03 R81). -/
def haltWith (status : Nat) (c : Nat) (s : State) (k : Core) : State :=
  s.setCore c { k with stop := some { drain := true, status, stn := .scalar, pc := k.pc % 65536, seq := k.dseq },
                       dseq := k.dseq + 1, waits := sset .none k.waits 0 .none }

/-! ### The instructions -/

/-- CT_ADD (03 R81). -/
def execCtAdd (core : Nat) (sd sa sb : Reg) (s : State) : Out := onScalar core s (alu .add core sd sa sb s)
/-- CT_SUB (03 R81). -/
def execCtSub (core : Nat) (sd sa sb : Reg) (s : State) : Out := onScalar core s (alu .sub core sd sa sb s)
/-- CT_AND (03 R81). -/
def execCtAnd (core : Nat) (sd sa sb : Reg) (s : State) : Out := onScalar core s (alu .and core sd sa sb s)
/-- CT_OR (03 R81). -/
def execCtOr (core : Nat) (sd sa sb : Reg) (s : State) : Out := onScalar core s (alu .or core sd sa sb s)
/-- CT_XOR (03 R81). -/
def execCtXor (core : Nat) (sd sa sb : Reg) (s : State) : Out := onScalar core s (alu .xor core sd sa sb s)
/-- CT_SLL (03 R81). -/
def execCtSll (core : Nat) (sd sa sb : Reg) (s : State) : Out := onScalar core s (alu .sll core sd sa sb s)
/-- CT_SRL (03 R81). -/
def execCtSrl (core : Nat) (sd sa sb : Reg) (s : State) : Out := onScalar core s (alu .srl core sd sa sb s)
/-- CT_SRA (03 R81). -/
def execCtSra (core : Nat) (sd sa sb : Reg) (s : State) : Out := onScalar core s (alu .sra core sd sa sb s)
/-- CT_SLT (03 R81). -/
def execCtSlt (core : Nat) (sd sa sb : Reg) (s : State) : Out := onScalar core s (alu .slt core sd sa sb s)
/-- CT_SLTU (03 R81). -/
def execCtSltu (core : Nat) (sd sa sb : Reg) (s : State) : Out := onScalar core s (alu .sltu core sd sa sb s)
/-- CT_MIN (03 R81). -/
def execCtMin (core : Nat) (sd sa sb : Reg) (s : State) : Out := onScalar core s (alu .min core sd sa sb s)
/-- CT_MAX (03 R81). -/
def execCtMax (core : Nat) (sd sa sb : Reg) (s : State) : Out := onScalar core s (alu .max core sd sa sb s)
/-- CT_MUL (03 R81). -/
def execCtMul (core : Nat) (sd sa sb : Reg) (s : State) : Out := onScalar core s (alu .mul core sd sa sb s)
/-- CT_MULHU (03 R81). -/
def execCtMulhu (core : Nat) (sd sa sb : Reg) (s : State) : Out := onScalar core s (alu .mulhu core sd sa sb s)
/-- CT_DIVU (03 R81). -/
def execCtDivu (core : Nat) (sd sa sb : Reg) (s : State) : Out := onScalar core s (alu .divu core sd sa sb s)
/-- CT_REMU (03 R81). -/
def execCtRemu (core : Nat) (sd sa sb : Reg) (s : State) : Out := onScalar core s (alu .remu core sd sa sb s)
/-- CT_ADDI (03 R81). -/
def execCtAddi (core : Nat) (sd sa : Reg) (i : BitVec 32) (s : State) : Out := onScalar core s (immOp .addi core sd sa i s)
/-- CT_ANDI (03 R81). -/
def execCtAndi (core : Nat) (sd sa : Reg) (i : BitVec 32) (s : State) : Out := onScalar core s (immOp .andi core sd sa i s)
/-- CT_ORI (03 R81). -/
def execCtOri (core : Nat) (sd sa : Reg) (i : BitVec 32) (s : State) : Out := onScalar core s (immOp .ori core sd sa i s)
/-- CT_XORI (03 R81). -/
def execCtXori (core : Nat) (sd sa : Reg) (i : BitVec 32) (s : State) : Out := onScalar core s (immOp .xori core sd sa i s)
/-- CT_SLLI (03 R81). -/
def execCtSlli (core : Nat) (sd sa : Reg) (i : BitVec 32) (s : State) : Out := onScalar core s (immOp .slli core sd sa i s)
/-- CT_SRLI (03 R81). -/
def execCtSrli (core : Nat) (sd sa : Reg) (i : BitVec 32) (s : State) : Out := onScalar core s (immOp .srli core sd sa i s)
/-- CT_SRAI (03 R81). -/
def execCtSrai (core : Nat) (sd sa : Reg) (i : BitVec 32) (s : State) : Out := onScalar core s (immOp .srai core sd sa i s)
/-- CT_LUI (03 R81). -/
def execCtLui (core : Nat) (sd sa : Reg) (i : BitVec 32) (s : State) : Out := onScalar core s (immOp .lui core sd sa i s)
/-- CT_BEQ (03 R84). -/
def execCtBeq (core : Nat) (sa sb : Reg) (off : BitVec 32) (s : State) : Out := onScalar core s (branch .beq core sa sb off s)
/-- CT_BNE (03 R84). -/
def execCtBne (core : Nat) (sa sb : Reg) (off : BitVec 32) (s : State) : Out := onScalar core s (branch .bne core sa sb off s)
/-- CT_BLT (03 R84). -/
def execCtBlt (core : Nat) (sa sb : Reg) (off : BitVec 32) (s : State) : Out := onScalar core s (branch .blt core sa sb off s)
/-- CT_BGE (03 R84). -/
def execCtBge (core : Nat) (sa sb : Reg) (off : BitVec 32) (s : State) : Out := onScalar core s (branch .bge core sa sb off s)
/-- CT_BLTU (03 R84). -/
def execCtBltu (core : Nat) (sa sb : Reg) (off : BitVec 32) (s : State) : Out := onScalar core s (branch .bltu core sa sb off s)
/-- CT_BGEU (03 R84). -/
def execCtBgeu (core : Nat) (sa sb : Reg) (off : BitVec 32) (s : State) : Out := onScalar core s (branch .bgeu core sa sb off s)
/-- CT_LDS (03 R83). -/
def execCtLds (core : Nat) (sd sa : Reg) (i : BitVec 32) (s : State) : Out := onScalar core s (lds core sd sa i s)
/-- CT_STS (03 R83). -/
def execCtSts (core : Nat) (sd sa : Reg) (i : BitVec 32) (s : State) : Out := onScalar core s (sts core sd sa i s)
/-- CT_JMP (03 R84). -/
def execCtJmp (core : Nat) (off : BitVec 32) (s : State) : Out := onScalar core s (jmp core off s)
/-- CT_CALL (03 R82). -/
def execCtCall (core : Nat) (off : BitVec 32) (s : State) : Out := onScalar core s (call core off s)
/-- CT_RET (03 R82). -/
def execCtRet (core : Nat) (s : State) : Out := onScalar core s (ret core s)
/-- CT_TKW (03 R81). -/
def execCtTkw (core : Nat) (tk : Tok) (sa : Reg) (s : State) : Out := onScalar core s (tkw core tk sa s)
/-- CT_TSET (03 R81). -/
def execCtTset (core : Nat) (t : TReg) (sa : Reg) (s : State) : Out := onScalar core s (tset core t sa s)
/-- CT_TBASE (03 R81). -/
def execCtTbase (core : Nat) (t : TReg) (sa : Reg) (i : BitVec 32) (s : State) : Out := onScalar core s (tbase core t sa i s)
/-- CT_TGET (03 R81). -/
def execCtTget (core : Nat) (sd : Reg) (t : TReg) (s : State) : Out := onScalar core s (tget core sd t s)
/-- CT_CCFG (03 R85). -/
def execCtCcfg (core : Nat) (sa : Reg) (i : BitVec 32) (s : State) : Out := onScalar core s (ccfg core sa i s)
/-- CT_NOP (03 R81). -/
def execCtNop (core : Nat) (s : State) : Out := onScalar core s (fun k => s.setCore core k.advance)
/-- CT_HALT (03 R81). -/
def execCtHalt (core : Nat) (s : State) : Out := onScalar core s (haltWith Status.ok core s)
/-- CT_BRK (03 R81). -/
def execCtBrk (core : Nat) (s : State) : Out := onScalar core s (haltWith Status.break core s)
/-- CT_TRAP (03 R81). -/
def execCtTrap (core : Nat) (s : State) : Out := onScalar core s (haltWith Status.trap core s)

end Sys2Proof.Machine
end

