-- ==== Sys2Proof/Machine/Freeze.lean ====
section
/-! DEFINITION. The on-die image of a partition: saved and cleared at a pre-emption, a cocoon or a twin hold, and put back (13
R360; 11 R319; 15 R399, R403). -/

namespace Sys2Proof.Machine

/-- What stays of a core whose on-die image is cleared: its counters, which are no part of the image (15 R399). -/
def Core.counters (k : Core) : Core :=
  { mxProms := k.mxProms, mxSats := k.mxSats, mxNspec := k.mxNspec, mxStallCc := k.mxStallCc, vcSats := k.vcSats,
    vcNspec := k.vcNspec, vcDrops := k.vcDrops, watchLow := k.watchLow, watchHigh := k.watchHigh }
/-- A saved core put back beside the counters as they stand. -/
def Core.withCounters (k live : Core) : Core :=
  { k with mxProms := live.mxProms, mxSats := live.mxSats, mxNspec := live.mxNspec, mxStallCc := live.mxStallCc,
           vcSats := live.vcSats, vcNspec := live.vcNspec, vcDrops := live.vcDrops, watchLow := live.watchLow,
           watchHigh := live.watchHigh }

/-- The cores of a partition that hold anything. -/
def State.partCores (s : State) (p : Nat) : List (Nat × Core) := s.cores.filter (fun e => s.corePart e.1 = some p)
/-- A partition is stopped with its on-die image saved: pre-empted, or in a cocoon's or twin hold's stop. -/
def State.frozen (s : State) (p : Nat) : Bool := (s.part p).saved.isSome
/-- An object that other partitions or modules use: exported, or a fabric weir (11 R301, R303, R317). -/
def SynObj.used (o : SynObj) : Bool := o.shared || o.fabric
/-- A private object of a partition. -/
def SynObj.privOf (o : SynObj) (p : Nat) : Bool := o.owner == p && !o.used

/-- The core whose receive ring a slot's key names. -/
def ringCore (key : Nat) : Nat := key / 512
/-- The receive rings of a list put back beside the others. -/
def State.putRings (s : State) (l : Store (Nat × Packet)) : State :=
  { s with hwk := { s.hwk with rings := l.foldl (fun m e => sset (0, noPacket) m e.1 e.2) s.hwk.rings } }
/-- The receive rings of a partition's cores cleared. -/
def State.dropRings (s : State) (p : Nat) : State :=
  { s with hwk := { s.hwk with rings := s.hwk.rings.filter (fun e => s.corePart (ringCore e.1) ≠ some p) } }
/-- A schedule's saved state is its state and position: the descriptor in progress is delivered again in full (07 R207). -/
def Sched.atPosition (x : Sched) : Sched := if x.state = .running then { x with cur := none, moved := 0, past := [], asked := false } else x
/-- The schedule state of a partition (15 R399). -/
def State.image (s : State) (p : Nat) : Saved :=
  { cores := s.partCores p
    scheds := (s.partSecs p).map (fun n => (n, smap {} (fun _ x => x.atPosition) (s.sec n).scheds))
    objs := s.syn.objs.filter (fun e => match e.2 with | some o => o.privOf p | none => false)
    ids := (s.synPart p).ids
    allocs := (s.partSecs p).map (fun n => (n, (s.sec n).live, (s.sec n).scrub))
    steps := ((List.range 64).filter (fun e => (s.rg e).state ≠ .none ∧ (s.rg e).part = p)).map (fun e => ((s.rg e).gid, (s.rg e).step))
    streams := ((List.range 64).filter (fun e => (s.rg e).state ≠ .none ∧ (s.rg e).part = p)).map (fun e => ((s.rg e).gid, (s.rg e).streams))
    meas := (s.part p).meas
    canal := s.canal.filter (fun m => m.key.1 = p)
    ledger := (s.part p).ledger
    rings := s.hwk.rings.filter (fun e => s.corePart (ringCore e.1) = some p) }

/-- Bytes of the schedule part of one section (15 R404): 224 MiB. -/
def schedPart : Nat := 224 * 2 ^ 20
/-- The schedule part of an image of k sections (15 R404). -/
def schedImage (x : Saved) (k : Nat) : List Byte := (Config.schedBytes x ++ List.replicate (k * schedPart) 0).take (k * schedPart)
/-- Waiters of a partition parked, or taken up again (11 R319). -/
def SynObj.park (o : SynObj) (p : Nat) (b : Bool) : SynObj :=
  { o with waiters := o.waiters.map (fun w => if w.part = p then { w with parked := b } else w) }
/-- Every object changed. -/
def State.mapObjs (s : State) (f : SynObj → SynObj) : State :=
  { s with syn := { s.syn with objs := s.syn.objs.map (fun e => (e.1, e.2.map f)) } }

/-- The partition stops: its image is saved and every on-die copy of it cleared (13 R360 steps 3 and 4); its private objects go
to Saved, and its waits on Shared ones are parked (11 R303, R319). -/
def State.freeze (s : State) (p : Nat) : State :=
  let img := s.image p
  let s := img.cores.foldl (fun s e => s.setCore e.1 e.2.counters) s
  let s := (s.partSecs p).foldl (fun s n => s.setSec n { s.sec n with scheds := [] }) s
  let s : State := { s with canal := s.canal.filter (fun m => m.key.1 ≠ p) }.dropRings p
  let s := s.mapObjs (fun o => if o.privOf p then (if o.life = .live then { o with life := .saved } else o) else o.park p true)
  let s := s.setSynPart p { s.synPart p with ids := [] }
  s.setPart p { s.part p with saved := some img }

/-- The partition goes on: the image is put back, objects and waits included (13 R360; 11 R319). -/
def State.thaw (s : State) (p : Nat) : State :=
  match (s.part p).saved with
  | none => s
  | some x =>
    let s := x.cores.foldl (fun s e => s.setCore e.1 (e.2.withCounters (s.core e.1))) s
    let s := x.scheds.foldl (fun s e => s.setSec e.1 { s.sec e.1 with scheds := e.2 }) s
    let s : State := { s with canal := s.canal ++ x.canal }.putRings x.rings
    let s := s.mapObjs (fun o => if o.privOf p then (if o.life = .saved then { o with life := .live } else o) else o.park p false)
    let s := s.setSynPart p { s.synPart p with ids := x.ids }
    (s.setPart p { s.part p with saved := none }).progress p

/-- An operation of the device on a partition's objects, whether or not the partition is stopped. -/
def State.onThawed (s : State) (p : Nat) (f : State → State × Nat) : State × Nat :=
  if s.frozen p then (let (t, st) := f (s.thaw p); (t.freeze p, st)) else f s

end Sys2Proof.Machine
end

