-- ==== Sys2Proof/Machine/SyncOps.lean ====
section
/-! DEFINITION. The SYN unit (11 R300-R321; 03 R94, R95): objects, waiters, grants, and every operation on them; the SY
instructions, WAIT_RELEASE, WEIR_RELEASE_COMPLETE, REMOTE_FENCE_SIGNAL and the fabric weir commands. -/

namespace Sys2Proof.Machine

/-! ### Objects, bindings, progress -/

/-- The object an identifier of a partition names, and its key (11 R301); 0xFFFF is reserved. -/
def State.synFind (s : State) (p vid : Nat) : Option (Nat × SynObj) :=
  let k := sget 0 (s.synPart p).ids vid
  if vid = 0xFFFF ∨ k = 0 then none else (s.obj k).map (fun o => (k, o))

/-- The identifier table of a partition: the saved one while its image is saved (11 R319). -/
def State.idsOf (s : State) (p : Nat) : Store Nat := match (s.part p).saved with
  | some x => x.ids
  | none => (s.synPart p).ids
/-- The object that an identifier of a partition names, whether or not the partition is stopped. -/
def State.synAt (s : State) (p vid : Nat) : Option (Nat × SynObj) :=
  let k := sget 0 (s.idsOf p) vid
  if vid = 0xFFFF ∨ k = 0 then none else (s.obj k).map (fun o => (k, o))
/-- An identifier of a partition bound to the object with a key, or unbound by key 0, in the table that it has. -/
def State.bindId (s : State) (p vid k : Nat) : State := match (s.part p).saved with
  | some x => s.setPart p { s.part p with saved := some { x with ids := sset 0 x.ids vid k } }
  | none => s.setSynPart p { s.synPart p with ids := sset 0 (s.synPart p).ids vid k }

/-- A partition binds the object with a key. -/
def SynPart.binds (x : SynPart) (k : Nat) : Bool := x.ids.any (fun e => e.2 == k)
/-- A state change of an object is progress of every partition that binds it (11 R323). -/
def State.touch (s : State) (k : Nat) : State :=
  (List.range 10).foldl (fun s p => if (s.synPart p).binds k then s.progress p else s) s
/-- An object changed. -/
def State.putObj (s : State) (k : Nat) (o : SynObj) : State := (s.setObj k (some o)).touch k

/-- A pre-empted partition's saved table still binds the object (11 R319). -/
def State.savedBinds (s : State) (k : Nat) : Bool :=
  s.parts.any (fun p => match p.2.saved with | some x => x.ids.any (fun e => e.2 == k) | none => false)
/-- An abandoned object with no binding left goes to Free (11 R303). -/
def State.reap (s : State) (k : Nat) : State :=
  match s.obj k with
  | some o =>
    if o.life = .abandoned ∧ !((List.range 10).any (fun p => (s.synPart p).binds k)) ∧ !s.savedBinds k then s.setObj k none else s
  | none => s
/-- An identifier unbound. -/
def State.unbind (s : State) (p vid : Nat) : State :=
  let x := s.synPart p
  let k := sget 0 x.ids vid
  (s.setSynPart p { x with ids := sset 0 x.ids vid 0 }).reap k

/-! ### Waiters and grants (11 R306, R319, R320) -/

/-- A release granted to a waiter; it is delivered by WAIT_RELEASE. ABANDONED is counted (11 SYN_CNT). -/
def State.grant (s : State) (w : Waiter) (obj status : Nat) : State :=
  let s := { s with syn := { s.syn with
    grants := sset none s.syn.grants s.syn.nextGrant (some { who := w.who, part := w.part, obj, status })
    nextGrant := s.syn.nextGrant + 1 } }
  if status = Status.abandoned then
    s.setSynPart w.part { s.synPart w.part with cAband := satAdd 16 (s.synPart w.part).cAband 1 }
  else s
/-- Grants to a list of waiters, in order. -/
def State.grantAll (s : State) (l : List Waiter) (obj status : Nat) : State := l.foldl (fun s w => s.grant w obj status) s

/-- A waiter that does not sit on a core takes a pooled record (11 R300). -/
def Who.pooled : Who → Bool
  | .core _ _ => false
  | _ => true
/-- Pooled waiter records that a partition holds. -/
def State.hwaits (s : State) (p : Nat) : Nat :=
  (s.syn.objs.map (fun o => match o.2 with
    | some o => (o.waiters.filter (fun w => w.who.pooled && w.part == p)).length
    | none => 0)).sum
/-- What an operation on SYN gives: it completes with a status, or its wait has joined the object. -/
inductive SynRes where
  | done (status : Nat)
  | waits
  deriving DecidableEq, Repr

/-- A wait joins an object; a pooled wait past its quota is QUOTA (11 R302). -/
def State.synJoin (s : State) (k : Nat) (o : SynObj) (p vid thr : Nat) (who : Who) : State × SynRes :=
  if who.pooled ∧ (s.synPart p).qHwait ≤ s.hwaits p then (s, .done Status.quota)
  else (s.setObj k (some { o with waiters := o.waiters ++ [{ who, part := p, vid, thr, parked := false }] }), .waits)

/-- The object is abandoned and every waiter released with ABANDONED (11 R303, R320). -/
def State.abandon (s : State) (k : Nat) : State :=
  match s.obj k with
  | none => s
  | some o => ((s.putObj k { o with life := .abandoned, waiters := [] }).grantAll o.waiters k Status.abandoned).reap k

/-! ### Fences (11 R305-R309) -/

/-- Values of a fence: 48 bits. -/
def fenceMod : Nat := 2 ^ 48
/-- The forward distance from one fence value to another. -/
def fenceDist (a b : Nat) : Nat := (b % fenceMod + fenceMod - a % fenceMod) % fenceMod
/-- A signal is a legal forward step (11 R305). -/
def fenceLegal (cur v : Nat) : Bool := decide (0 < fenceDist cur v ∧ fenceDist cur v < 2 ^ 47)
/-- A wait's threshold has been reached (11 R306). -/
def fenceReached (cur t : Nat) : Bool := decide (fenceDist t cur < 2 ^ 47)

/-- A signal to a Live fence (11 R305, R306): the waiters it reaches are released. The second part is the status. -/
def State.fenceSignal (s : State) (p k : Nat) (o : SynObj) (v : Nat) : State × Nat :=
  if fenceLegal o.value v then
    let v := v % fenceMod
    let go := o.waiters.filter (fun w => fenceReached v w.thr)
    ((s.putObj k { o with value := v, waiters := o.waiters.filter (fun w => !fenceReached v w.thr) }).grantAll go k Status.ok, Status.ok)
  else (s.setSynPart p { s.synPart p with cOrder := satAdd 16 (s.synPart p).cOrder 1 }, Status.order)

/-- A SYNC packet to a module, its POS counting the packets of the pair (09 R263; 11 R308). -/
def State.sendSync (s : State) (dst op part vid v tag : Nat) : State :=
  let pos := sget 0 s.hwk.syncSent dst
  let s := { s with hwk := { s.hwk with syncSent := sset 0 s.hwk.syncSent dst ((pos + 1) % 2 ^ 32) } }
  s.sendPacket { noPacket with typ := 4, tag, dst, dep := 0x10, sep := 0x10, pos,
                               arg := part % 16 + op * 16 + vid * 256, payload := leBytes 6 v ++ List.replicate 26 0 }

/-- A signal through a remote fence entry: OK once the headworks accepts the packet, REVOKED where its entry check fails
(11 R308). -/
def State.remoteSignal (s : State) (p : Nat) (o : SynObj) (v : Nat) : State × Nat :=
  let tag := s.tagOf (s.part p).cid
  if s.tagCurrent tag then (s.sendSync o.dstCoord 1 o.dstPart o.dstVid (v % fenceMod) tag, Status.ok) else (s, Status.revoked)

/-! ### Weirs (11 R314-R318) -/

/-- Offset of this module in a box along one dimension: 0 where the extent is 1. -/
def boxOff (ext : Bool) (mine origin : Nat) : Nat := if ext then (mine + 16 - origin) % 16 else 0
/-- Coordinate fields of the DST layout. -/
def cx (c : Nat) : Nat := c % 16
def cy (c : Nat) : Nat := c / 16 % 16
def cz (c : Nat) : Nat := c / 256 % 16
def cd (c : Nat) : Nat := c / 4096 % 2
def mkCoord (x y z d : Nat) : Nat := x % 16 + y % 16 * 16 + z % 16 * 256 + d % 2 * 4096

/-- A box's offset 0: coordinate 0 of each dimension of extent 16, the module's own in the others. -/
def boxRoot (b : Box) (me : Nat) : Nat :=
  mkCoord (if b.xr then 0 else cx me) (if b.yr then 0 else cy me) (if b.zr then 0 else cz me) (cd me)
/-- One step toward 0 round a ring of 16, the shorter way, the positive way where both are equal. -/
def towardZero (v : Nat) : Nat := if v = 0 then 0 else if v < 8 then v - 1 else (v + 1) % 16
/-- The member a member passes its arrival to: first along X, then Y, then Z; none at the root (11 R317). -/
def weirParent (b : Box) (m : Nat) : Option Nat :=
  if b.xr ∧ cx m ≠ 0 then some (mkCoord (towardZero (cx m)) (cy m) (cz m) (cd m))
  else if b.yr ∧ cy m ≠ 0 then some (mkCoord (cx m) (towardZero (cy m)) (cz m) (cd m))
  else if b.zr ∧ cz m ≠ 0 then some (mkCoord (cx m) (cy m) (towardZero (cz m)) (cd m))
  else none
/-- The neighbours of a module in a box. -/
def boxNeighbours (b : Box) (m : Nat) : List Nat :=
  (if b.xr then [mkCoord (cx m + 1) (cy m) (cz m) (cd m), mkCoord (cx m + 15) (cy m) (cz m) (cd m)] else []) ++
  (if b.yr then [mkCoord (cx m) (cy m + 1) (cz m) (cd m), mkCoord (cx m) (cy m + 15) (cz m) (cd m)] else []) ++
  (if b.zr then [mkCoord (cx m) (cy m) (cz m + 1) (cd m), mkCoord (cx m) (cy m) (cz m + 15) (cd m)] else [])
/-- The members that pass their arrivals to this one. -/
def weirKids (b : Box) (m : Nat) : List Nat := (boxNeighbours b m).filter (fun n => weirParent b n == some m)
/-- Members of a box in one District. -/
def boxCount (b : Box) : Nat := (if b.xr then 16 else 1) * (if b.yr then 16 else 1) * (if b.zr then 16 else 1)
/-- The same coordinate in the other District. -/
def twinOf (m : Nat) : Nat := mkCoord (cx m) (cy m) (cz m) (1 - cd m)
/-- ARG of the message with which a twin tells its spare that the hold has broken (15 R418; assumption 41). -/
def holdBrokenArg : Nat := 6
/-- The twin tells its spare that the hold has broken. -/
def State.sendHoldBroken (s : State) : State :=
  s.sendPacket { noPacket with typ := 6, dst := twinOf s.coord, dep := 0x11, sep := 0x11, arg := holdBrokenArg }

/-- A phase ends: the sense bit flips, every waiter of the old phase is released and the count is zero; the release is under
way until WEIR_RELEASE_COMPLETE (11 R314, R316). -/
def State.weirFlip (s : State) (k : Nat) (o : SynObj) : State :=
  let old := b2n o.sense
  let go := o.waiters.filter (fun w => w.thr == old)
  (s.putObj k { o with sense := !o.sense, arrived := [], upArr := [], passed := false, releasing := true,
                       waiters := o.waiters.filter (fun w => w.thr != old) }).grantAll go k Status.ok

/-- A fabric weir's release goes on to the members upstream (11 R317), then the phase ends here. The arrivals counted are audited
(11 R327). -/
def State.fweirRelease (s : State) (p k : Nat) (o : SynObj) : State :=
  let me := s.coord
  let ok := o.mask.all o.arrived.contains && (weirKids o.box me).all o.upArr.contains
  let s := if ok then s else s.report (Rec.mk' Status.integrity Sev.devFatal Blk.syn 0 p)
  let tag := s.tagOf (s.part p).cid
  ((weirKids o.box me).foldl (fun s n => s.sendSync n 3 p o.number (b2n o.sense) tag) s).weirFlip k o

/-- After an arrival: an on-die weir whose participants are all there ends its phase; a fabric weir passes one arrival on once
its cores and every member upstream have arrived, and its root releases (11 R314, R317). -/
def State.weirCheck (s : State) (p k : Nat) : State :=
  match s.obj k with
  | none => s
  | some o =>
    if !(o.mask.all (fun c => o.arrived.contains c)) then s else
    if o.kind ≠ .fweir then s.weirFlip k o else
    let me := s.coord
    if !((weirKids o.box me).all (fun n => o.upArr.contains n)) then s else
    match weirParent o.box me with
    | some n =>
      if o.passed then s
      else (s.setObj k (some { o with passed := true })).sendSync n 2 p o.number (b2n o.sense) (s.tagOf (s.part p).cid)
    | none =>
      if !o.box.tw then s.fweirRelease p k o
      else
        let s' := if o.passed then s
          else (s.setObj k (some { o with passed := true })).sendSync (twinOf me) 2 p o.number (b2n o.sense) (s.tagOf (s.part p).cid)
        if o.upArr.contains (twinOf me) then s'.fweirRelease p k { o with passed := true } else s'

/-- An arrival by a core (11 R314-R316): DENIED for a core that is no participant, STATE for a second one in the phase; one
that comes while a release is incomplete is held. -/
def State.weirArrive (s : State) (p k : Nat) (o : SynObj) (c : Nat) : State × Nat :=
  if !o.mask.contains c then (s, Status.denied)
  else if o.releasing then
    if o.held.contains c then (s, Status.state)
    else
      let s := s.putObj k { o with held := o.held ++ [c] }
      let x := s.core c
      (s.setCore c { x with weirPhase := sset 0 x.weirPhase k (b2n o.sense + 1) }, Status.ok)
  else if o.arrived.contains c then (s, Status.state)
  else
    let s := s.putObj k { o with arrived := o.arrived ++ [c] }
    let x := s.core c
    ((s.setCore c { x with weirPhase := sset 0 x.weirPhase k (b2n o.sense + 1) }).weirCheck p k, Status.ok)

/-! ### Operations (11 R303, R305-R316) -/

/-- The operation takes an object of this kind (11 R301, R307). -/
def syTakes : SyOp → SynKind → Bool
  | .fsig, .fence | .fsig, .remote | .fwait, .fence | .fwait, .remote => true
  | .sacq, .sem | .stry, .sem | .srel, .sem => true
  | .eset, .event | .erst, .event | .ewait, .event => true
  | .weir, .weir | .weir, .fweir | .warr, .weir | .warr, .fweir | .wwait, .weir | .wwait, .fweir => true
  | _, _ => false
/-- The operation gives to its object: on an Abandoned one it is STATE, where the others are ABANDONED (11 R303). -/
def syGives : SyOp → Bool
  | .fsig | .srel | .eset | .erst => true
  | _ => false

/-- Semaphore counts and release counts: 32 bits. -/
def semMax : Nat := 2 ^ 32 - 1

/-- A release of n units (11 R311). -/
def State.semRelease (s : State) (k : Nat) (o : SynObj) (n : Nat) : State × Nat :=
  let w := min n o.waiters.length
  if n = 0 then (s, Status.ok)
  else if n = semMax ∨ semMax < o.value + (n - w) then (s, Status.bounds)
  else
    ((s.putObj k { o with value := o.value + (n - w), given := o.given + n, taken := o.taken + w,
                          waiters := o.waiters.drop w }).grantAll (o.waiters.take w) k Status.ok, Status.ok)

/-- The core that a waiter sits on. -/
def Who.core? : Who → Option Nat
  | .core c _ => some c
  | _ => none

/-- An operation on a Live object that identifier vid names. -/
def State.synLive (s : State) (p vid k : Nat) (o : SynObj) (op : SyOp) (arg : Nat) (who : Who) : State × SynRes :=
  match op with
  | .fsig =>
    let (t, st) := if o.kind = .remote then s.remoteSignal p o arg else s.fenceSignal p k o arg
    (t, .done st)
  | .fwait =>
    if o.kind = .remote then (s, .done Status.unsupported)
    else if fenceReached o.value arg then (s, .done Status.ok) else s.synJoin k o p vid (arg % fenceMod) who
  | .sacq =>
    if 0 < o.value then (s.putObj k { o with value := o.value - 1, taken := o.taken + 1 }, .done Status.ok)
    else s.synJoin k o p vid 0 who
  | .stry =>
    if 0 < o.value then (s.putObj k { o with value := o.value - 1, taken := o.taken + 1 }, .done Status.ok)
    else (s.setSynPart p { s.synPart p with cUnder := satAdd 16 (s.synPart p).cUnder 1 }, .done Status.underflow)
  | .srel => let (t, st) := s.semRelease k o arg; (t, .done st)
  | .eset =>
    if o.set then (s, .done Status.ok)
    else if o.auto then
      match o.waiters with
      | [] => (s.putObj k { o with set := true }, .done Status.ok)
      | w :: r => ((s.putObj k { o with waiters := r }).grant w k Status.ok, .done Status.ok)
    else ((s.putObj k { o with set := true, waiters := [] }).grantAll o.waiters k Status.ok, .done Status.ok)
  | .erst => (if o.set then s.putObj k { o with set := false } else s, .done Status.ok)
  | .ewait =>
    if o.set then (if o.auto then s.putObj k { o with set := false } else s, .done Status.ok) else s.synJoin k o p vid 0 who
  | .warr => let (t, st) := s.weirArrive p k o (who.core?.getD 4096); (t, .done st)
  | .weir =>
    let (t, st) := s.weirArrive p k o (who.core?.getD 4096)
    if st ≠ Status.ok then (t, .done st)
    else match t.obj k with
      | some o' => if o'.sense ≠ o.sense then (t, .done Status.ok) else t.synJoin k o' p vid (b2n o.sense) who
      | none => (t, .done Status.ok)
  | .wwait =>
    match sget 0 (s.core (who.core?.getD 4096)).weirPhase k with
    | 0 => (s, .done Status.state)
    | ph => if b2n o.sense + 1 ≠ ph then (s, .done Status.ok) else s.synJoin k o p vid (ph - 1) who

/-- An operation of a partition on an identifier, by 11 R301 and R303. -/
def State.synOp (s : State) (p vid : Nat) (op : SyOp) (arg : Nat) (who : Who) : State × SynRes :=
  match s.synFind p vid with
  | none => (s, .done Status.bounds)
  | some (k, o) =>
    if !syTakes op o.kind then (s, .done Status.bounds)
    else match o.life with
      | .saved => (s, .done Status.state)
      | .abandoned => (s, .done (if syGives op then Status.state else Status.abandoned))
      | .live => s.synLive p vid k o op arg who

/-- A fence of a partition signalled by the device: a reduction group's result or gather fence, a command's SFENCE. -/
def State.signalFence (s : State) (p vid v : Nat) : State × Nat :=
  s.onThawed p (fun s => match s.synOp p vid .fsig v (.host 0 0) with
    | (t, .done st) => (t, st)
    | (t, .waits) => (t, Status.ok))

/-! ### SY instructions (03 R94, R95) -/

/-- The operand of an operation from its sb register (03 R94). -/
def syArg (op : SyOp) (w : Word) : Nat :=
  match op with
  | .fsig | .fwait => w.toNat % 2 ^ 48
  | .srel => w.toNat % 2 ^ 32
  | _ => 0

/-- The scalar unit has a SY instruction's status (03 R95): with NF = 1 it goes into sd; with NF = 0 a status other than OK halts
the core. -/
def Core.sySettle (k : Core) (nf : Bool) (sd : Reg) (tki : Option Tok) (st : Nat) : Core :=
  if nf then ((k.setReg sd (BitVec.ofNat 64 st)).incOpt tki).advance
  else if st = Status.ok then (k.incOpt tki).advance
  else k.scalarFault st

/-- A SY instruction of the scalar unit, which blocks dispatch until it completes (03 R94); the dispatch of one that waits is progress (11
R323). -/
def syScalar (op : SyOp) (tki : Option Tok) (c : Nat) (nf : Bool) (sd sa sb : Reg) (s : State) (k : Core) : State :=
  let vid := (k.reg sa).toNat % 65536
  let arg := syArg op (k.reg sb)
  match s.synOp (s.partOf c) vid op arg (.core c .scalar) with
  | (t, .done st) => t.setCore c ((t.core c).sySettle nf sd tki st)
  | (t, .waits) => (t.setCore c ({ t.core c with syPend := some ⟨nf, sd, tki⟩ }.setWait .scalar (.sync vid arg))).progress ((s.corePart c).getD 0xFF)

/-- A SY instruction at the head of a station's queue: a wait blocks that station only (03 R94). -/
def syStation (op : SyOp) (c : Nat) (u : Stn) (s : State) : Out :=
  onStation c u s (fun i => match i with | .sy o _ _ _ _ sa sb => if o = op then some (sa, sb) else none | _ => none)
    (fun _ e (sa, sb) =>
      let vid := (e.s sa).toNat % 65536
      let arg := syArg op (e.s sb)
      match s.synOp (s.partOf c) vid op arg (.core c u) with
      | (t, .done st) => if st = Status.ok then .done t else .faultIn t st
      | (t, .waits) => .starts t (.sync vid arg))

/-- A SY command where its operand says. -/
def syAt (op : SyOp) (c : Nat) (a : SyAt) (s : State) : Out :=
  match a with
  | .scalar nf sd sa sb => onScalar c s (syScalar op none c nf sd sa sb s)
  | .queued u => syStation op c u s

/-- SY_FSIG (11 R305, R308). -/
def execSyFsig (core : Nat) (a : SyAt) (s : State) : Out := syAt .fsig core a s
/-- SY_FWAIT (11 R306). -/
def execSyFwait (core : Nat) (a : SyAt) (s : State) : Out := syAt .fwait core a s
/-- SY_SACQ (11 R310). -/
def execSySacq (core : Nat) (a : SyAt) (s : State) : Out := syAt .sacq core a s
/-- SY_STRY (11 R310). -/
def execSyStry (core : Nat) (a : SyAt) (s : State) : Out := syAt .stry core a s
/-- SY_SREL (11 R311). -/
def execSySrel (core : Nat) (a : SyAt) (s : State) : Out := syAt .srel core a s
/-- SY_ESET (11 R313). -/
def execSyEset (core : Nat) (a : SyAt) (s : State) : Out := syAt .eset core a s
/-- SY_ERST (11 R313). -/
def execSyErst (core : Nat) (a : SyAt) (s : State) : Out := syAt .erst core a s
/-- SY_EWAIT (11 R313). -/
def execSyEwait (core : Nat) (a : SyAt) (s : State) : Out := syAt .ewait core a s
/-- SY_WEIR (11 R315). -/
def execSyWeir (core : Nat) (a : SyAt) (s : State) : Out := syAt .weir core a s
/-- SY_WARR (11 R315). -/
def execSyWarr (core : Nat) (a : SyAt) (s : State) : Out := syAt .warr core a s
/-- SY_WWAIT (11 R315). -/
def execSyWwait (core : Nat) (a : SyAt) (s : State) : Out := syAt .wwait core a s

/-! ### Delivery of releases -/

/-- The head of a station's queue completes a SY wait with a status (03 R94, R95). -/
def Core.syReleased (k : Core) (u : Stn) (st : Nat) : Core :=
  match k.head u with
  | some e =>
    if e.stage ≠ .running then k
    else if st = Status.ok then (k.setStage u .done).setWait u .none
    else ((k.setQ u ((k.q u).drop 1)).setWait u .none).fault st u e.pc e.seq
  | none => k

/-- A command that waits is released (12 R343): its WFENCE wait, or a SYN_WAIT in hand. -/
def Cmd.released (c : Cmd) (st : Nat) : Cmd :=
  match c.stage with
  | .waiting => if st = Status.ok then { c with stage := .ready } else { c with stage := .done, status := st }
  | _ => { c with stage := .done, status := st }

/-- A schedule that waits for its fence goes on, or to Faulted with ABANDONED (07 R206). -/
def Sched.released (x : Sched) (st : Nat) : Sched :=
  if x.state ≠ .waiting then x
  else if st = Status.ok then { x with state := .running } else { x with state := .faulted, fstat := st }

/-- A release reaches its waiter. A core that a fault or a stop drains, or that has halted, is not affected (03 R104); one that drains
after a CT.HALT is (03 R81). -/
def State.deliver (s : State) (g : Grant) : State :=
  match g.who with
  | .core c u =>
    let k := s.core c
    if k.halt ∨ k.stopped then s else
    match u with
    | .scalar => match k.syPend with
      | some p => (s.setCore c ({ k with syPend := none }.sySettle p.nf p.sd p.tki g.status)).progress g.part
      | none => s
    | _ => s.setCore c (k.syReleased u g.status)
  | .host f q =>
    let x := s.queue f q
    match x.cur with
    | some cmd => s.setQueue f q { x with cur := some (cmd.released g.status) }
    | none => s
  | .siphon n i =>
    let x := s.sec n
    s.setSec n { x with scheds := sset {} x.scheds i ((sget {} x.scheds i).released g.status) }

/-- WAIT_RELEASE: a release granted at SYN reaches its waiter (11 R306). A grant to a parked record is held until its partition
goes on (11 R319). -/
def execWaitRelease (grant : Nat) (s : State) : Out :=
  .next <|
    match sget none s.syn.grants grant with
    | none => s
    | some g =>
      if s.frozen g.part then s
      else { s with syn := { s.syn with grants := sset none s.syn.grants grant none } }.deliver g

/-- Held arrivals are counted in order once a release is complete (11 R316). -/
def State.countHeld (s : State) (p k : Nat) : List Nat → State
  | [] => s.weirCheck p k
  | c :: r => match s.obj k with
    | none => s
    | some o => (s.setObj k (some { o with arrived := o.arrived ++ [c] })).countHeld p k r

/-- WEIR_RELEASE_COMPLETE: the release has been delivered to every waiter of the phase, and the arrivals held meanwhile are
counted (11 R316). -/
def execWeirReleaseComplete (part vid : Nat) (s : State) : Out :=
  onPart part <|
    match s.synAt part vid with
    | none => s
    | some (k, o) =>
      let open_ := s.syn.grants.any (fun g => match g.2 with
        | some g => g.obj == k && !s.frozen g.part
        | none => false)
      if !o.releasing ∨ open_ then s
      else (s.putObj k { o with releasing := false, held := [] }).countHeld part k o.held

/-! ### What arrives from the fabric (11 R309, R317, R318) -/

/-- A packet taken from the headworks' inbox, where it is there. -/
def State.takeInbox (s : State) (p : Packet) : State := { s with hwk := { s.hwk with inbox := s.hwk.inbox.erase p } }

/-- A remote signal that is not applied (11 R309): counted, with a record for BOUNDS, DENIED or ORDER. -/
def State.remoteFail (s : State) (p st : Nat) : State :=
  let s := s.setSynPart p { s.synPart p with cRfail := satAdd 16 (s.synPart p).cRfail 1 }
  if st = Status.bounds ∨ st = Status.denied ∨ st = Status.order then
    s.report (Rec.mk' st Sev.partFatal Blk.syn 0 p)
  else s

/-- A remote signal applied to the fence that an identifier of a partition names (11 R309). -/
def State.remoteApply (s : State) (p vid v : Nat) : State × Nat :=
  match s.synFind p vid with
  | none => (s, Status.bounds)
  | some (k, o) =>
    if o.kind ≠ .fence then (s, Status.bounds)
    else if o.life = .abandoned then (s, Status.abandoned)
    else if !o.fabric then (s, Status.denied)
    else s.fenceSignal p k o v

/-- REMOTE_FENCE_SIGNAL: a SYNC fence signal at the destination SYN (11 R309). -/
def execRemoteFenceSignal (pkt : Packet) (s : State) : Out :=
  .next <|
    let s := s.takeInbox pkt
    let p := pkt.arg % 16
    if 10 ≤ p then s else
    if !s.tagCurrent pkt.tag then s
    else if (s.part p).state = .free ∨ (s.part p).cid ≠ pkt.tag % 65536 then s.remoteFail p Status.denied
    else match s.onThawed p (fun s => s.remoteApply p (pkt.arg / 256 % 65536) (field pkt.payload 0 6)) with
      | (t, st) => if st = Status.ok then t else t.remoteFail p st

/-- The fabric weir with a number under a tenancy: its partition, key and object. -/
def State.findFweir (s : State) (cid number : Nat) : Option (Nat × Nat × SynObj) :=
  s.syn.objs.findSome? (fun e => match e.2 with
    | some o => if o.kind = .fweir ∧ o.number = number ∧ (s.part o.owner).cid = cid ∧ (s.part o.owner).state ≠ .free then
        some (o.owner, e.1, o) else none
    | none => none)

/-- FABRIC_WEIR_ARRIVAL: an arrival from a member upstream, or from the twin's root (11 R317). -/
def execFabricWeirArrival (pkt : Packet) (s : State) : Out :=
  .next <|
    let s := s.takeInbox pkt
    if !s.tagCurrent pkt.tag then s else
    match s.findFweir (pkt.tag % 65536) (pkt.arg / 256 % 65536) with
    | some (p, k, o) =>
      if o.life ≠ .live ∨ o.upArr.contains pkt.src then s
      else (s.putObj k { o with upArr := o.upArr ++ [pkt.src] }).weirCheck p k
    | none => s

/-- FABRIC_WEIR_RELEASE: the release of a phase comes back from the root (11 R317). -/
def execFabricWeirRelease (pkt : Packet) (s : State) : Out :=
  .next <|
    let s := s.takeInbox pkt
    if !s.tagCurrent pkt.tag then s else
    match s.findFweir (pkt.tag % 65536) (pkt.arg / 256 % 65536) with
    | some (p, k, o) =>
      if o.life ≠ .live ∨ (pkt.payload.getD 0 0).toNat % 2 ≠ b2n o.sense ∨ !o.passed then s else s.fweirRelease p k o
    | none => s

/-- The command that creates a fabric weir completes (11 R317). -/
def State.fweirCreated (s : State) (k : Nat) (o : SynObj) (st : Nat) : State :=
  match o.creating with
  | none => s
  | some (f, q) =>
    let s := s.setObj k (some { o with creating := none })
    let x := s.queue f q
    match x.cur with
    | some c => s.setQueue f q { x with cur := some { c with stage := .done, status := st } }
    | none => s

/-- Members of a fabric weir, both Districts' with the twin flag. -/
def fweirMembers (b : Box) : Nat := boxCount b * (if b.tw then 2 else 1)

/-- 1 s in ns: the time that a fabric weir's members have to join (11 R317). -/
def joinTime : Nat := 1000000000
/-- The root of a fabric weir counts joins, and creation completes once every member has joined: the root answers each member with a
join, which completes its creation (11 R317; assumption 28). -/
def State.weirJoined (s : State) (p k : Nat) (o : SynObj) (srcs : List Nat) : State :=
  let o := { o with joined := (o.joined ++ srcs).dedup }
  let s := s.setObj k (some o)
  if o.joined.length < fweirMembers o.box then s
  else (o.joined.foldl (fun s m => if m = s.coord then s
    else s.sendSync m 4 p o.number 0 (s.tagOf (s.part p).cid)) s).fweirCreated k o Status.ok
/-- The joins of a weir that have come before it was created, within the time that their members wait. -/
def State.earlyJoins (s : State) (tag number : Nat) : List Nat :=
  (s.syn.joins.filter (fun j => j.tag == tag && j.number == number && decide (s.tim.up < j.at_ + joinTime))).map (·.src)

/-- FABRIC_WEIR_JOIN: a member's join reaches the root, or the root's answer a member (11 R317; assumption 28). A join that comes before
the root has created the weir is kept for it. -/
def execFabricWeirJoin (pkt : Packet) (s : State) : Out :=
  .next <|
    let s := s.takeInbox pkt
    if !s.tagCurrent pkt.tag then s else
    let n := pkt.arg / 256 % 65536
    match s.findFweir (pkt.tag % 65536) n with
    | none => { s with syn := { s.syn with
        joins := s.syn.joins.filter (fun j => s.tim.up < j.at_ + joinTime) ++ [⟨pkt.tag, n, pkt.src, s.tim.up⟩] } }
    | some (p, k, o) =>
      if s.coord ≠ boxRoot o.box s.coord ∨ (o.box.tw ∧ cd s.coord = 1) then s.fweirCreated k o Status.ok
      else s.weirJoined p k o [pkt.src]

/-- FABRIC_WEIR_JOIN_TIMEOUT: not every member joined within 1 s of the creation: it completes with TIMEOUT and the object is gone
(11 R317). -/
def execFabricWeirJoinTimeout (part vid : Nat) (s : State) : Out :=
  onPart part <|
    match s.synAt part vid with
    | some (k, o) =>
      if o.kind = .fweir ∧ o.creating.isSome ∧ o.since + joinTime ≤ s.tim.up then
        ((s.fweirCreated k o Status.timeout).bindId part vid 0).setObj k none
      else s
    | none => s

/-- FABRIC_WEIR_MEMBER_FAILURE: the weir is abandoned on the members that go on, and their waiters released with ABANDONED
(11 R318). -/
def execFabricWeirMemberFailure (part vid : Nat) (s : State) : Out :=
  onPart part <|
    match s.synAt part vid with
    | some (k, o) => if o.kind = .fweir ∧ o.life = .live then s.abandon k else s
    | none => s

end Sys2Proof.Machine
end

