-- ==== Sys2Proof/Machine/Caps.lean ====
section
/-! DEFINITION. The identity word (03 R97) and the capability table (12 R337); CP_ID, CP_CAP, CP_CFG, CP_MODE. -/

namespace Sys2Proof.Machine

/-- The module's logical coordinate as a core's instructions read it: that of the start of its launch, so that the value stays fixed for
the launch (03 R97). -/
def State.launchCoord (s : State) (c : Nat) : Nat := match (s.core c).launch with
  | some l => l.coord
  | none => s.coord

/-- A queue of the function runs. -/
def Fn.anyRuns (x : Fn) : Bool := x.queues.any (fun e => e.2.state = .running)
/-- The logical coordinate in a function's capability table: that of the time before a route commit while any queue of it has run on since
(12 R337). -/
def State.capCoord (s : State) (f : Nat) : Nat := if (s.fn f).anyRuns then (s.fn f).locHold.getD s.coord else s.coord
/-- The module's coordinate is about to change: a function with a queue that runs keeps the one it reads. -/
def State.holdLoc (s : State) : State :=
  (List.range 11).foldl (fun s f =>
    if (s.fn f).anyRuns && (s.fn f).locHold.isNone then s.setFn f { s.fn f with locHold := some s.coord } else s) s

/-- The serviceable sections are about to change: PF0 with a queue that runs keeps the set it reads (12 R337). -/
def State.holdSecs (s : State) : State :=
  if (s.fn 0).anyRuns && (s.fn 0).secHold.isNone then s.setFn 0 { s.fn 0 with secHold := some s.mon.sections } else s
/-- The serviceable sections in PF0's capability table: those of the time before a fence while any queue of it has run on since (12
R337). -/
def State.capSecs (s : State) : Nat := if (s.fn 0).anyRuns then (s.fn 0).secHold.getD s.mon.sections else s.mon.sections

/-- The identity word of a core (03 R97), with the logical coordinates of its module. -/
def State.identity (s : State) (c : Nat) : Nat :=
  let p := s.partOf c
  let me := s.launchCoord c
  c % 4096 + place 12 (p % 16) + place 16 (s.ordinal p (coreSec c)) + place 20 (s.partSecs p).length +
    place 32 (cx me) + place 36 (cy me) + place 40 (cz me) + place 44 (cd me)

/-- The section set of a partition as bits. -/
def secBits (l : List Nat) : Nat := (l.map (fun n => 2 ^ n)).sum

/-- The host path in GB/s by port width (12 R337; 17 R449): 110, 55 and 27 whole GB/s, none without a port. -/
def hostPath (width : Nat) : Nat :=
  match width with
  | 0 => 110
  | 1 => 55
  | 2 => 27
  | _ => 0

/-- Capability entry i (12 R337) as a partition sees it, or as PF0 does for none; none for an index beyond the table. On PF0 the
section count is that of the serviceable sections, and the partition, mode and catchment fields are free values (assumption 29). -/
def State.capEntry (s : State) (p : Option Nat) (d12 : Bool) (me i : Nat) : Option Nat :=
  let c := match p with | some p => (s.part p).catchC | none => Config.pf0Catch.toNat
  let secs := match p with | some p => s.partSecs p | none => (List.range 10).filter (bit s.capSecs)
  match i with
  | 0 => some (0xD020 + place 16 1 + place 24 9)
  | 1 => some (secBits secs + place 10 secs.length + (match p with
      | some p => place 14 p + place 18 (b2n (s.part p).pooled) + place 19 (b2n d12)
      | none => place 14 Config.pf0Mode.toNat))
  | 2 => some (121241 - c + place 17 c)
  | 3 => some (s.aqf.gib + place 16 64)
  | 4 => some (if d12 then 0x381F else 0x3FFF)
  | 5 => some (64 + place 10 512 + place 20 256)
  | 6 => some (2000 + place 12 1200 + place 24 2300)
  | 7 => some (63 + place 6 16 + place 11 4096 + place 24 (hostPath s.mon.width))
  | 8 => some (cx me + place 4 (cy me) + place 8 (cz me) + place 12 (cd me) + place 13 64)
  | _ => none

/-- CP.ID (03 R97). -/
def cpIdOp (c : Nat) (sd : Reg) (s : State) (k : Core) : State :=
  s.setCore c (k.setReg sd (BitVec.ofNat 64 (s.identity c))).advance
/-- CP.CAP (03 R97). -/
def cpCapOp (c : Nat) (sd : Reg) (i : BitVec 32) (s : State) (k : Core) : State :=
  match s.capEntry (s.corePart c) k.d12 (s.launchCoord c) i.toNat with
  | some v => s.setCore c (k.setReg sd (BitVec.ofNat 64 v)).advance
  | none => s.setCore c (k.scalarFault Status.bounds)
/-- CP.CFG (03 R97). -/
def cpCfgOp (c : Nat) (sd : Reg) (i : BitVec 32) (s : State) (k : Core) : State :=
  match k.cfg.get i.toNat with
  | some v => s.setCore c (k.setReg sd v).advance
  | none => s.setCore c (k.scalarFault Status.unsupported)
/-- CP.MODE: numerics mode and census mode of the launch (03 R97, 13 R356). -/
def cpModeOp (c : Nat) (sd : Reg) (s : State) (k : Core) : State :=
  s.setCore c (k.setReg sd (BitVec.ofNat 64 (b2n k.d12 + 2 * b2n k.censusOn))).advance

/-- CP_ID (03 R97). -/
def execCpId (core : Nat) (sd : Reg) (s : State) : Out := onScalar core s (cpIdOp core sd s)
/-- CP_CAP (03 R97, 12 R337). -/
def execCpCap (core : Nat) (sd : Reg) (i : BitVec 32) (s : State) : Out := onScalar core s (cpCapOp core sd i s)
/-- CP_CFG (03 R97). -/
def execCpCfg (core : Nat) (sd : Reg) (i : BitVec 32) (s : State) : Out := onScalar core s (cpCfgOp core sd i s)
/-- CP_MODE (03 R97). -/
def execCpMode (core : Nat) (sd : Reg) (s : State) : Out := onScalar core s (cpModeOp core sd s)

end Sys2Proof.Machine
end

