-- ==== Sys2Proof/Machine/Fec.lean ====
section
/-! DEFINITION. The forward error correction of a link port (09 R242): the RS(544,514) code over GF(2^10), its encoder and its decoder, the
dealing of a codeword's
symbols over the lanes, and the PAM4 Gray mapping. The field polynomial x^10 + x^3 + 1, the generator's roots α^0 to α^29 and the bit order
within a symbol are those of IEEE 802.3 (PRESUMED, log entry 105). -/

namespace Sys2Proof

/-- A symbol times x. -/
def gf10Double (a : Nat) : Nat := if a < 512 then 2 * a else 2 * a ^^^ 0x409
/-- The product of two symbols; n counts the bits of the second that are left. -/
def gf10MulFrom (a b : Nat) : Nat → Nat → Nat
  | 0, acc => acc
  | n + 1, acc =>
    let acc := gf10Double acc
    gf10MulFrom a b n (if b / 2 ^ n % 2 = 1 then acc ^^^ a else acc)
/-- The product of two symbols. -/
def gf10Mul (a b : Nat) : Nat := gf10MulFrom a b 10 0

/-- A polynomial, highest coefficient first, times x - r. -/
def rsTimesRoot (g : List Nat) (r : Nat) : List Nat :=
  List.zipWith (· ^^^ ·) (g ++ [0]) (0 :: g.map (gf10Mul r))
/-- The generator polynomial with n roots from r on. -/
def rsGenFrom : Nat → Nat → List Nat → List Nat
  | 0, _, g => g
  | n + 1, r, g => rsGenFrom n (gf10Double r) (rsTimesRoot g r)
/-- The 31 coefficients of the generator polynomial, highest first. -/
def rsGen : List Nat := rsGenFrom 30 1 [1]
/-- One message symbol divided in: the remainder so far, highest first. -/
def rsStep (gen rem : List Nat) (m : Nat) : List Nat :=
  let f := m ^^^ rem.headD 0
  List.zipWith (fun a g => a ^^^ gf10Mul f g) (rem.drop 1 ++ [0]) (gen.drop 1)
/-- The codeword of 514 message symbols: the message, then 30 parity symbols. -/
@[irreducible] def rsEncode (msg : List Nat) : List Nat :=
  msg ++ msg.foldl (rsStep rsGen) (List.replicate 30 0)

/-- Message symbols of a codeword. -/
def rsMsg : Nat := 514
/-- The symbols that lane i carries: every eighth, from the i-th on. -/
def laneSyms (cw : List Nat) (i : Nat) : List Nat := (cw.zipIdx.filter (fun e => e.2 % 8 = i)).map Prod.fst
/-- The five PAM4 levels of a symbol, its lowest bits first, Gray mapped: 00, 01, 11, 10 are levels 0 to 3. -/
def pam4 (x : Nat) : List Nat :=
  (List.range 5).map (fun k =>
    let a := x / 2 ^ (2 * k) % 2
    let b := x / 2 ^ (2 * k + 1) % 2
    2 * a + (a ^^^ b))
/-- What the eight lanes send of a codeword. -/
def dealLanes (cw : List Nat) : List (List Nat) := (List.range 8).map (fun i => ((laneSyms cw i).map pam4).flatten)

/-! ### The receiver -/

/-- The symbol that five PAM4 levels stand for. -/
def pam4Sym (l : List Nat) : Nat :=
  (l.zipIdx.map (fun e => let a := e.1 / 2 % 2; (a + 2 * (a ^^^ (e.1 % 2))) * 2 ^ (2 * e.2))).sum
/-- A lane's n-th symbol. -/
def laneSym (l : List Nat) (n : Nat) : Nat := pam4Sym ((l.drop (5 * n)).take 5)
/-- The codeword that eight lanes carry, with the lane order and the inverted lanes of the receiver corrected (09 R243). -/
def gatherLanes (rev : Bool) (inv : Nat) (lanes : List (List Nat)) : List Nat :=
  let right := lanes.zipIdx.map (fun e => if inv / 2 ^ e.2 % 2 = 1 then e.1.map (3 - ·) else e.1)
  let right := if rev then right.reverse else right
  (List.range 544).map (fun j => laneSym (right.getD (j % 8) []) (j / 8))

/-- α to the n-th power. -/
def gf10Pow : Nat → Nat
  | 0 => 1
  | n + 1 => gf10Double (gf10Pow n)
/-- The inverse of a symbol: its 1,022nd power. -/
def gf10Inv (a : Nat) : Nat :=
  let r := (List.range 8).foldl (fun r _ => gf10Mul (gf10Mul r r) a) a
  gf10Mul r r
/-- A polynomial, lowest coefficient first, at a point. -/
def gfEval (p : List Nat) (x : Nat) : Nat := p.foldr (fun c a => gf10Mul a x ^^^ c) 0
/-- The sum of two polynomials, lowest coefficient first. -/
def gfAdd : List Nat → List Nat → List Nat
  | [], q => q
  | p, [] => p
  | a :: p, b :: q => (a ^^^ b) :: gfAdd p q
/-- The product of two polynomials. -/
def gfMulPoly : List Nat → List Nat → List Nat
  | [], _ => []
  | a :: p, q => gfAdd (q.map (gf10Mul a)) (0 :: gfMulPoly p q)
/-- The 30 syndromes of a received word, highest coefficient first. -/
def rsSyndromes (w : List Nat) : List Nat := (List.range 30).map (fun j => w.foldl (fun a c => gf10Mul a (gf10Pow j) ^^^ c) 0)

/-- A step of the search for the error locator: the locator, the one before its last change, its length, the discrepancy of that change, and
the steps since. -/
structure Locator where
  c : List Nat := [1]
  b : List Nat := [1]
  len : Nat := 0
  d : Nat := 1
  m : Nat := 1
/-- The locator after the n-th syndrome (Berlekamp and Massey). -/
def Locator.step (syn : List Nat) (x : Locator) (n : Nat) : Locator :=
  let d := (List.range (x.len + 1)).foldl (fun a i => if i ≤ n then a ^^^ gf10Mul (x.c.getD i 0) (syn.getD (n - i) 0) else a) 0
  if d = 0 then { x with m := x.m + 1 }
  else
    let f := gf10Mul d (gf10Inv x.d)
    let c := gfAdd x.c (List.replicate x.m 0 ++ x.b.map (gf10Mul f))
    if 2 * x.len ≤ n then { c, b := x.c, len := n + 1 - x.len, d, m := 1 } else { x with c, m := x.m + 1 }
/-- The value of the error at a place, counted from the last symbol (Forney). -/
def rsErrorAt (loc ev : List Nat) (p : Nat) : Nat :=
  let x := gf10Pow ((1023 - p) % 1023)
  let der := gfEval (loc.zipIdx.map (fun e => if e.2 % 2 = 1 then e.1 else 0)) x
  gf10Mul (gfEval ev x) (gf10Inv der)
/-- A received word corrected, and the number of symbols that were wrong; none where more than 15 are (09 R242). -/
@[irreducible] def rsDecode (w : List Nat) : Option (List Nat × Nat) :=
  let syn := rsSyndromes w
  if syn.all (· == 0) then some (w, 0)
  else
    let x := (List.range 30).foldl (Locator.step syn) {}
    let places := (List.range 544).filter (fun p => gfEval x.c (gf10Pow ((1023 - p) % 1023)) == 0)
    let ev := (gfMulPoly syn x.c).take 30
    let fixed := w.zipIdx.map (fun e => let p := 543 - e.2; if places.contains p then e.1 ^^^ rsErrorAt x.c ev p else e.1)
    if x.len ≤ 15 ∧ places.length = x.len ∧ (rsSyndromes fixed).all (· == 0) then some (fixed, x.len) else none

/-- The sign of a PAM4 level. -/
def levelSign (x : Nat) : Int := if x < 2 then -1 else 1
/-- The sign-sign LMS step of the tap d symbols back over the symbols of a codeword, by lane the signs of the receiver's error and the levels
sent (09 R252). -/
def lmsStep (errs : List (List Int)) (levels : List (List Nat)) (d : Nat) : Int :=
  -((List.zipWith (fun e l => (List.zipWith (fun (a : Int) x => a * levelSign x) (e.drop d) l).sum) errs levels).sum)

end Sys2Proof
end

