-- ==== Sys2Proof/Machine/Intake.lean ====
section
/-! DEFINITION. The intake station (03 R87) and the reads of DVAs that it shares with the siphon and the host: IN_LDT, IN_LDD,
IN_RCV. -/

namespace Sys2Proof.Machine

/-! ### Reads of DVAs -/

/-- The lines of a section's window that a range touches, as offsets of their first bytes. -/
def linesOf (off n : Nat) : List Nat := (rangePieces off n).map (·.1)

/-- A page that a reader of section n needs is in the catchment or fully fetched. -/
def State.pageHere (s : State) (p n dva : Nat) : Bool :=
  match s.regionAt p dva with
  | none => true
  | some (owner, _) =>
    (s.findPage (s.catchSecs p n) owner (pageOf dva)).isSome ||
    (match s.aqf.fetch n owner (pageOf dva) with
     | some f => f.complete || f.bad ≠ 0
     | none => false)
/-- The pieces of ranges in Aquifer space, one for each page that each touches. -/
def aqPieces (l : List (Nat × Nat)) : List (Nat × Nat) :=
  (l.filter (fun r => touchesAq r.1 r.2 && r.2 ≠ 0)).flatMap (fun r => pagesOf r.1 r.2)
/-- Looks every page up and starts the fetch of each that is neither in the catchment nor under way. -/
def State.askPages (s : State) (rd : Reader) (p n : Nat) (l : List (Nat × Nat)) : State :=
  l.foldl (fun s r => match s.regionAt p r.1 with
    | none => s
    | some (owner, _) =>
      let hit := s.findPage (s.catchSecs p n) owner (pageOf r.1)
      let s := s.noteLook rd n owner (pageOf r.1) hit
      if hit.isNone && (s.aqf.fetch n owner (pageOf r.1)).isNone then s.startFetch p n owner (pageOf r.1) else s) s
/-- Reads every piece; the first that fails gives the status. A bypass fetch that several pieces take is let go with the last. -/
def State.takePages (s : State) (rd : Reader) (p n : Nat) : List (Nat × Nat) → State × LineRes
  | [] => (s, .done Status.ok)
  | r :: rest =>
    if rest.any (fun x => pageOf x.1 == pageOf r.1) && (s.findPage (s.catchSecs p n) ((s.regionAt p r.1).getD (0, 0)).1
        (pageOf r.1)).isNone then s.takePages rd p n rest
    else match s.pageReady rd p n r.1 r.2 with
      | (t, .done st) => if st = Status.ok then t.takePages rd p n rest else (t, .done st)
      | (t, .wait) => (t, .wait)

/-- Reads the Reservoir lines of ranges, in order. -/
def State.readRanges (s : State) (cls : ReqClass) (p : Nat) : List (Nat × Nat) → State × LineRes
  | [] => (s, .done Status.ok)
  | (a, n) :: r => match s.placeOf p a with
    | .res m off => match s.readLines cls p m (linesOf off n) with
      | (t, .done st) => if st = Status.ok then t.readRanges cls p r else (t, .done st)
      | (t, .wait) => (t, .wait)
    | _ => s.readRanges cls p r
/-- The bytes of a range that passed its checks, for a reader of section n. -/
def State.dvaBytes (s : State) (p n a len : Nat) : List Byte :=
  match s.placeOf p a with
  | .res m off => s.resBytes m off len
  | .aq => s.aqBytes p n a len
  | .none => []

/-- A read of ranges of a partition's DVA space by a reader of section n, all checked (07 R199; 08 R223): it waits for pages
and lines, or gives the status of the first line or page that failed. -/
def State.readDva (s : State) (rd : Reader) (p n : Nat) (l : List (Nat × Nat)) : State × LineRes :=
  let ps := aqPieces l
  if ps.all (fun r => s.pageHere p n r.1) then
    match s.takePages rd p n ps with
    | (t, .done st) =>
      if st ≠ Status.ok then (t.lookedUp rd, .done st) else
      match t.readRanges rd.cls p l with
      | (t, .done st) => (t.lookedUp rd, .done st)
      | (t, .wait) => (t, .wait)
    | (t, .wait) => (t, .wait)
  else (s.askPages rd p n ps, .wait)

/-! ### IN -/

/-- Formats that the intake station accepts: every one but the slot image (02 R52); no MX in D12-emulation (06 R179). -/
def intakeOk (d12 : Bool) (fmt : Nat) : Bool := fmt != Fmt.w48 && !(d12 && Fmt.isMx fmt)

/-- IN_LDT: a Pond tile into a local runnel (03 R87; 02 R51-R55, R60). -/
def execInLdt (c : Nat) (s : State) : Out :=
  onStation c .intake s (fun i => match i with | .inn (.ldt t d) _ => some (t, d) | _ => none)
    (fun k e (t, d) =>
      let x := e.d t
      match firstFail [(Fmt.reserved x.fmt, Status.unsupported), (!x.okBounds, Status.bounds),
          (!intakeOk k.d12 x.fmt, Status.unsupported), (overlaps x.ranges k.rings, Status.bounds)] with
      | some st => .fault st
      | none => if k.room (lspec d) then .done (s.setCore c (k.putLocal (lspec d) (k.readTile x))) else .waits .credit)

/-- The checks of 02 R53 on the descriptor that IN.LDD names: its BASE and SCB are ignored (03 R87), so its STRIDE alone is
checked. DEDUCED (log entry 92). -/
def Desc.okStride (d : Desc) : Bool := decide (d.stride % 16 = 0 ∧ d.stride ≠ 0xFFFF ∧ Fmt.rowBytes d.fmt ≤ d.stride)

/-- IN_LDD: a Reservoir or Aquifer tile into a local runnel (03 R87). Every byte is checked before any line is read; a line
that fails gives its status and the tile is not delivered. Once its reads are under way it is not checked again: it completes with the
contents it was checked against (07 R192). -/
def execInLdd (c : Nat) (s : State) : Out :=
  onStation c .intake s (fun i => match i with | .inn (.ldd t d sa sb sc) _ => some (t, d, sa, sb, sc) | _ => none)
    (fun k e (t, d, sa, sb, sc) =>
      let x := e.d t
      let p := s.partOf c
      let n := coreSec c
      let rs := tileRanges x.fmt (e.s sa) (e.s sb) (e.s sc)
      match firstFail [(Fmt.reserved x.fmt, Status.unsupported), (!x.okStride, Status.bounds),
          (!intakeOk k.d12 x.fmt, Status.unsupported), (!e.resumes && !rs.all (fun r => s.coreRange p n r.1 r.2), Status.bounds)] with
      | some st => .fault st
      | none =>
        if !k.room (lspec d) then .waits .credit else
        match (if e.resumes then s else s.lookedUp (.core c)).beforeScrub e.past n (fun s => s.readDva (.core c) p n rs) with
        | (t, .wait) => .waitsIn t .none
        | (t, .done st) =>
          if st ≠ Status.ok then .faultIn t st else
          let tile := tileOfRows x.fmt x.tr ((rs.take 32).map (fun r => s.dvaBytes p n r.1 r.2))
            (((rs.drop 32).map (fun r => s.dvaBytes p n r.1 r.2)).flatten)
          .done (t.setCore c (k.putLocal (lspec d) tile)))

/-- IN_RCV: the next tile of a consumer end into a local runnel (03 R87; 02 R59). -/
def execInRcv (c : Nat) (s : State) : Out :=
  onStation c .intake s (fun i => match i with | .inn (.rcv d q) _ => some (d, q) | _ => none)
    (fun k _ (d, q) =>
      let h := k.handle q.toNat
      if h.state ≠ .unbound ∧ h.stn ≠ .intake then .fault Status.operand
      else if h.state ≠ .unbound ∧ !intakeOk k.d12 h.fmt then .fault Status.unsupported
      else match takeTile c s k .intake q.toNat with
      | .wait w => .waits w
      | .fault st => .fault st
      | .tile t k' hw =>
        if !k.room (lspec d) then .waits .credit
        else .done ({ s with hwk := hw }.setCore c ((k'.noteTake .intake q.toNat).putLocal (lspec d) t)))

end Sys2Proof.Machine
end

