-- ==== Sys2Proof/Machine/Group.lean ====
section
/-! DEFINITION. Reduction groups (10): exact sums in the engines, commit and drop of a step, the gather; RG_JOIN,
RG_JOIN_TIMEOUT, REDUP_ARRIVAL, SHARD_COMPLETE, SHARD_REPORT, COMMIT, REDDN_ARRIVAL, CONTRIBUTOR_LOST. -/

namespace Sys2Proof.Machine

/-! ### Shape, shards, streams (10 R275, R286) -/

/-- Extents of a group's box. -/
def RGroup.ex (g : RGroup) : Nat := if g.xr then 16 else 1
def RGroup.ey (g : RGroup) : Nat := if g.yr then 16 else 1
def RGroup.ez (g : RGroup) : Nat := if g.zr then 16 else 1
/-- Shards of a group in one District. -/
def RGroup.shards (g : RGroup) : Nat := g.ex * g.ey * g.ez
/-- Tiles of the group vector. -/
def RGroup.tiles (g : RGroup) : Nat := g.shards * g.s
/-- The coordinate that owns a tile's shard, in this module's District. -/
def RGroup.ownerOf (g : RGroup) (me tile : Nat) : Nat :=
  let r := tile / g.s
  mkCoord (if g.xr then r % g.ex else cx me) (if g.yr then r / g.ex % g.ey else cy me)
    (if g.zr then r / (g.ex * g.ey) else cz me) (cd me)
/-- The shard of a coordinate. -/
def RGroup.shardOf (g : RGroup) (c : Nat) : Nat :=
  (if g.xr then cx c else 0) + g.ex * ((if g.yr then cy c else 0) + g.ey * (if g.zr then cz c else 0))
/-- A tile travels in the + direction if its offset in its shard is even (10 R286). -/
def RGroup.plus (g : RGroup) (tile : Nat) : Bool := decide (tile % g.s % 2 = 0)

/-- A stage's ring is there: 1 X, 2 Y, 3 Z, 4 twin. -/
def RGroup.stageOn (g : RGroup) (stage : Nat) : Bool :=
  match stage with
  | 1 => g.xr
  | 2 => g.yr
  | 3 => g.zr
  | 4 => g.tw
  | _ => false
/-- The coordinate component that a ring varies. -/
def ringPos (stage c : Nat) : Nat := if stage = 1 then cx c else if stage = 2 then cy c else cz c
/-- The neighbour in a ring, one step in a direction. -/
def ringNext (stage c : Nat) (plus : Bool) : Nat :=
  let d := if plus then 1 else 15
  if stage = 1 then mkCoord (cx c + d) (cy c) (cz c) (cd c)
  else if stage = 2 then mkCoord (cx c) (cy c + d) (cz c) (cd c)
  else mkCoord (cx c) (cy c) (cz c + d) (cd c)
/-- The start of a ring for a tile: one position upstream of the sink (10 R286). -/
def ringStart (sink : Nat) (plus : Bool) : Nat := if plus then (sink + 1) % 16 else (sink + 15) % 16

/-! ### Packets (10 R283, R284) -/

/-- A sum of one tile: contributors, scale exponent (signed byte as a number), 32-bit integers. -/
structure TSum where
  cnt : Nat
  e : Nat
  vals : List Int
  deriving DecidableEq, Repr

/-- A null contribution (10 R293). -/
def TSum.null : TSum := { cnt := 0, e := 0, vals := List.replicate 1024 0 }

/-- Element width code of a sum (10 R284). -/
def redWidth (sign1 : Bool) (cnt : Nat) : Nat :=
  if sign1 ∧ cnt = 1 then 3
  else if cnt * (if sign1 then 1 else 127) ≤ 127 then 0
  else if cnt * (if sign1 then 1 else 127) ≤ 32767 then 1 else 2
/-- Bytes of a payload by width. -/
def redLen (lw : Nat) : Nat :=
  match lw with
  | 0 => 1024
  | 1 => 2048
  | 2 => 4096
  | _ => 128
/-- The payload of a sum at a width. -/
def redPayload (lw : Nat) (l : List Int) : List Byte :=
  if lw = 3 then leBytes 128 ((l.zipIdx.map (fun x => if x.1 < 0 then 2 ^ x.2 else 0)).sum)
  else (l.map (fun v => leBytes (2 ^ lw) (encodeInt (8 * 2 ^ lw) v))).flatten
/-- The integers of a payload (10 R284, R285). -/
def redVals (lw : Nat) (b : List Byte) : List Int :=
  if lw = 3 then (let x := leNat b; (List.range 1024).map (fun i => if bit x i then -1 else 1))
  else (chunks (2 ^ lw) 1024 b).map (fun c => signedOf (8 * 2 ^ lw) (leNat c))

/-- A partial sum sent as a REDUP packet (10 R283). -/
def State.sendRedup (s : State) (g : RGroup) (tile dst : Nat) (v : TSum) : State :=
  let lw := redWidth g.sign1 v.cnt
  s.sendPacket { noPacket with
    typ := 2, tag := s.tagOf g.tenancy, dst, dep := 0x12, sep := 0x12, flow := 7 * g.gid + tile % 7, pos := tile,
    cnt := v.cnt, arg := v.e % 256 + lw * 256 + g.step % 65536 * 65536, payload := redPayload lw v.vals }

/-- Two inputs of a tile added as 32-bit integers; none where their scales differ (10 R282, R285). A null contribution carries
no scale. -/
def TSum.add (a b : TSum) : Option TSum :=
  if a.cnt ≠ 0 ∧ b.cnt ≠ 0 ∧ a.e ≠ b.e then none
  else some { cnt := a.cnt + b.cnt, e := if a.cnt = 0 then b.e else a.e, vals := List.zipWith (· + ·) a.vals b.vals }

/-! ### Headers, fences, step ends (10 R289-R294) -/

/-- 32-bit integers as bytes. -/
def intBytes (l : List Int) : List Byte := (l.map (fun v => leBytes 4 (encodeInt 32 v))).flatten
/-- The bytes of a result tile, as INT32. -/
def headerBytes (cnt expected step status : Nat) (sign1 : Bool) : List Byte :=
  intBytes ([(cnt : Int), expected, step, status, b2n sign1] ++ List.replicate 1019 0)

/-- Bytes written at a DVA of a partition through the sluices; none where a line waits (08 R225). -/
def State.writeDva (s : State) (cls : ReqClass) (p dva : Nat) (l : List Byte) : Option (State × Nat) :=
  match s.placeOf p dva with
  | .res n off => match s.writePieces cls p n (cutLines off l) with
    | (t, .done st) => some (t, st)
    | (_, .wait) => none
  | _ => some (s, Status.bounds)

/-- The entry goes to None; its counters stay until they are read. -/
def RGroup.clear (g : RGroup) : RGroup :=
  { commits := g.commits, short := g.short, fulldrop := g.fulldrop, discard := g.discard, stallL := g.stallL, stallP := g.stallP }

/-- The step ends: what the engine held of it is gone, its outcome is kept among the last 16, a contributor that has joined again counts
from the next step on, and a Closing group has no step more (10 R277, R293, R294; 15 R407). -/
def RGroup.endStep (g : RGroup) (cnt status : Nat) : RGroup :=
  let r : StepResult := { step := g.step, cnt, expected := g.expect, status }
  let rs := g.results ++ [r]
  let outs := g.outs.filter (fun p => !g.back.contains p)
  { g with
    step := g.step + 1, partials := g.partials.filter (fun x => g.step < x.step), seen := g.seen.filter (fun x => g.step < x.1)
    sums := [], taken := [], streams := [], mismatch := false, reported := false, reports := [], commitDue := false
    outs, back := [], lostCnt := g.lostCnt - g.backCnt, backCnt := 0, nullC := !outs.isEmpty
    lostMods := g.lostMods.filter (fun c => !g.backMods.contains c), backMods := []
    ended := g.state == .closing, results := rs.drop (rs.length - 16) }
/-- A Closing group whose last step has ended goes to None; its outcomes stay for the step ledger. -/
def RGroup.closed (g : RGroup) : RGroup :=
  { g.clear with results := g.results, gid := g.gid, tenancy := g.tenancy, sign1 := g.sign1 }

/-- Tiles that an engine discards are counted (10 R294). -/
def RGroup.discards (g : RGroup) (n : Nat) : RGroup := { g with discard := satAdd 26 g.discard n }

/-- The live contributors of this module: those not counted out. -/
def RGroup.live (g : RGroup) : List Nat := ((g.srcs.map (·.part)).dedup).filter (fun p => !g.outs.contains p)
/-- The group has a step open. -/
def RGroup.open_ (g : RGroup) : Bool := (g.state == .active || g.state == .closing) && !g.ended

/-- This module holds a coordinate's data: not a spare that has not joined (09 R269, 10 R289; 15 R414). -/
def State.writesShard (s : State) : Bool := decide (s.hwk.role = .active ∨ s.join.phase = .replaying)
/-- The headers that an owner has still to write are written in order, and the result fence is signalled to s + 1 once each is committed; a
line that waits leaves the rest for the group's next event (10 R290, R291, R294). -/
def State.putHeaders (e : Nat) : List StepResult → State → State
  | [], s => s
  | r :: rest, s =>
    let g := s.rg e
    match g.owner with
    | none => s.setRg e { g with headers := [] }
    | some p =>
      if !s.writesShard then s.setRg e { g with headers := [] } else
      match s.writeDva .core p g.resDva (headerBytes r.cnt r.expected r.step r.status g.sign1) with
      | none => s
      | some (t, st) =>
        let t := t.setRg e { t.rg e with headers := rest }
        let t := if st = Status.ok then (t.signalFence p g.resFence ((r.step + 1) % fenceMod)).1 else t
        State.putHeaders e rest t
/-! ### Contribution runnels (10 R278, R279, R294) -/

/-- The step and tile of the n-th tile of a contribution runnel (10 R279). -/
def SrcMap.at (m : SrcMap) (n : Nat) : Nat × Nat := (n / m.count, m.first + n % m.count)

/-- The sum that a tile in a contribution runnel stands for. -/
def tileSum (sign1 : Bool) (t : Tile) : TSum :=
  { cnt := 1, e := t.scales.getD 0 0,
    vals := t.elems.map (fun x => if sign1 then (if x.toNat % 2 = 1 then -1 else 1) else signedOf 8 x.toNat) }

/-- Where a contributor's tiles wait for the engine: at an end that a core holds, or, with no handle number, left by an end that its core's
halt has unbound (03 R106). -/
structure Source where
  part : Nat
  core : Nat
  q : Option Nat
  h : Handle
  deriving DecidableEq, Repr

/-- The sources of a group, those left first. -/
def State.sources (s : State) (e : Nat) : List Source :=
  let g := s.rg e
  g.left.map (fun x => ⟨x.1, x.2.1, none, x.2.2⟩) ++
    (s.cores.map (fun (c, k) => (k.handles.filter (fun x => x.2.kind = .contribution g.gid ∧ x.2.state ≠ .unbound)).map
      (fun x => (⟨s.partOf c, c, some x.1, x.2⟩ : Source)))).flatten
/-- The engine takes tiles from the front of a source: their credits go back, and the end of a close that waited for the last is unbound, its
ledger audited (02 R59, R62; 10 R297). -/
def State.takeFrom (s : State) (e : Nat) (x : Source) (n : Nat) : State :=
  let h : Handle := { x.h with ring := x.h.ring.drop n, credits := x.h.credits + min n x.h.ring.length }
  match x.q with
  | none =>
    let g := s.rg e
    let rest := g.left.erase (x.part, x.core, x.h)
    s.setRg e { g with left := if h.ring.isEmpty then rest else (x.part, x.core, h) :: rest }
  | some q =>
    let k := s.core x.core
    if h.state = .closing ∧ h.ring.isEmpty then (s.setCore x.core ((k.setHandle q {}).rcloseDone h.stn q)).auditRed x.core h
    else s.setCore x.core (k.setHandle q h)
/-- Tiles that the engine discards from the front of a source are counted (10 R294). -/
def State.discardFrom (s : State) (e : Nat) (x : Source) (n : Nat) : State :=
  let t := s.takeFrom e x n
  t.setRg e ((t.rg e).discards n)
/-- The tiles at the front of a source whose step is past, or all of a contributor that is counted out. -/
def RGroup.oldTiles (g : RGroup) (x : Source) : Nat :=
  match g.srcOf x.part x.core x.h.rid with
  | none => 0
  | some m =>
    if g.outs.contains x.part then x.h.ring.length
    else ((List.range x.h.ring.length).takeWhile (fun j =>
      decide ((m.at ((x.h.pos + 2 ^ 32 - x.h.ring.length + j) % 2 ^ 32)).1 % 2 ^ 32 < g.step % 2 ^ 32))).length
/-- The engine discards the tiles of past steps and of contributors that are counted out (10 R293, R294). -/
def State.discardOld (s : State) (e : Nat) : State :=
  (s.sources e).foldl (fun s x =>
    let n := (s.rg e).oldTiles x
    if n = 0 then s else s.discardFrom e x n) s
/-- What a group that ends leaves in its contribution runnels is discarded (10 R294; assumption 121). -/
def State.emptyRunnels (s : State) (e : Nat) : State :=
  (s.sources e).foldl (fun s x => if x.h.ring.isEmpty then s else s.discardFrom e x x.h.ring.length) s
/-- The source at whose front a contributor's part of a tile of the open step stands, and that tile. -/
def State.headOf (s : State) (e tile p : Nat) : Option (Source × Tile) :=
  let g := s.rg e
  (g.srcs.find? (fun m => m.part = p ∧ m.first ≤ tile ∧ tile < m.first + m.count)).bind (fun m =>
    ((s.sources e).find? (fun x => x.part = p ∧ x.core = m.core ∧ x.h.rid = m.rid)).bind (fun x =>
      match x.h.ring with
      | .tile t :: _ =>
        let a := m.at ((x.h.pos + 2 ^ 32 - x.h.ring.length) % 2 ^ 32)
        if a.1 % 2 ^ 32 = g.step % 2 ^ 32 ∧ a.2 = tile then some (x, t) else none
      | _ => none))

/-- An entry goes to None. -/
def State.clearRg (s : State) (e : Nat) : State := let t := s.emptyRunnels e; t.setRg e (t.rg e).clear

/-! ### The end of a step (10 R290-R294) -/

/-- An entry's headers are written, and a Closing group that has ended goes to None. -/
def State.settle (s : State) (e : Nat) : State :=
  let t := State.putHeaders e (s.rg e).headers s
  if (t.rg e).ended ∧ (t.rg e).headers.isEmpty then let t := t.emptyRunnels e; t.setRg e (t.rg e).closed else t

/-- A step dropped in full (10 R293, R294): the tiles that the engine holds of it, and those in contribution runnels, are discarded; the
owner's header has CNT 0 and the status, its result fence is signalled, the result tiles are not written. -/
def State.dropStep (s : State) (e status : Nat) : State :=
  let g := s.rg e
  let g' := (g.endStep 0 status).discards (g.partials.filter (fun x => x.step = g.step)).length
  let t := s.setRg e { g' with fulldrop := satAdd 16 g.fulldrop 1, headers := g.headers ++ [⟨g.step, 0, g.expect, status⟩] }
  (t.discardOld e).settle e

/-! ### The engine (10 R285-R287) -/

/-- Reduction-store tokens of 256 bytes that a held partial sum takes (10 R287). -/
def redTokens (lw : Nat) : Nat := (redLen lw + 255) / 256
/-- Tokens that the partial sums of one stream hold. -/
def RGroup.heldBy (g : RGroup) (stage : Nat) (plus : Bool) : Nat :=
  ((g.partials.filter (fun x => x.upstream && x.stage == stage && (g.plus x.tile == plus))).map (·.tokens)).sum
/-- Tokens that a stream holds at most. -/
def streamTokens : Nat := 760
/-- Tokens of a group entry (10 R297). -/
def entryTokens : Nat := 6080
/-- Free reduction-store tokens of an entry. -/
def RGroup.free (g : RGroup) : Nat := entryTokens - (g.partials.map (·.tokens)).sum

/-- The sum that a held input is. -/
def Partial.sum (x : Partial) : TSum := ⟨x.cnt, x.e, x.vals⟩
/-- The engine's entry with a held input taken out. -/
def RGroup.remove (g : RGroup) (x : Partial) : RGroup := { g with partials := g.partials.erase x }
/-- The local input of the open step that waits at a stream. -/
def RGroup.slot (g : RGroup) (stage : Nat) (plus : Bool) : Option Partial :=
  g.partials.find? (fun x => x.step = g.step ∧ x.stage = stage ∧ !x.upstream ∧ g.plus x.tile = plus)
/-- The partial sum of a tile of the open step that has come to a stage from upstream. -/
def RGroup.input (g : RGroup) (tile stage : Nat) : Option Partial :=
  g.partials.find? (fun x => x.step = g.step ∧ x.tile = tile ∧ x.stage = stage ∧ x.upstream)

/-- The first stage from n on that the group has, 5 where none is left. -/
def RGroup.firstOn (g : RGroup) (n : Nat) : Nat := ((List.range 5).find? (fun k => decide (n ≤ k) && g.stageOn k)).getD 5
/-- The tiles of a shard come to a stage on this module: it was the sink of the rings before (10 R286). -/
def RGroup.mine (g : RGroup) (me stage shard : Nat) : Bool :=
  let o := g.ownerOf me (shard * g.s)
  (decide (stage ≤ 1) || cx o == cx me) && (decide (stage ≤ 2) || cy o == cy me) && (decide (stage ≤ 3) || cz o == cz me)
/-- The first tile of a stream in the shards from one on. -/
def RGroup.fromShard (g : RGroup) (me stage : Nat) (plus : Bool) (r0 : Nat) : Option Nat :=
  if !plus ∧ g.s < 2 then none
  else ((List.range g.shards).find? (fun r => decide (r0 ≤ r) && g.mine me stage r)).map (fun r => r * g.s + b2n (!plus))
/-- The next tile of a stream, in ascending order (10 R287). Stage 0 is the local stage. -/
def RGroup.nextTile (g : RGroup) (me stage : Nat) (plus : Bool) : Option Nat :=
  match sget 0 g.streams (2 * stage + b2n plus) with
  | 0 => g.fromShard me stage plus 0
  | i + 1 => if i % g.s + 2 < g.s then some (i + 2) else g.fromShard me stage plus (i / g.s + 1)
/-- A stream has processed a tile. -/
def RGroup.past (g : RGroup) (stage : Nat) (plus : Bool) (tile : Nat) : RGroup :=
  { g with streams := sset 0 g.streams (2 * stage + b2n plus) (tile + 1) }
/-- A stage from n on can take a tile's sum: its stream holds no local input yet. -/
def RGroup.takes (g : RGroup) (tile n : Nat) : Bool := g.firstOn n == 5 || (g.slot (g.firstOn n) (g.plus tile)).isNone

/-- This module is the group's controller: the route master of the District, in a twin-District system of District 0 (10 R290). -/
def State.controls (s : State) (g : RGroup) : Bool := s.hwk.master && (!g.tw || s.hwk.pos.d == 0)
/-- Two inputs on different scales: the step is dropped in full on the controller's order, and nothing more is added until then
(10 R282, R293). -/
def State.mismatched (s : State) (e : Nat) : State := s.setRg e { s.rg e with mismatch := true }
/-- A sum of this module goes to the next stage from n on, as its local input, or is the shard's sum. At the twin stage it is also sent to
the twin (10 R286). -/
def State.intoStage (e tile n : Nat) (v : TSum) (s : State) : State :=
  let g := s.rg e
  let k := g.firstOn n
  if k = 5 then s.setRg e { g with sums := sset (0, []) g.sums (tile % g.s) (v.cnt, v.vals) }
  else
    let s := s.setRg e { g with partials := g.partials ++ [⟨g.step, tile, k, false, v.cnt, v.e, v.vals, 0⟩] }
    if k = 4 then s.sendRedup g tile (twinOf s.coord) v else s
/-- The sum of some inputs; none where two scales differ. -/
def sumAll (l : List TSum) : Option TSum := l.foldl (fun a b => a.bind (fun x => x.add b)) (some TSum.null)

/-- The local stage takes the next tile of a direction (10 R286, R293): the tile of every live contributor, once all are there and the next
stage is free. With no live contributor it supplies a null contribution. -/
def State.pullTile (e : Nat) (plus : Bool) (s : State) : Option State :=
  let g := s.rg e
  (g.nextTile s.coord 0 plus).bind (fun tile =>
    if !g.takes tile 1 then none
    else (g.live.mapM (s.headOf e tile)).map (fun hs =>
      let t := hs.foldl (fun s x => s.takeFrom e x.1 1) s
      let t := t.setRg e { (t.rg e).past 0 plus tile with taken := (g.taken ++ g.live).dedup }
      match sumAll (hs.map (fun x => tileSum g.sign1 x.2)) with
      | none => t.mismatched e
      | some v => t.intoStage e tile 1 v))
/-- A ring or the twin stage processes the next tile of a direction (10 R286, R287): the start of a ring sends its local input on; a later
member waits for both inputs and sends the sum on; the sink, and the twin stage, keep it for the next stage. -/
def State.ringTile (e stage : Nat) (plus : Bool) (s : State) : Option State :=
  let g := s.rg e
  let me := s.coord
  (g.nextTile me stage plus).bind (fun tile =>
    let sink := ringPos stage (g.ownerOf me tile)
    let keeps := stage == 4 || ringPos stage me == sink
    match g.slot stage plus with
    | none => none
    | some l =>
      if l.tile ≠ tile then none
      else if stage ≠ 4 ∧ ringPos stage me = ringStart sink plus then
        some ((s.setRg e ((g.remove l).past stage plus tile)).sendRedup g tile (ringNext stage me plus) l.sum)
      else match g.input tile stage with
      | none => none
      | some u =>
        if keeps ∧ !g.takes tile (stage + 1) then none else
        let t := s.setRg e (((g.remove l).remove u).past stage plus tile)
        match l.sum.add u.sum with
        | none => some (t.mismatched e)
        | some w => some (if keeps then t.intoStage e tile (stage + 1) w else t.sendRedup g tile (ringNext stage me plus) w))
/-- The streams of a group: the local stage, three rings and the twin stage, in both directions. -/
def streamsOf : List (Nat × Bool) := [(4, true), (4, false), (3, true), (3, false), (2, true), (2, false), (1, true), (1, false), (0, true), (0, false)]
/-- One tile of one stream that can go on; none where every stream waits. -/
def State.pumpOne (e : Nat) (s : State) : Option State :=
  let g := s.rg e
  if !g.open_ ∨ g.mismatch then none
  else streamsOf.findSome? (fun x =>
    if x.1 = 0 then s.pullTile e x.2 else if g.stageOn x.1 then s.ringTile e x.1 x.2 else none)
/-- Every stream goes on as far as it can. -/
def State.pump (e : Nat) : Nat → State → State
  | 0, s => s
  | n + 1, s => match s.pumpOne e with
    | some t => State.pump e n t
    | none => s
/-- The engine of an entry goes on as far as its inputs let it; the controller's own drops a step whose scales differ at once. -/
def State.runEngine (s : State) (e : Nat) : State :=
  let go (s : State) : State := State.pump e (10 * ((s.rg e).tiles + 1)) (s.discardOld e)
  let t := go (s.settle e)
  if (t.rg e).mismatch ∧ t.controls (t.rg e) then go (t.dropStep e Status.state) else t

/-! ### The commands -/

/-- The RG_CREATE command of an entry completes. -/
def State.rgCreated (s : State) (g : RGroup) (status : Nat) : State :=
  match g.cmd with
  | none => s
  | some (f, q) =>
    let x := s.queue f q
    match x.cur with
    | some c => s.setQueue f q { x with cur := some { c with stage := .done, status } }
    | none => s

/-- The step at which a group of a partition starts: 0, or the next step that a restored group entry holds (10 R277; 15 R405). -/
def Part.startStep (x : Part) (gid : Nat) : Nat := ((x.steps.find? (fun h => h.1 = gid)).map (·.2)).getD 0
/-- Each stream's next tile in the step that a group starts with: 0, or the one that a cocoon has restored (15 R399). -/
def Part.startStreams (x : Part) (gid : Nat) : Store Nat := ((x.streams.find? (fun h => h.1 = gid)).map (·.2)).getD []
/-- RG_JOIN: the controller's JOIN moves a Joining group to Active, at step 0, or at the step that a restored group entry holds, and Create
completes; where the JOIN is for another step, members give different ones, and Create completes with STATE (10 R277; 15 R405). -/
def execRgJoin (gid expect step : Nat) (s : State) : Out :=
  .next <|
    match s.findRg gid with
    | none => s
    | some e =>
      let g := s.rg e
      if g.state ≠ .joining then s else
      let x := s.part g.part
      let s := s.setPart g.part { x with steps := x.steps.filter (fun h => h.1 ≠ gid), streams := x.streams.filter (fun h => h.1 ≠ gid) }
      if step ≠ x.startStep gid then (s.rgCreated g Status.state).clearRg e
      else ((s.rgCreated g Status.ok).setRg e { g with state := .active, step, expect, cmd := none, streams := x.startStreams gid }).runEngine e

/-- RG_JOIN_TIMEOUT: no JOIN within 1 s of Create (10 R277). -/
def execRgJoinTimeout (gid : Nat) (s : State) : Out :=
  .next <|
    match s.findRg gid with
    | none => s
    | some e =>
      let g := s.rg e
      if g.state ≠ .joining ∨ s.tim.up < g.since + 1000000000 then s
      else (s.rgCreated g Status.timeout).clearRg e

/-- The stage a partial sum arrives for, by the neighbour that sent it. -/
def redStage (me src : Nat) : Nat :=
  if cd src ≠ cd me then 4 else if cx src ≠ cx me then 1 else if cy src ≠ cy me then 2 else 3

/-- A discarded stale packet is counted at the port it came through; the engines' own count no port. -/
def State.isStale (s : State) (p : Packet) : Bool := !s.tagCurrent p.tag

/-- How far the step of a REDUP packet lies ahead of the open one, modulo 2^16: 2^15 and more is a step that has ended. -/
def RGroup.ahead (g : RGroup) (pkt : Packet) : Nat := (bits pkt.arg 16 16 + 65536 - g.step % 65536) % 65536
/-- A partial sum that the engine has, or has no place for: it is discarded. -/
def RGroup.unwanted (g : RGroup) (pkt : Packet) (stage : Nat) : Bool :=
  g.seen.contains (g.step + g.ahead pkt, pkt.pos, stage) || !g.stageOn stage || decide (g.tiles ≤ pkt.pos)
/-- Reduction-store tokens that a REDUP packet takes. -/
def pktTokens (pkt : Packet) : Nat := redTokens (bits pkt.arg 8 2)
/-- A partial sum finds its tokens in the reduction store, beside those that packets of its stream delivered before it will take, or needs
none (10 R287). -/
def State.redupRoom (s : State) (pkt : Packet) : Bool :=
  match s.findRg (pkt.flow / 7) with
  | none => true
  | some e =>
    let g := s.rg e
    let stage := redStage s.coord pkt.src
    let same (x : Packet) : Bool := x.typ == 2 && x.flow / 7 == g.gid && redStage s.coord x.src == stage && g.plus x.pos == g.plus pkt.pos
    s.isStale pkt || decide (32768 ≤ g.ahead pkt) || g.unwanted pkt stage ||
      decide (g.heldBy stage (g.plus pkt.pos) + ((s.hwk.inbox.filter same).map pktTokens).sum + pktTokens pkt ≤ streamTokens)

/-- REDUP_ARRIVAL: a partial sum reaches the engine (10 R286, R287), which places it by step and POS. A stale one is discarded (09 R264);
one of a committed or dropped step is discarded and counted (10 R294); one that finds no token stays where it is. PACKET_EGRESS hands over only
one that finds its tokens, so that it waits on its link credits. -/
def execRedupArrival (pkt : Packet) (s : State) : Out :=
  .next <|
    match s.findRg (pkt.flow / 7) with
    | none => s.takeInbox pkt
    | some e =>
      let g := s.rg e
      let t := s.takeInbox pkt
      if s.isStale pkt then t else
      let stage := redStage s.coord pkt.src
      let lw := bits pkt.arg 8 2
      let d := g.ahead pkt
      if 32768 ≤ d then t.setRg e (g.discards 1)
      else if g.unwanted pkt stage then t
      else if streamTokens < g.heldBy stage (g.plus pkt.pos) + pktTokens pkt then s
      else
        let v : TSum := ⟨pkt.cnt, pkt.arg % 256, redVals lw pkt.payload⟩
        (t.setRg e { g with
          seen := g.seen ++ [(g.step + d, pkt.pos, stage)]
          partials := g.partials ++ [⟨g.step + d, pkt.pos, stage, true, v.cnt, v.e, v.vals, pktTokens pkt⟩] }).runEngine e

/-- A shard report at the controller (10 R290): a wrong CNT drops the step in full, with a Device-fatal INTEGRITY record where the
reporting module is the controller's own; the step is due to commit once every shard of both Districts has reported. -/
def State.shardReport (s : State) (e shard : Nat) (twin : Bool) (cnt : Nat) : State :=
  let g := s.rg e
  if cnt ≠ g.expect - g.lostCnt then
    let s := if shard = g.shardOf s.coord ∧ twin = false then s.report (Rec.mk' Status.integrity Sev.devFatal Blk.hwk 0) else s
    (s.dropStep e Status.dropped).runEngine e
  else
    let rs := if g.reports.any (fun (r : Nat × Bool × Nat) => r.1 == shard && r.2.1 == twin) then g.reports else g.reports ++ [(shard, twin, cnt)]
    s.setRg e { g with reports := rs, commitDue := decide (g.shards * (if g.tw then 2 else 1) ≤ rs.length) }

/-- The result tiles of a shard, written in order, with the status of the first that fails; none where a line waits. -/
def State.writeShard (p dva : Nat) : List (List Int) → State → Option (State × Nat)
  | [], s => some (s, Status.ok)
  | v :: r, s => match s.writeDva .core p dva (intBytes v) with
    | none => none
    | some (t, st) => if st = Status.ok then State.writeShard p (dva + 4096) r t else some (t, st)

/-- SHARD_COMPLETE: every tile of the owner's shard has its sum: it is written to the result object and, once every line is committed,
reported (10 R289). A spare that has not joined reports without writing. -/
def execShardComplete (gid : Nat) (s : State) : Out :=
  .next <|
    match s.findRg gid with
    | none => s
    | some e =>
      let g := s.rg e
      let have_ : List (Nat × List Int) := (List.range g.s).map (fun k => sget (0, []) g.sums k)
      if g.reported ∨ g.sums.length < g.s ∨ g.s = 0 then s else
      let cnt := (have_.head?.map (·.1)).getD 0
      let t := match g.owner with
        | some p => if s.writesShard then State.writeShard p (g.resDva + 4096) (have_.map Prod.snd) s else some (s, Status.ok)
        | none => some (s, Status.ok)
      match t with
      | none => s
      | some (t, st) =>
        if st ≠ Status.ok then t else
        let t := t.setRg e { g with reported := true }
        if s.controls g then t.shardReport e (g.shardOf s.coord) false cnt else t

/-- SHARD_REPORT: a shard report reaches the controller (10 R290). -/
def execShardReport (gid shard : Nat) (twin : Bool) (cnt : Nat) (s : State) : Out :=
  .next <|
    match s.findRg gid with
    | none => s
    | some e => if !s.controls (s.rg e) ∨ !(s.rg e).open_ then s else s.shardReport e shard twin cnt

/-- COMMIT: the owner writes header tile 0 and, once it is committed, signals the result fence to s + 1; the next step opens (10 R290,
R291). -/
def execCommit (gid : Nat) (s : State) : Out :=
  .next <|
    match s.findRg gid with
    | none => s
    | some e =>
      let g := s.rg e
      if !g.open_ ∨ (s.controls g ∧ !g.commitDue) ∨ (g.owner.isSome ∧ !g.reported) then s else
      let cnt := g.expect - g.lostCnt
      let status := if cnt = g.expect then Status.ok else Status.dropped
      (s.setRg e { g.endStep cnt status with
        commits := satAdd 16 g.commits 1, short := if cnt < g.expect then satAdd 16 g.short 1 else g.short
        headers := g.headers ++ [⟨g.step, cnt, g.expect, status⟩] }).runEngine e

/-! ### Gather (10 R292) -/

/-- A gather tile sent to the next member of a ring, where that is not the ring's origin; it enters the headworks from the section of the core
that sent it, or from the engines, which pass it on. -/
def State.gatherOn (s : State) (g : RGroup) (stage : Nat) (pkt : Packet) (port : Nat) : State :=
  let me := s.coord
  let nxt := ringNext stage me (g.plus pkt.pos)
  if !g.stageOn stage ∨ ringPos stage nxt = ringPos stage (g.ownerOf me pkt.pos) then s
  else s.sendFrom port { pkt with dst := nxt, dep := 0x12, sep := 0x12 }
/-- A gather tile passed on: round the ring it came through and into the later ones, Z, then Y, then X. -/
def State.gatherPass (s : State) (g : RGroup) (stage : Nat) (pkt : Packet) (port : Nat := 0x12) : State :=
  let s := if stage = 3 ∨ stage = 4 then s.gatherOn g 3 pkt port else s
  let s := if 2 ≤ stage then s.gatherOn g 2 pkt port else s
  s.gatherOn g 1 pkt port

/-- The step that a gather packet's 16 bits name: the one nearest to the open step. -/
def RGroup.gatherStep (g : RGroup) (pkt : Packet) : Nat :=
  let d := (bits pkt.arg 16 16 + 65536 - g.step % 65536) % 65536
  if d < 32768 then g.step + d else g.step + d - 65536
/-- A gather tile that has been stored already (09 R262). -/
def RGroup.gatherDup (g : RGroup) (pkt : Packet) : Bool :=
  decide (g.gatherStep pkt < g.gatherDone) || g.gathered.contains (g.gatherStep pkt, pkt.pos)
/-- A gather tile written into this module's gather map; the gather fence is signalled to s + 1 with the last of step s. The
second part is false where a line waits. A tile beyond the object that its segment lies in is not written (assumption 122). -/
def State.gatherStore (s : State) (e : Nat) (pkt : Packet) : State × Bool :=
  let g := s.rg e
  match g.gather.find? (fun x => decide (x.first ≤ pkt.pos ∧ pkt.pos < x.first + x.count)) with
  | none => (s, true)
  | some seg =>
    let at_ := (pkt.pos - seg.first) * pkt.payload.length
    if s.hostRange g.gPart seg.dva (at_ + pkt.payload.length) = .none then (s, true) else
    match s.writeDva .core g.gPart (seg.dva + at_) pkt.payload with
    | none => (s, false)
    | some (t, st) =>
      if st ≠ Status.ok then (t, true) else
      let step := g.gatherStep pkt
      let l := g.gathered ++ [(step, pkt.pos)]
      if (l.filter (fun x => x.1 = step)).length < g.tiles then (t.setRg e { g with gathered := l }, true)
      else ((t.setRg e { g with gathered := l.filter (fun x => x.1 ≠ step), gatherDone := max g.gatherDone (step + 1) }).signalFence
        g.gPart g.gFence ((step + 1) % fenceMod) |>.1, true)

/-- REDDN_ARRIVAL: a gather tile is written into the member's gather map and passed on; a second copy is discarded (10 R292; 09 R262). -/
def execReddnArrival (pkt : Packet) (s : State) : Out :=
  .next <|
    match s.findRg (pkt.flow / 7) with
    | none => s.takeInbox pkt
    | some e =>
      let g := s.rg e
      if s.isStale pkt ∨ g.gatherDup pkt then s.takeInbox pkt else
      match s.gatherStore e pkt with
      | (_, false) => s
      | (t, true) => (t.takeInbox pkt).gatherPass g (redStage s.coord pkt.src) pkt

/-! ### Lost and found contributors (10 R293-R295; 15 R415) -/

/-- The open step is dropped in full, STATE where a scale mismatch is known (10 R295), and what a loss changes is entered; the next step
opens. -/
def State.dropLost (s : State) (e : Nat) (f : RGroup → RGroup) : State :=
  let t := s.dropStep e (if (s.rg e).mismatch then Status.state else Status.dropped)
  (t.setRg e (f (t.rg e))).runEngine e
/-- CONTRIBUTOR_LOST (10 R293; 15 R415), and what else the controller orders (assumption 114): the open step is dropped in full where any
tile of the contributor has been taken or exchanged; otherwise it is counted out and its engine, this module's or another live member's,
supplies null contributions. A shard
with no live owner drops the step and ends the group. An order drops the open step, with a Device-fatal record where this module's report
was wrong (10 R282, R290). A contributor that has joined again counts from the next step on. -/
def execContributorLost (gid : Nat) (lost : Lost) (s : State) : Out :=
  .next <|
    match s.findRg gid with
    | none => s
    | some e =>
      let g := s.rg e
      if !g.open_ then s else
      match lost with
      | .shard => (s.setRg e { g with state := .closing }).dropStep e Status.dropped
      | .partition p =>
        if g.outs.contains p ∨ !(g.srcs.any (fun m => m.part = p)) then s else
        let out (g : RGroup) : RGroup := { g with outs := g.outs ++ [p], lostCnt := g.lostCnt + 1, nullC := true }
        if g.taken.contains p then s.dropLost e out else (s.setRg e (out g)).runEngine e
      | .remote taken parts =>
        let out (g : RGroup) : RGroup := { g with lostCnt := g.lostCnt + parts }
        if taken then s.dropLost e out else (s.setRg e (out g)).runEngine e
      | .module coord seen parts =>
        let out (g : RGroup) : RGroup := { g with lostCnt := g.lostCnt + parts, lostMods := g.lostMods ++ [coord] }
        if seen then s.dropLost e out else s.setRg e (out g)
      | .drop step mismatch wrong =>
        let s := if wrong then s.report (Rec.mk' Status.integrity Sev.devFatal Blk.hwk 0) else s
        if step ≠ g.step then s
        else (s.dropStep e (if mismatch ∨ g.mismatch then Status.state else Status.dropped)).runEngine e
      | .joined coord own parts =>
        s.setRg e { g with back := g.back ++ own, backCnt := g.backCnt + parts, backMods := g.backMods ++ [coord] }

end Sys2Proof.Machine
end

