-- ==== Sys2Proof/Machine/Matrix.lean ====
section
/-! DEFINITION. The matrix station and the accumulator memory station (04; 03 R88, R89; 06 R180): MX_MMA, MX_PROM,
PROMOTION_COMPLETE, AM_SAVE, AM_REST, AM_ZERO, AM_MOVE. -/

namespace Sys2Proof.Machine

/-! ### Promotion (04 R121, R125) -/

/-- One element of a promotion: the wide-48 result, whether it was clamped, and whether it first became NaN or infinite. -/
def promoteElem (x : Elem) (r : BitVec 34) : Elem × Bool × Bool :=
  let old := Flt.w48.decode x.toNat
  let (y, c) := Flt.w48.conv .rne (Num.add old (Flt.run.decode r.toNat))
  (BitVec.ofNat 48 y, c, old.isFin && !(Flt.w48.decode y).isFin)

/-- A run plane added into a slot's wide-48 values. -/
def promotePlane (w48 : Store Elem) (run : Store (BitVec 34)) : Store Elem × Nat × Nat :=
  let l := List.zipWith promoteElem (sgets 0 w48 0 1024) (sgets 0 run 0 1024)
  (sputs 0 [] 0 (l.map (·.1)), (l.filter (·.2.1)).length, (l.filter (·.2.2)).length)

/-- The promotion of a slot's open chunk by the engine at once (04 R125), counted like any other. -/
def Core.promoteNow (k : Core) (a : Nat) : Core :=
  let x := k.slot a
  let (w, sats, specs) := promotePlane x.w48 x.run
  (k.setSlot a { x with w48 := w, run := [], kc := 0 }).countPromotion sats specs

/-- Reading a slot promotes an open chunk first, and waits while the engine is busy (04 R125). In D12-emulation there are no chunks
and the engine is idle (06 R180, R183), so a chunk that a Native launch left open stays as it is. DEDUCED (log entry 93). -/
def Core.closeChunk (k : Core) (a : Nat) : Option Core :=
  if k.d12 ∨ (k.slot a).kc = 0 then some k
  else if k.engineBusy then none
  else some (k.promoteNow a)

/-- Closes the chunks of several slots, in order. -/
def Core.closeChunks (k : Core) : List Nat → Option Core
  | [] => some k
  | a :: r => match k.closeChunk a with
    | none => none
    | some k' => k'.closeChunks r

/-! ### Tile products (04 R113-R119, 06 R180) -/

/-- The format groups of 04 R114: wide, 16-bit, 8-bit, 4/6-bit; 0 for a format the matrix station does not accept. -/
def mxGroup (fmt : Nat) : Nat :=
  match fmt with
  | 0x0 => 1
  | 0x1 | 0x2 => 2
  | 0x3 | 0x4 | 0x5 | 0x6 | 0xA => 3
  | 0x7 | 0x8 | 0x9 => 4
  | _ => 0
/-- The pairs of operand formats one MX.MMA accepts (04 R114); no MX format in D12-emulation (06 R179). -/
def mxAccepts (d12 : Bool) (a b : Nat) : Bool :=
  let g := mxGroup a
  let h := mxGroup b
  decide (g ≠ 0 ∧ h ≠ 0 ∧ ((g = 1) = (h = 1))) && !(d12 && (Fmt.isMx a || Fmt.isMx b))

/-- hi of 04 R118: the significand truncated to the 12 bits from its most significant one. -/
def hiPart : Num → Num
  | .fin s m e => if Nat.log2 m < 12 then .fin s m e else .fin s (m >>> (Nat.log2 m - 11) <<< (Nat.log2 m - 11)) e
  | v => v
/-- lo of 04 R118: the rest of a finite operand; 0 for an infinity. -/
def loPart : Num → Num
  | .fin s m e => if m = 0 then .fin s 0 e else match hiPart (.fin s m e) with
    | .fin _ h _ => if m = h then .fin false 0 0 else .fin s (m - h) e
    | v => v
  | .nan => .nan
  | .inf _ => Num.zero

/-- A product of a low part: none where an operand is infinite, since the infinite product is formed once, in the first pass
(assumption 21). -/
def lowProduct (x y fx fy : Num) : Num :=
  match x, y with
  | .inf _, _ => .fin true 0 0
  | _, .inf _ => .fin true 0 0
  | _, _ => Num.mul fx fy

/-- The exact sums that one tile product adds into an element, in order: three for FP32 (04 R118), two in D12-emulation for
8-bit pairs (06 R180), else one. -/
def passes (fp32 halves : Bool) (a b : List Num) : List Num :=
  if fp32 then
    [Num.sum (List.zipWith (fun x y => Num.mul (hiPart x) (hiPart y)) a b),
     Num.sum (List.zipWith (fun x y => lowProduct x y (hiPart x) (loPart y)) a b),
     Num.sum (List.zipWith (fun x y => lowProduct x y (loPart x) (hiPart y)) a b)]
  else if halves then
    [Num.sum (List.zipWith Num.mul (a.take 16) (b.take 16)), Num.sum (List.zipWith Num.mul (a.drop 16) (b.drop 16))]
  else [Num.sum (List.zipWith Num.mul a b)]

/-- Rounding into the run format (04 R116, R117). -/
def rndRun (v : Num) : Nat := (Flt.run.conv .rne v).1

/-- The run value after the passes of one tile product. -/
def runElem (r : BitVec 34) (ps : List Num) : BitVec 34 :=
  ps.foldl (fun r p => BitVec.ofNat 34 (rndRun (Num.add (Flt.run.decode r.toNat) p))) r

/-- d12r of 06 R180: FP32, nearest-even, clamped at the largest finite value, subnormals flushed; whether it clamped. -/
def d12r (v : Num) : Num × Bool :=
  let (x, c) := Flt.fp32.conv .rne v
  (if Flt.fp32.isSub x then .fin (decide (2 ^ 31 ≤ x)) 0 0 else Flt.fp32.decode x, c)

/-- The values of a slot as an instruction reads them: in D12-emulation each is rounded by d12r first, and the clamps are counted
(06 R180). -/
def slotRead (d12 : Bool) (l : List Elem) : List Elem × Nat :=
  if d12 then
    let r := l.map (fun x => d12r (Flt.w48.decode x.toNat))
    (r.map (fun y => BitVec.ofNat 48 (Flt.w48.conv .rne y.1).1), (r.filter (·.2)).length)
  else (l, 0)

/-- The slot value after the passes of one tile product in D12-emulation, and how many roundings clamped. -/
def d12Elem (x : Elem) (ps : List Num) : Elem × Nat :=
  let (v, c) := d12r (Flt.w48.decode x.toNat)
  let r := ps.foldl (fun (acc : Num × Nat) p => let (y, c) := d12r (Num.add acc.1 p); (y, acc.2 + b2n c)) (v, b2n c)
  (BitVec.ofNat 48 (Flt.w48.conv .rne r.1).1, r.2)

/-- An operand element whose encoding is subnormal in its own format becomes a zero of its sign (06 R180). -/
def flushElem (fmt : Nat) (x : Elem) : Elem :=
  match Fmt.flt fmt with
  | some f => if f.isSub x.toNat then BitVec.ofNat 48 (x.toNat / 2 ^ (f.eb + f.mb) * 2 ^ (f.eb + f.mb)) else x
  | none => x
/-- A tile whose subnormal elements are flushed in D12-emulation. -/
def Tile.flush (d12 : Bool) (t : Tile) : Tile := if d12 then { t with elems := t.elems.map (flushElem t.fmt) } else t

/-- The 1,024 lists of passes of a tile product, in row-major order of the result (04 R113). -/
def tilePasses (d12 : Bool) (a b : Tile) : List (List Num) :=
  let a := a.flush d12
  let b := b.flush d12
  let rows := chunks 32 32 a.vals
  let cols := chunks 32 32 (transpose Num.zero b.vals)
  let fp32 := decide (a.fmt = Fmt.fp32)
  let halves := d12 && decide (mxGroup a.fmt = 3 ∧ mxGroup b.fmt = 3)
  (rows.map (fun r => cols.map (fun q => passes fp32 halves r q))).flatten

/-- A tile product added into a slot in Native mode: the run plane and KC after it (04 R120). -/
def Slot.addNative (x : Slot) (ps : List (List Num)) : Slot :=
  { x with run := sputs 0 [] 0 (List.zipWith runElem (sgets 0 x.run 0 1024) ps), kc := x.kc + 32 }

/-- A tile product added into a slot in D12-emulation (06 R180), and the clamps. -/
def Slot.addD12 (x : Slot) (ps : List (List Num)) : Slot × Nat :=
  let l := List.zipWith d12Elem (sgets 0 x.w48 0 1024) ps
  ({ x with w48 := sputs 0 [] 0 (l.map (·.1)) }, (l.map (·.2)).sum)

/-- Z = 1 clears the slot, its run plane and KC first (04 R126). -/
def Slot.zeroIf (x : Slot) (z : Bool) : Slot := if z then {} else x

/-- MX.MMA: takes a tile from L.A and one from L.B and adds their product into the slot; a chunk that closes is handed to the
promotion engine, for which the instruction waits while the engine is busy (03 R88; 04 R113-R123, R126; 06 R180). -/
def mmaBody (c : Nat) (s : State) (k : Core) (e : QEntry) (acc : Acc) (z last : Bool) : Did :=
  match k.takeLocal .matrix .lA with
  | none => .waits .tile
  | some (a, ka) =>
  match ka.takeLocal .matrix .lB with
  | none => .waits .tile
  | some (b, k') =>
    if !mxAccepts k.d12 a.fmt b.fmt then .fault Status.unsupported else
    let x := (k.slot acc.toNat).zeroIf z
    if k.d12 then
      let (y, n) := x.addD12 (tilePasses true a b)
      .done (s.setCore c ((k'.setSlot acc.toNat y).countMx n))
    else
      let closes := last || decide (e.cfg.chunk.toNat ≤ x.kc + 32)
      if closes && k.engineBusy then .waits .engine else
      let y := x.addNative (tilePasses false a b)
      let y := if closes then { y with promo := some y.run, run := [], kc := 0 } else y
      .done (s.setCore c (k'.setSlot acc.toNat y))

/-- MX_MMA (03 R88). -/
def execMxMma (c : Nat) (s : State) : Out :=
  onStation c .matrix s (fun i => match i with | .mx (.mma a z l) _ => some (a, z, l) | _ => none)
    (fun k e (a, z, l) => mmaBody c s k e a z l)

/-- MX_PROM: with KC 0 and no promotion under way it retires at once; otherwise the chunk goes to the engine and the
instruction retires when the promotion completes (03 R88; 04 R120, R124). It changes no value in D12-emulation (06 R180). -/
def execMxProm (c : Nat) (s : State) : Out :=
  onStation c .matrix s (fun i => match i with | .mx (.prom a) _ => some a | _ => none)
    (fun k _ a =>
      let x := k.slot a.toNat
      if k.d12 ∨ x.kc = 0 then .done s
      else if k.engineBusy then .waits .engine
      else .starts (s.setCore c (k.setSlot a.toNat { x with promo := some x.run, run := [], kc := 0 })) .engine)

/-- An MX.PROM of the slot waits at the matrix station for its promotion. -/
def Core.promWaits (k : Core) (a : Acc) : Bool :=
  match k.head .matrix with
  | some e => decide (e.stage = .running) && (match e.ins with | .mx (.prom b) _ => a == b | _ => false)
  | none => false

/-- PROMOTION_COMPLETE: the engine has added the run plane it was handed into the slot (04 R121, R122); an MX.PROM that waits
for it may retire (04 R124). -/
def execPromotionComplete (c : Nat) (acc : Acc) (s : State) : Out :=
  onCore c <|
    let k := s.core c
    let x := k.slot acc.toNat
    match x.promo with
    | none => s
    | some r =>
      let (w, sats, specs) := promotePlane x.w48 r
      let k' := (k.setSlot acc.toNat { x with w48 := w, promo := none }).countPromotion sats specs
      s.setCore c (if k.promWaits acc then (k'.setStage .matrix .done).setWait .matrix .none else k')

/-! ### Accumulator memory (03 R89, 04 R125) -/

/-- The checks on the Pond tile that AM.SAVE or AM.REST names, in the order of 03 R103: reserved format, bounds, a write
through TR = 1, the format, a live ring. -/
def Core.amCheck (k : Core) (d : Desc) (write : Bool) : Option Nat :=
  firstFail [(Fmt.reserved d.fmt, Status.unsupported), (!d.okBounds, Status.bounds), (write && d.tr, Status.unsupported),
    (decide (d.fmt ≠ Fmt.w48), Status.unsupported), (overlaps d.ranges k.rings, Status.bounds)]

/-- AM_SAVE: Pond tile t[TA] = slot ACC, its open chunk promoted first (03 R89, 04 R125, 06 R180). -/
def execAmSave (c : Nat) (s : State) : Out :=
  onStation c .accmem s (fun i => match i with | .am (.save a t) _ => some (a, t) | _ => none)
    (fun k e (a, t) =>
      match k.amCheck (e.d t) true with
      | some st => .fault st
      | none => match k.closeChunk a.toNat with
        | none => .waits .engine
        | some k' =>
          let (l, n) := slotRead k'.d12 (k'.slot a.toNat).elems
          .done (s.setCore c ((k'.countMx n).writeTile (e.d t) { fmt := Fmt.w48, elems := l, scales := [], tr := false })))

/-- A wide-48 element of a Pond image as the slot holds it: field 0 is the zero of its sign, and a NaN is the canonical one (06
R164). -/
def w48Value (x : Elem) : Elem :=
  let e := bits x.toNat 37 10
  if e = 0 then BitVec.ofNat 48 (x.toNat / 2 ^ 47 * 2 ^ 47)
  else if e = 1023 ∧ x.toNat % 2 ^ 37 ≠ 0 then 0x7FF000000000
  else x

/-- AM_REST: slot ACC = the values of Pond tile t[TA], with no open chunk (03 R89, 04 R125, 06 R164). -/
def execAmRest (c : Nat) (s : State) : Out :=
  onStation c .accmem s (fun i => match i with | .am (.rest a t) _ => some (a, t) | _ => none)
    (fun k e (a, t) =>
      match k.amCheck (e.d t) false with
      | some st => .fault st
      | none => .done (s.setCore c (k.setSlot a.toNat (Slot.ofElems ((k.readTile (e.d t)).elems.map w48Value)))))

/-- AM_ZERO: slot ACC = zero, its run plane discarded (03 R89, 04 R125). -/
def execAmZero (c : Nat) (s : State) : Out :=
  onStation c .accmem s (fun i => match i with | .am (.zero a) _ => some a | _ => none)
    (fun k _ a => .done (s.setCore c (k.setSlot a.toNat {})))

/-- AM_MOVE: slot ACC = slot ACC2, whose open chunk is promoted first (03 R89, 04 R125, 06 R180). -/
def execAmMove (c : Nat) (s : State) : Out :=
  onStation c .accmem s (fun i => match i with | .am (.move a b) _ => some (a, b) | _ => none)
    (fun k _ (a, b) => match k.closeChunk b.toNat with
      | none => .waits .engine
      | some k' =>
        let (l, n) := slotRead k'.d12 (k'.slot b.toNat).elems
        .done (s.setCore c ((k'.countMx n).setSlot a.toNat (Slot.ofElems l))))

end Sys2Proof.Machine
end

