-- ==== Sys2Proof/Machine/Vector.lean ====
section
/-! DEFINITION. The vector station (05; 03 R90; 06 R166-R182): VC_EW, VC_UN, VC_RED, VC_BC, VC_CVT, VC_UPD, VC_RNG. -/

namespace Sys2Proof.Machine

/-! ### FP32 arithmetic (05 R140, 06 R181) -/

/-- Flush of an FP32 value that is subnormal, in D12-emulation (06 R181). -/
def flush32 (d12 : Bool) (v : Num) : Num :=
  if d12 then (let x := Flt.fp32.ieee v; if Flt.fp32.isSub x then .fin (decide (2 ^ 31 ≤ x)) 0 0 else v) else v
/-- One FP32 operation's result: rounded once, and flushed in D12-emulation. -/
def fr (d12 : Bool) (v : Num) : Num := flush32 d12 (r32 v)
def fadd (d12 : Bool) (a b : Num) : Num := fr d12 (Num.add a b)
def fsub (d12 : Bool) (a b : Num) : Num := fr d12 (Num.sub a b)
def fmul (d12 : Bool) (a b : Num) : Num := fr d12 (Num.mul a b)
def fdiv (d12 : Bool) (a b : Num) : Num := fr d12 (Num.div a b)
def fsqrt (d12 : Bool) (a : Num) : Num := fr d12 (Num.sqrt a)
/-- fma(a, b, c) = a * b + c with one rounding. -/
def ffma (d12 : Bool) (a b c : Num) : Num := fr d12 (Num.add (Num.mul a b) c)
/-- scaleb(x, n) of 05 R153. -/
def fscale (d12 : Bool) (a : Num) (n : Int) : Num := fr d12 (Num.scale a n)
/-- An FP32 constant by its encoding. -/
def f32 (x : Nat) : Num := Flt.fp32.decode x

/-- SILU of 05 R142. -/
def silu (d12 : Bool) (x : Num) : Num := fmul d12 x (fr d12 (Num.sigmoid x))
/-- GELU of 05 R142, tanh form. -/
def gelu (d12 : Bool) (x : Num) : Num :=
  let t := fmul d12 (fmul d12 x x) x
  let t := ffma d12 (f32 0x3D372713) t x
  let t := fmul d12 (f32 0x3F4C422A) t
  let t := fadd d12 Num.one (fr d12 (Num.tanh t))
  fmul d12 (fmul d12 (f32 0x3F000000) x) t

/-- The functions that stay exact on wide-48 operands (05 R141). -/
def ewExact : EwFn → Bool
  | .add | .sub | .max | .min => true
  | _ => false
def unExact : UnFn → Bool
  | .copy | .neg | .abs => true
  | _ => false

/-- A binary function before any rounding. -/
def ewRaw (fn : EwFn) (a b sc : Num) : Num :=
  match fn with
  | .add => Num.add a b
  | .sub => Num.sub a b
  | .mul => Num.mul a b
  | .max => Num.max a b
  | .min => Num.min a b
  | .axpy => Num.add (Num.mul a sc) b
/-- The binary function a BC applies. -/
def bcEw : BcFn → EwFn
  | .add => .add
  | .sub => .sub
  | .mul => .mul
  | .max => .max
  | .min => .min
/-- A unary function on an FP32 value, each named operation rounded once. -/
def unVal (d12 : Bool) (fn : UnFn) (a : Num) : Num :=
  match fn with
  | .copy => fr d12 a
  | .neg => fr d12 (Num.neg a)
  | .abs => fr d12 (Num.abs a)
  | .recip => fdiv d12 Num.one a
  | .rsqrt => fr d12 (Num.rsqrt a)
  | .exp => fr d12 (Num.exp a)
  | .log => fr d12 (Num.log a)
  | .tanh => fr d12 (Num.tanh a)
  | .sigmoid => fr d12 (Num.sigmoid a)
  | .gelu => gelu d12 a
  | .silu => silu d12 a
/-- A unary function before any rounding, for those that stay exact. -/
def unRaw (fn : UnFn) (a : Num) : Num :=
  match fn with
  | .neg => Num.neg a
  | .abs => Num.abs a
  | _ => a

/-! ### Operands (05 R135-R139, R141; 06 R181) -/

/-- An operand as the station has taken it: the tile, and whether it came from a slot. -/
structure Got where
  tile : Tile
  slot : Bool
  deriving DecidableEq, Repr

/-- Taking an operand. -/
inductive Fetch1 where
  | wait (w : Wait)
  | fault (status : Nat)
  | got (g : Got) (k : Core) (hwk : Hwk)

/-- Takes a source operand of the vector station (05 R135, 03 R102): a slot's open chunk is promoted first (04 R125). A and B that
both name L.V take two tiles, A first, as 05 R136 has it for handles. DEDUCED (log entry 94). -/
def vcFetch (c : Nat) (s : State) (k : Core) (e : QEntry) : Spec → Fetch1
  | .pond t => .got ⟨k.readTile (e.d t), false⟩ k s.hwk
  | .slot a => match k.closeChunk a.toNat with
    | none => .wait .engine
    | some k' => .got ⟨(k'.slot a.toNat).tile, true⟩ k' s.hwk
  | .handle q => match takeTile c s k .vector q.toNat with
    | .wait w => .wait w
    | .fault st => .fault st
    | .tile t k' h => .got ⟨t, false⟩ (k'.noteTake .vector q.toNat) h
  | .lV => match k.takeLocal .vector .lV with
    | none => .wait .tile
    | some (t, k') => .got ⟨t, false⟩ k' s.hwk
  | _ => .fault Status.operand

/-- The format a spec is known to have before its tile is taken. -/
def Core.specFmt (k : Core) (e : QEntry) : Spec → Option Nat
  | .pond t => some (e.d t).fmt
  | .slot _ => some Fmt.w48
  | .handle q => if (k.handle q.toNat).state = .unbound then none else some (k.handle q.toNat).fmt
  | .lV => k.lV.head?.map (·.fmt)
  | _ => none

/-- Formats that a VC source accepts (05 R135): MX, BS8 payload and INT32 only as CVT sources; no MX in D12-emulation. -/
def vcSrcOk (d12 cvt : Bool) (fmt : Nat) : Bool :=
  !Fmt.reserved fmt && (cvt || !(Fmt.isMx fmt || fmt == Fmt.bs8 || fmt == Fmt.int32)) && !(d12 && Fmt.isMx fmt)
/-- Formats that a VC destination accepts (05 R135, R137). -/
def vcDstOk (d12 cvt : Bool) (fmt : Nat) : Bool :=
  !Fmt.reserved fmt && fmt != Fmt.bs8 && (cvt || !Fmt.isMx fmt) && !(d12 && Fmt.isMx fmt)

/-- The descriptors that Pond specs of an instruction name, in order. -/
def QEntry.descs (e : QEntry) (l : List Spec) : List Desc :=
  l.filterMap (fun x => match x with | .pond t => some (e.d t) | _ => none)

/-- A destination overlaps an operand other than by coinciding with it exactly (05 R136). -/
def badOverlap (e : QEntry) (dst src : Spec) : Bool :=
  match dst, src with
  | .pond a, .pond b =>
    let x := e.d a
    let y := e.d b
    overlaps x.ranges y.ranges && !(x.base == y.base && x.stride == y.stride && x.fmt == y.fmt && !y.tr)
  | _, _ => false

/-- A handle among the operands that no tile passes, by the table of 02 R59: an Unbound one, or a producer end that is Closing. -/
def Core.handleBad (k : Core) (l : List Spec) : Bool :=
  l.any (fun x => match x with
    | .handle q => decide ((k.handle q.toNat).state = .unbound ∨ (k.handle q.toNat).state = .closing)
    | _ => false)

/-- The formats of sources as far as they are known before their tiles are taken: of a tile of L.V, once it has arrived, the second of two
being the one behind the first (03 R102). -/
def Core.srcFmts (k : Core) (e : QEntry) : List Tile → List Spec → List (Option Nat)
  | _, [] => []
  | l, .lV :: r => l.head?.map (·.fmt) :: k.srcFmts e l.tail r
  | l, x :: r => k.specFmt e x :: k.srcFmts e l r
/-- Sources name more tiles of L.V than have arrived. -/
def Core.lacksTile (k : Core) (srcs : List Spec) : Bool := decide (k.lV.length < (srcs.filter (· == .lV)).length)
/-- The outcome of checks that come before the format of a tile of L.V matters, then of those behind: where one of the formats known is bad the
first list decides; a tile that has not arrived yet is waited for before the second, so that no status depends on when it comes (03 R103). -/
def checkedIn (lacks : Bool) (before after : List (Bool × Nat)) : Option Did :=
  match firstFail before with
  | some st => some (.fault st)
  | none => if lacks then some (.waits .tile) else (firstFail after).map Did.fault
/-- The checks of 03 R103 steps 2 and 3 on the operands of EW, UN, RED, BC and CVT, in order: reserved formats, Pond bounds, a
write through TR = 1, formats, live rings, overlaps, the state of handles. -/
def vcCheck (k : Core) (e : QEntry) (cvt : Bool) (dst : Spec) (srcs : List Spec) : Option Did :=
  let ds := e.descs (dst :: srcs)
  let dstFmt := k.specFmt e dst
  checkedIn (k.lacksTile srcs) [
    (ds.any (fun d => Fmt.reserved d.fmt), Status.unsupported),
    (ds.any (fun d => !d.okBounds), Status.bounds),
    ((e.descs [dst]).any (·.tr), Status.unsupported),
    ((match dstFmt with | some f => !vcDstOk k.d12 cvt f | none => false), Status.unsupported),
    ((k.srcFmts e k.lV srcs).any (fun x => match x with | some f => !vcSrcOk k.d12 cvt f | none => false), Status.unsupported)] [
    (ds.any (fun d => overlaps d.ranges k.rings), Status.bounds),
    (srcs.any (badOverlap e dst), Status.bounds),
    (k.handleBad (dst :: srcs), Status.state)]

/-- The format of a result (05 R137). -/
def Core.dstFmt (k : Core) (e : QEntry) : Spec → Nat
  | .pond t => (e.d t).fmt
  | .slot _ => Fmt.w48
  | .handle q => (k.handle q.toNat).fmt
  | _ => Fmt.fp32

/-- What keeps a destination from taking a tile (02 R59, 05 R135). -/
def vcDstReady (k : Core) (fmt : Nat) : Spec → Option Did
  | .handle q => sendReady k .vector q.toNat fmt
  | .lO => if k.room .lO then none else some (.waits .credit)
  | .pond _ => none
  | .slot _ => none
  | _ => some (.fault Status.operand)

/-- A tile written to a destination (05 R135, R139), and whether its send was refused (09 R264). -/
def vcPut (c : Nat) (s : State) (k : Core) (e : QEntry) (t : Tile) : Spec → State × Bool
  | .pond d => (s.setCore c (k.writeTile (e.d d) t), false)
  | .slot a => (s.setCore c (k.setSlot a.toNat (Slot.ofElems t.elems)), false)
  | .handle q => sendTile c s k e q.toNat t
  | .lO => (s.setCore c (k.putLocal .lO t), false)
  | _ => (s, false)

/-- A slot's values that an instruction read, for the census (06 R174). -/
def Got.census (g : Got) : List (List Elem) := if g.slot then [g.tile.elems] else []

/-- An operand's values as the function uses them: wide-48 values exact, or rounded to FP32 and counted when clamped; in
D12-emulation, flushed (05 R141, 06 R181). -/
def Got.vals (g : Got) (d12 exact : Bool) : List (Num × Nat) :=
  if g.tile.fmt = Fmt.w48 then
    g.tile.vals.map (fun v =>
      if d12 then (let r := d12r v; (r.1, b2n r.2))
      else if exact then (v, 0)
      else (let r := r32sat v; (r.1, b2n r.2)))
  else (g.tile.flush d12).vals.map (fun v => (v, 0))

/-- One result element: its encoding, the clamps counted, whether it became NaN or infinite from finite operands, and how many elements were
clamped, where one that was clamped as an operand and again by its conversion counts once (06 R174). -/
structure ElemOut where
  enc : Elem
  sats : Nat
  special : Bool
  once : Nat
  deriving DecidableEq, Repr
/-- The result of a VC instruction: the tile, the clamps and special values that SEC_VCCNT counts, and the clamped elements that the census
counts. -/
structure VcOut where
  tile : Tile
  sats : Nat
  specials : Nat
  once : Nat
  deriving DecidableEq, Repr

/-- A value written in a destination format that is not MX (05 R143); flushed in D12-emulation if subnormal there
(06 R181). -/
def elemOut (fmt : Nat) (mode : Mode) (d12 finite : Bool) (v : Num) (sats : Nat) : ElemOut :=
  let (x, c) := Fmt.conv fmt mode v
  let y := if d12 then flushElem fmt (BitVec.ofNat 48 x) else BitVec.ofNat 48 x
  ⟨y, sats + b2n c, finite && !(Fmt.decode fmt y.toNat).isFin, max sats (b2n c)⟩

/-- The tile and counts of a list of results. -/
def tileOut (fmt : Nat) (l : List ElemOut) : VcOut :=
  ⟨{ fmt, elems := l.map (·.enc), scales := [], tr := false }, (l.map (·.sats)).sum, (l.filter (·.special)).length, (l.map (·.once)).sum⟩

/-- The end of a VC instruction: the tile goes to its destination, counters and census take the counts. -/
def vcFinish (c : Nat) (s : State) (k : Core) (e : QEntry) (dst : Spec) (r : VcOut) (cen : List (List Elem)) : Did :=
  let k := (k.countSats r.sats).countSpecials r.specials
  let (t, refused) := vcPut c s k e r.tile dst
  if refused then .fault Status.revoked else .done (t.census c k e cen r.once)

/-- Any operand or the destination is wide-48 (05 R141). -/
def isWide (l : List Nat) : Bool := l.any (fun f => f == Fmt.w48)

/-! ### EW, UN, BC -/

/-- VC.EW on operands taken (05 R140, R141). -/
def ewTile (d12 : Bool) (fn : EwFn) (fmt : Nat) (a b : Got) (sc : Num) : VcOut :=
  let exact := !d12 && ewExact fn && isWide [fmt, a.tile.fmt, b.tile.fmt]
  tileOut fmt (List.zipWith (fun (x : Num × Nat) (y : Num × Nat) =>
    let raw := ewRaw fn x.1 y.1 sc
    elemOut fmt .rne d12 (x.1.isFin && y.1.isFin && (fn != .axpy || sc.isFin)) (if exact then raw else fr d12 raw) (x.2 + y.2))
    (a.vals d12 exact) (b.vals d12 exact))

/-- The effect of VC.EW. -/
def ewBody (c : Nat) (s : State) (k : Core) (e : QEntry) (fn : EwFn) (dst a b : Spec) (sc : Reg) : Did :=
  match vcCheck k e false dst [a, b] with
  | some r => r
  | none =>
    let fmt := k.dstFmt e dst
    match vcFetch c s k e a with
    | .wait w => .waits w
    | .fault st => .fault st
    | .got ga k1 h1 =>
      let s1 := { s with hwk := h1 }
      match vcFetch c s1 k1 e b with
      | .wait w => .waits w
      | .fault st => .fault st
      | .got gb k2 h2 =>
        if !(vcSrcOk k.d12 false ga.tile.fmt && vcSrcOk k.d12 false gb.tile.fmt) then .fault Status.unsupported else
        match vcDstReady k2 fmt dst with
        | some d => d
        | none => vcFinish c { s1 with hwk := h2 } k2 e dst
            (ewTile k.d12 fn fmt ga gb (flush32 k.d12 (f32 ((e.s sc).toNat % 2 ^ 32)))) (ga.census ++ gb.census)

/-- VC_EW (05 R140). -/
def execVcEw (core : Nat) (s : State) : Out :=
  onStation core .vector s (fun i => match i with | .vc (.ew f d a b sc) _ => some (f, d, a, b, sc) | _ => none)
    (fun k e (f, d, a, b, sc) => ewBody core s k e f d a b sc)

/-- VC.UN on an operand taken (05 R140-R142). -/
def unTile (d12 : Bool) (fn : UnFn) (fmt : Nat) (a : Got) : VcOut :=
  let exact := !d12 && unExact fn && isWide [fmt, a.tile.fmt]
  tileOut fmt ((a.vals d12 exact).map (fun x =>
    elemOut fmt .rne d12 x.1.isFin (if exact then unRaw fn x.1 else unVal d12 fn x.1) x.2))

/-- The effect of VC.UN. -/
def unBody (c : Nat) (s : State) (k : Core) (e : QEntry) (fn : UnFn) (dst a : Spec) : Did :=
  match vcCheck k e false dst [a] with
  | some r => r
  | none =>
    let fmt := k.dstFmt e dst
    match vcFetch c s k e a with
    | .wait w => .waits w
    | .fault st => .fault st
    | .got ga k1 h1 =>
      if !vcSrcOk k.d12 false ga.tile.fmt then .fault Status.unsupported else
      match vcDstReady k1 fmt dst with
      | some d => d
      | none => vcFinish c { s with hwk := h1 } k1 e dst (unTile k.d12 fn fmt ga) ga.census

/-- VC_UN (05 R142). -/
def execVcUn (core : Nat) (s : State) : Out :=
  onStation core .vector s (fun i => match i with | .vc (.un f d a) _ => some (f, d, a) | _ => none)
    (fun k e (f, d, a) => unBody core s k e f d a)

/-- The element of B that a BC applies to element i of A (05 R145). -/
def bcIndex (col : Bool) (i : Nat) : Nat := if col then i / 32 * 32 else i % 32

/-- VC.BC on operands taken (05 R145). -/
def bcTile (d12 : Bool) (fn : EwFn) (col : Bool) (fmt : Nat) (a b : Got) : VcOut :=
  let exact := !d12 && ewExact fn && isWide [fmt, a.tile.fmt, b.tile.fmt]
  let bv := b.vals d12 exact
  tileOut fmt ((a.vals d12 exact).zipIdx.map (fun (x, i) =>
    let y := bv.getD (bcIndex col i) (Num.zero, 0)
    let raw := ewRaw fn x.1 y.1 Num.zero
    -- a clamped element of B counts once, where it is first used
    let first := if col then i % 32 == 0 else decide (i < 32)
    elemOut fmt .rne d12 (x.1.isFin && y.1.isFin) (if exact then raw else fr d12 raw) (x.2 + if first then y.2 else 0)))

/-- The slot elements of B that a BC reads (05 R145, 06 R174). -/
def bcCensus (col : Bool) (b : Got) : List (List Elem) :=
  if b.slot then [((List.range 32).map (fun i => b.tile.elems.getD (if col then i * 32 else i) 0))] else []

/-- The effect of VC.BC. -/
def bcBody (c : Nat) (s : State) (k : Core) (e : QEntry) (fn : BcFn) (col : Bool) (dst a b : Spec) : Did :=
  match vcCheck k e false dst [a, b] with
  | some r => r
  | none =>
    let fmt := k.dstFmt e dst
    match vcFetch c s k e a with
    | .wait w => .waits w
    | .fault st => .fault st
    | .got ga k1 h1 =>
      let s1 := { s with hwk := h1 }
      match vcFetch c s1 k1 e b with
      | .wait w => .waits w
      | .fault st => .fault st
      | .got gb k2 h2 =>
        if !(vcSrcOk k.d12 false ga.tile.fmt && vcSrcOk k.d12 false gb.tile.fmt) then .fault Status.unsupported else
        match vcDstReady k2 fmt dst with
        | some d => d
        | none => vcFinish c { s1 with hwk := h2 } k2 e dst (bcTile k.d12 (bcEw fn) col fmt ga gb)
            (ga.census ++ bcCensus col gb)

/-- VC_BC (05 R145). -/
def execVcBc (core : Nat) (s : State) : Out :=
  onStation core .vector s (fun i => match i with | .vc (.bc f m d a b) _ => some (f, m, d, a, b) | _ => none)
    (fun k e (f, m, d, a, b) => bcBody core s k e f m d a b)

/-! ### RED (05 R144) -/

/-- The 32 lists that a RED reduces: the columns, or the rows. -/
def redLists {α : Type} (rows : Bool) (d : α) (l : List α) : List (List α) := chunks 32 32 (if rows then l else transpose d l)

/-- The reduction of a list, before rounding. -/
def redRaw (fn : RedFn) (l : List Num) : Num :=
  match fn with
  | .sum => Num.sum l
  | .sumsq => Num.sum (l.map (fun x => Num.mul x x))
  | .max => match l with
    | [] => Num.zero
    | x :: r => r.foldl Num.max x
  | .min => match l with
    | [] => Num.zero
    | x :: r => r.foldl Num.min x

/-- The 32 results of a RED in the destination format: an exact sum rounded once into it, in Native mode with the clamp of
06 R167; in D12-emulation rounded into FP32 first (05 R144, 06 R181), where a sum beyond its largest finite value becomes an infinity
(DEDUCED, assumption 137). -/
def redOut (d12 : Bool) (fn : RedFn) (rows : Bool) (fmt : Nat) (a : Got) : List ElemOut :=
  let exact := !d12 && fn != .sumsq
  (redLists rows (Num.zero, 0) (a.vals d12 exact)).map (fun l =>
    let v := redRaw fn (l.map (·.1))
    elemOut fmt .rne d12 (l.all (fun x => x.1.isFin)) (if d12 then fr true v else v) (l.map (·.2)).sum)

/-- Element i lies in the row or column that a RED replaces. -/
def redHit (rows : Bool) (i : Nat) : Bool := if rows then i % 32 == 0 else decide (i < 32)
/-- The destination tile of a RED: row 0 or column 0 replaced, the rest kept, or +0 in a runnel (05 R144). -/
def redPlace (rows : Bool) (old : List Elem) (l : List Elem) : List Elem :=
  old.zipIdx.map (fun (x, i) =>
    if redHit rows i then l.getD (if rows then i / 32 else i) 0 else x)

/-- The tile a RED's destination held, and the clamps of reading it: in D12-emulation the values of a slot that it keeps are rounded by d12r
(05 R139; 06 R180). -/
def redOld (k : Core) (e : QEntry) (rows : Bool) : Spec → List Elem × Nat
  | .pond t => ((k.readTile (e.d t)).elems, 0)
  | .slot a =>
    let raw := (k.slot a.toNat).elems
    let kept := (raw.zipIdx.filter (fun x => !redHit rows x.2)).map (·.1)
    ((slotRead k.d12 raw).1, (slotRead k.d12 kept).2)
  | _ => (List.replicate 1024 0, 0)

/-- The slots whose open chunk a destination of RED closes first (05 R139). -/
def specSlots : Spec → List Nat
  | .slot a => [a.toNat]
  | _ => []

/-- The effect of VC.RED. -/
def redBody (c : Nat) (s : State) (k : Core) (e : QEntry) (fn : RedFn) (rows : Bool) (dst a : Spec) : Did :=
  match vcCheck k e false dst [a] with
  | some r => r
  | none =>
    let fmt := k.dstFmt e dst
    match vcFetch c s k e a with
    | .wait w => .waits w
    | .fault st => .fault st
    | .got ga k1 h1 =>
      if !vcSrcOk k.d12 false ga.tile.fmt then .fault Status.unsupported else
      match k1.closeChunks (specSlots dst) with
      | none => .waits .engine
      | some k2 =>
        match vcDstReady k2 fmt dst with
        | some d => d
        | none =>
          let o := redOut k.d12 fn rows fmt ga
          let (old, n) := redOld k2 e rows dst
          let t : Tile := { fmt, elems := redPlace rows old (o.map (·.enc)), scales := [], tr := false }
          let sats := (o.map (·.sats)).sum
          vcFinish c { s with hwk := h1 } (k2.countMx n) e dst ⟨t, sats, (o.filter (·.special)).length, sats⟩ ga.census

/-- VC_RED (05 R144). -/
def execVcRed (core : Nat) (s : State) : Out :=
  onStation core .vector s (fun i => match i with | .vc (.red f m d a) _ => some (f, m, d, a) | _ => none)
    (fun k e (f, m, d, a) => redBody core s k e f m d a)

/-! ### CVT (05 R146, 06 R167-R170, R181) -/

/-- The values a CVT writes, and the operand clamps: an integer source is scaled by 2^e exactly; in D12-emulation every result
is first rounded into FP32, with the clamp counted (06 R181, assumption 25). -/
def cvtVals (d12 : Bool) (a : Got) (sc : Word) : List (Num × Nat) :=
  let ints := a.tile.fmt = Fmt.int32 ∨ a.tile.fmt = Fmt.bs8
  let e : Int := signedOf 8 sc.toNat
  (a.vals d12 true).map (fun (v, n) =>
    let v := if ints then Num.scale v e else v
    if d12 then (let r := r32sat v; (flush32 true r.1, n + b2n r.2)) else (v, n))
/-- The result of a CVT, where a clamp that comes before the conversion is one of the same element. -/
def VcOut.ofOne (r : VcOut) (l : List ElemOut) : VcOut := { r with once := (l.map (fun x => min 1 x.once)).sum }

/-- VC.CVT on an operand taken. -/
def cvtTile (d12 : Bool) (mode : Mode) (fmt : Nat) (a : Got) (sc : Word) : VcOut :=
  let l := cvtVals d12 a sc
  if Fmt.isMx fmt then
    let (t, n) := tileOfVals fmt mode (l.map (·.1))
    let sats := n + (l.map (·.2)).sum
    ⟨t, sats, 0, sats⟩
  else
    let o := l.map (fun x => elemOut fmt mode d12 x.1.isFin x.1 x.2)
    (tileOut fmt o).ofOne o

/-- The effect of VC.CVT. A non-zero SC field on a source that is neither INT32 nor BS8 is ILLEGAL (05 R146, 03 R73); where the
format is known at dispatch, INSTRUCTION_DISPATCH has found it already. -/
def cvtBody (c : Nat) (s : State) (k : Core) (e : QEntry) (toZero : Bool) (dst a : Spec) (sc : Reg) : Did :=
  match vcCheck k e true dst [a] with
  | some r => r
  | none =>
    let fmt := k.dstFmt e dst
    match vcFetch c s k e a with
    | .wait w => .waits w
    | .fault st => .fault st
    | .got ga k1 h1 =>
      if !vcSrcOk k.d12 true ga.tile.fmt then .fault Status.unsupported
      else if sc ≠ 0 ∧ ga.tile.fmt ≠ Fmt.int32 ∧ ga.tile.fmt ≠ Fmt.bs8 then .fault Status.illegal else
      match vcDstReady k1 fmt dst with
      | some d => d
      | none => vcFinish c { s with hwk := h1 } k1 e dst
          (cvtTile k.d12 (if toZero then .toZero else .rne) fmt ga (e.s sc)) ga.census

/-- VC_CVT (05 R146). -/
def execVcCvt (core : Nat) (s : State) : Out :=
  onStation core .vector s (fun i => match i with | .vc (.cvt z d a sc) _ => some (z, d, a, sc) | _ => none)
    (fun k e (z, d, a, sc) => cvtBody core s k e z d a sc)

/-! ### RNG (05 R149) -/

/-- The words of a VC.RNG for an index sc[54:0] (05 R149). -/
def rngElems (cfg : Cfg) (idx : Nat) : List Elem :=
  ((List.range 256).map (fun g =>
    let q := philox cfg.seed cfg.stream (BitVec.ofNat 64 (2 ^ 63 + idx * 256 + g))
    [q.c0, q.c1, q.c2, q.c3])).flatten.map (fun w => w.zeroExtend 48)

/-- The effect of VC.RNG: an INT32 Pond tile, INT32 runnel or L.O (05 R149). The BOUNDS of sc[63:55] comes after every UNSUPPORTED and before
the check of a ring (DESIGN CHOICE, assumption 132). -/
def rngBody (c : Nat) (s : State) (k : Core) (e : QEntry) (dst : Spec) (sc : Reg) : Did :=
  let ds := e.descs [dst]
  match firstFail [
      (ds.any (fun d => Fmt.reserved d.fmt), Status.unsupported),
      (ds.any (fun d => !d.okBounds), Status.bounds),
      (ds.any (·.tr), Status.unsupported),
      ((match dst with | .slot _ => true | _ => match k.specFmt e dst with | some f => f != Fmt.int32 | none => false),
        Status.unsupported),
      (decide (2 ^ 55 ≤ (e.s sc).toNat), Status.bounds),
      (ds.any (fun d => overlaps d.ranges k.rings), Status.bounds),
      (k.handleBad [dst], Status.state)] with
  | some st => .fault st
  | none =>
    match vcDstReady k Fmt.int32 dst with
    | some d => d
    | none => vcFinish c s k e dst
        ⟨{ fmt := Fmt.int32, elems := rngElems e.cfg ((e.s sc).toNat % 2 ^ 55), scales := [], tr := false }, 0, 0, 0⟩ []

/-- VC_RNG (05 R149). -/
def execVcRng (core : Nat) (s : State) : Out :=
  onStation core .vector s (fun i => match i with | .vc (.rng d sc) _ => some (d, sc) | _ => none)
    (fun k e (d, sc) => rngBody core s k e d sc)

/-! ### UPD (05 R150-R158, 06 R182) -/

/-- The hyperparameter record (05 R151). -/
structure Hyper where
  lr : Num
  b1 : Num
  c1 : Num
  b2 : Num
  c2 : Num
  eps : Num
  wd : Num
  k1 : Num
  k2 : Num
  cnt : Nat
  gexp : Int
  lrx : Int
  flags : Nat
  wlo : Int
  whi : Int
  step : Nat
  tpos : Nat
  reserved : Bool
  deriving DecidableEq, Repr

/-- The record read from its 64 bytes, FP32 fields flushed in D12-emulation (06 R181). -/
def Hyper.of (d12 : Bool) (l : List Byte) : Hyper :=
  let f := fun i => flush32 d12 (f32 (field l i 4))
  { lr := f 0, b1 := f 4, c1 := f 8, b2 := f 12, c2 := f 16, eps := f 20, wd := f 24, k1 := f 28, k2 := f 32,
    cnt := field l 36 4, gexp := signedOf 8 (field l 40 1), lrx := signedOf 8 (field l 41 1), flags := field l 42 1,
    wlo := signedOf 8 (field l 43 1), whi := signedOf 8 (field l 44 1), step := field l 48 4, tpos := field l 56 8,
    reserved := decide (field l 45 3 ≠ 0 ∨ field l 52 4 ≠ 0) }
def Hyper.rem (h : Hyper) : Bool := bit h.flags 0
def Hyper.srn (h : Hyper) : Bool := bit h.flags 1
def Hyper.watch (h : Hyper) : Bool := bit h.flags 2

/-- The contents of the record that complete with BOUNDS, then those that complete with UNSUPPORTED (05 R152). -/
def Hyper.check (h : Hyper) : List (Bool × Nat) :=
  [(decide (2 ^ 24 < h.cnt) || decide (2 ^ 23 ≤ h.step) || decide (2 ^ 33 ≤ h.tpos) || h.reserved, Status.bounds),
   (decide (8 ≤ h.flags), Status.unsupported)]

/-- The values of the record that an update of a kind uses are finite. -/
def Hyper.finite (h : Hyper) (fn : UpdFn) : Bool :=
  h.lr.isFin && h.wd.isFin && (match fn with
    | .twoMoment => h.b1.isFin && h.c1.isFin && h.b2.isFin && h.c2.isFin && h.eps.isFin && h.k1.isFin && h.k2.isFin
    | .momentum => h.b1.isFin
    | .plain => true)

/-- One element of the tile before and after an update. -/
structure UpdElem where
  w : Num
  m : Num
  v : Num
  rem : Num
  sats : Nat
  deriving DecidableEq, Repr

/-- No value of an element is NaN or infinite. -/
def UpdElem.finite (o : UpdElem) : Bool := o.w.isFin && o.m.isFin && o.v.isFin && o.rem.isFin
/-- to_bf16_rne of 05 R153: the value and whether it was clamped. -/
def toBf16 (d12 : Bool) (v : Num) : Num × Bool :=
  let (x, c) := Flt.bf16.conv .rne v
  let x := if d12 && Flt.bf16.isSub x then x / 2 ^ 15 * 2 ^ 15 else x
  (Flt.bf16.decode x, c)

/-- The update of one element by 05 R153. `g` is the gradient in FP32, not yet scaled. -/
def updElem (d12 : Bool) (fn : UpdFn) (h : Hyper) (g : Num) (x : UpdElem) : UpdElem :=
  let g := fdiv d12 (fscale d12 g h.gexp) (Num.ofInt h.cnt)
  let lr := fscale d12 h.lr h.lrx
  let (m, v, u) := match fn with
    | .twoMoment =>
      let m := ffma d12 h.b1 x.m (fmul d12 h.c1 g)
      let v := ffma d12 h.b2 x.v (fmul d12 h.c2 (fmul d12 g g))
      let d := fadd d12 (fmul d12 (fsqrt d12 v) h.k2) h.eps
      (m, v, fdiv d12 (fmul d12 m h.k1) d)
    | .momentum => let m := ffma d12 h.b1 x.m g; (m, x.v, m)
    | .plain => (x.m, x.v, g)
  let s := ffma d12 h.wd x.w u
  let inc := Num.neg (fmul d12 lr s)
  if h.rem then
    let y := fsub d12 inc x.rem
    let t := fadd d12 x.w y
    let (r, c) := toBf16 d12 (fsub d12 (fsub d12 t x.w) y)
    { w := t, m, v, rem := r, sats := x.sats + b2n c }
  else { x with w := fadd d12 x.w inc, m, v }

/-- The 16 random bits of element n of a VC.UPD's tile (05 R148, R155; 06 R182). -/
def updBits (d12 : Bool) (cfg : Cfg) (h : Hyper) (n : Nat) : Nat :=
  let pos := h.step % 2 ^ 23 * 2 ^ 40 + h.tpos % 2 ^ 33 * 2 ^ 7 + n / 8
  let w := (philox cfg.seed cfg.stream (BitVec.ofNat 64 pos)).word (n % 8 / 2)
  let r := if n % 2 = 0 then w.toNat % 65536 else w.toNat / 65536
  if d12 then r / 256 * 256 else r

/-- The BF16 weight written for a master value (05 R153, R155), and whether it was clamped. -/
def updWeight (d12 : Bool) (cfg : Cfg) (h : Hyper) (n : Nat) (w : Num) : Elem × Bool :=
  let (x, c) := if h.srn then Flt.bf16.conv .rne w else srBf16 (Flt.fp32.ieee w) (updBits d12 cfg h n)
  (if d12 then flushElem Fmt.bf16 (BitVec.ofNat 48 x) else BitVec.ofNat 48 x, c)

/-- The unbiased binary exponent of an FP32 value, subnormals included (05 R158). -/
def watchE (v : Num) : Int :=
  match v with
  | .fin _ m e => Num.ilog m e
  | v => Config.watchExp (BitVec.ofNat 64 (Flt.fp32.ieee v))
/-- The class of an updated element: LOW, HIGH (05 R158). Whether the weight moved is judged by its value as encoded, so a NaN that stays a NaN
has not (DESIGN CHOICE, assumption 135). -/
def watchClass (h : Hyper) (w0 w : Num) : Bool × Bool :=
  let same := decide (Flt.fp32.ieee w0 = Flt.fp32.ieee w) || (w0.isZero && w.isZero)
  if same then (true, false)
  else if w0.isZero then (false, true)
  else
    let k := watchE (Num.abs (r32 (Num.sub w w0))) - watchE (Num.abs w0)
    (decide (k < h.wlo), decide (h.whi < k))

/-- A plane of FP32 or BF16 values of a VC.UPD block (05 R150). -/
def Core.readPlane (k : Core) (d : Desc) (fmt p : Nat) : List Elem :=
  ((List.range 32).map (fun r => rowElems fmt (k.bytes (d.base + (p * 32 + r) * d.stride) (Fmt.rowBytes fmt)))).flatten
/-- A plane of a block written back. -/
def Core.writePlane (k : Core) (d : Desc) (fmt p : Nat) (l : List Elem) : Core :=
  k.writeRows (d.base + p * 32 * d.stride) d.stride ((chunks 32 32 l).map (rowOf fmt))

/-- The checks of 03 R103 steps 2 and 3 on a VC.UPD, in order (05 R150, R152). An FP32 or BF16 tile of L.V is taken as a gradient, as one of a
runnel is (DEDUCED, assumption 133). -/
def updCheck (k : Core) (e : QEntry) (fn : UpdFn) (dst a b : Spec) (rec_ : Nat) (h : Hyper) : Option Did :=
  let ds := e.descs [dst, a, b]
  let blk := e.descs [b]
  let planes := (blk.map (fun d => d.block fn h.rem)).flatten
  let recRange := [(rec_, rec_ + 64)]
  let aR := ((e.descs [a]).map (·.ranges)).flatten
  let dR := ((e.descs [dst]).map (·.ranges)).flatten
  let fmtOk := fun (x : Spec) (l : List Nat) => match k.specFmt e x with | some f => l.contains f | none => true
  checkedIn (k.lacksTile [a]) [
    (ds.any (fun d => Fmt.reserved d.fmt), Status.unsupported),
    (ds.any (fun d => !d.okBounds) || !inPond planes || decide (rec_ % 64 ≠ 0) || !inPond recRange, Status.bounds),
    ((e.descs [dst, b]).any (·.tr), Status.unsupported),
    ((match dst with | .slot _ => true | _ => !fmtOk dst [Fmt.bf16]), Status.unsupported),
    ((match a with
      | .slot _ => false
      | .pond _ => !fmtOk a [Fmt.w48, Fmt.fp32, Fmt.bf16]
      | _ => !fmtOk a [Fmt.fp32, Fmt.bf16]), Status.unsupported),
    ((match b with | .pond _ => !fmtOk b [Fmt.fp32] | _ => true), Status.unsupported)] (h.check ++ [
    (overlaps (aR ++ dR ++ planes ++ recRange) k.rings, Status.bounds),
    (overlaps aR dR || overlaps aR planes || overlaps aR recRange || overlaps dR planes || overlaps dR recRange ||
      overlaps planes recRange, Status.bounds),
    (k.handleBad [dst, a], Status.state)])

/-- The effect of VC.UPD (05 R153, R154). With CNT 0 nothing of the gradient is computed, so its clamps are not counted (DEDUCED, assumption
134). -/
def updBody (c : Nat) (s : State) (k : Core) (e : QEntry) (fn : UpdFn) (dst a b : Spec) (sc : Reg) : Did :=
  let rec_ := (e.s sc).toNat % 2 ^ 20
  let d12 := k.d12
  let h := Hyper.of d12 (k.bytes rec_ 64)
  match updCheck k e fn dst a b rec_ h, b with
  | some r, _ => r
  | none, .pond bt =>
    let bd := e.d bt
    match vcFetch c s k e a with
    | .wait w => .waits w
    | .fault st => .fault st
    | .got ga k1 h1 =>
      if !([Fmt.w48, Fmt.fp32, Fmt.bf16].contains ga.tile.fmt) then .fault Status.unsupported else
      match vcDstReady k1 Fmt.bf16 dst with
      | some d => d
      | none =>
        let n := updPlanes fn
        let plane := fun (present : Bool) (fmt p : Nat) =>
          if present then ({ fmt, elems := k.readPlane bd fmt p, scales := [], tr := false : Tile}.flush d12).vals
          else List.replicate 1024 Num.zero
        let wP := plane true Fmt.fp32 0
        let mP := plane (decide (1 < n)) Fmt.fp32 1
        let vP := plane (decide (2 < n)) Fmt.fp32 2
        let rP := plane h.rem Fmt.bf16 n
        let olds := List.zipWith (fun (x : Num × Num) (y : Num × Num) => UpdElem.mk x.1 x.2 y.1 y.2 0) (wP.zip mP) (vP.zip rP)
        let gs := ga.vals d12 false
        let news := if h.cnt = 0 then olds
          else List.zipWith (fun (g : Num × Nat) o => updElem d12 fn h g.1 { o with sats := g.2 }) gs olds
        let outs := news.zipIdx.map (fun (x, i) => updWeight d12 e.cfg h i x.w)
        let t : Tile := { fmt := Fmt.bf16, elems := outs.map (·.1), scales := [], tr := false }
        let sats := (news.map (·.sats)).sum + (outs.filter (·.2)).length
        let fin := List.zipWith (fun (g : Num × Nat) (o : UpdElem) => g.1.isFin && o.finite && h.finite fn) gs olds
        let specs := (List.zipWith (fun f (o : UpdElem) => f && !o.finite) fin news).filter id |>.length
        let once := (List.zipWith (fun (x : Num × Nat) (y : UpdElem × Bool) =>
          let g := if h.cnt = 0 then 0 else x.2
          max g (b2n y.2) + (y.1.sats - g)) gs (news.zip (outs.map (·.2)))).sum
        let enc := fun (fmt : Nat) (l : List Num) => l.map (fun v => BitVec.ofNat 48 (Fmt.conv fmt .rne v).1)
        let k2 := if h.cnt = 0 then { k1 with vcDrops := satAdd 8 k1.vcDrops 1 } else
          let k2 := k1.writePlane bd Fmt.fp32 0 (enc Fmt.fp32 (news.map (·.w)))
          let k2 := if 1 < n then k2.writePlane bd Fmt.fp32 1 (enc Fmt.fp32 (news.map (·.m))) else k2
          let k2 := if 2 < n then k2.writePlane bd Fmt.fp32 2 (enc Fmt.fp32 (news.map (·.v))) else k2
          if h.rem then k2.writePlane bd Fmt.bf16 n (enc Fmt.bf16 (news.map (·.rem))) else k2
        let k3 := if k.censusOn && h.watch then
            let cl := List.zipWith (fun (o m : UpdElem) => watchClass h o.w m.w) olds news
            { k2 with watchLow := satAdd 32 k2.watchLow (cl.filter (·.1)).length,
                      watchHigh := satAdd 32 k2.watchHigh (cl.filter (·.2)).length }
          else k2
        vcFinish c { s with hwk := h1 } k3 e dst ⟨t, sats, specs, once⟩ ga.census
  | none, _ => .fault Status.unsupported

/-- VC_UPD (05 R153). -/
def execVcUpd (core : Nat) (s : State) : Out :=
  onStation core .vector s (fun i => match i with | .vc (.upd f d a b sc) _ => some (f, d, a, b, sc) | _ => none)
    (fun k e (f, d, a, b, sc) => updBody core s k e f d a b sc)

end Sys2Proof.Machine
end

