-- ==== Sys2Proof/Machine/Outflow.lean ====
section
/-! DEFINITION. The outflow station (03 R91-R93; 10 R280, R281, R292): OF_ST, OF_STL, OF_SND, OF_PUT, OF_GSND. -/

namespace Sys2Proof.Machine

/-! ### SRC (03 R91) -/

/-- Takes the SRC tile, as received (02 R55): a slot's open chunk is promoted first (04 R125). -/
def ofFetch (k : Core) (e : QEntry) : Spec → Fetch1
  | .pond t => .got ⟨k.readTile (e.d t), false⟩ k {}
  | .slot a => match k.closeChunk a.toNat with
    | none => .wait .engine
    | some k' => .got ⟨(k'.slot a.toNat).tile, true⟩ k' {}
  | .lO => match k.takeLocal .outflow .lO with
    | none => .wait .tile
    | some (t, k') => .got ⟨t, false⟩ k' {}
  | _ => .fault Status.operand
/-- The format of SRC, where it is known before the tile is there. -/
def ofFmt (k : Core) (e : QEntry) : Spec → Option Nat
  | .pond t => some (e.d t).fmt
  | .slot _ => some Fmt.w48
  | .lO => k.lO.head?.map (·.fmt)
  | _ => none

/-- A tile of a known format is not what the runnel bound to a handle carries (03 R91). -/
def Core.sendMismatch (k : Core) (fmt : Option Nat) (out : Option QReg) : Bool :=
  match fmt, out with
  | some f, some q => decide ((k.handle q.toNat).state ≠ .unbound) && f != (k.handle q.toNat).fmt
  | _, _ => false

/-- The checks of 03 R103 step 2 on SRC and, for PUT, t[TA]: reserved formats, Pond bounds, the transposed cases of 02 R55,
formats, live rings. `keeps` says that SRC goes out in its own format; `noMx` that it may not be an MX format (03 R92); `out` is
the handle on which OF.SND sends it. -/
def ofCheck (k : Core) (e : QEntry) (src : Spec) (ta : Option TReg) (keeps noMx : Bool) (out : Option QReg := none) : Option Nat :=
  let ss := e.descs [src]
  let ds := ss ++ (match ta with | some t => [e.d t] | none => [])
  let fmts := (match ofFmt k e src with | some f => [f] | none => []) ++ (match ta with | some t => [(e.d t).fmt] | none => [])
  firstFail [
    (ds.any (fun d => Fmt.reserved d.fmt), Status.unsupported),
    (ds.any (fun d => !d.okBounds), Status.bounds),
    ((match ta with | some t => (e.d t).tr | none => false) || (keeps && ss.any (fun d => d.tr && Fmt.isMx d.fmt)), Status.unsupported),
    (fmts.any (fun f => Fmt.isMx f && (k.d12 || noMx)), Status.unsupported),
    ((match ta with | some t => (e.d t).fmt == Fmt.bs8 | none => false) || k.sendMismatch (ofFmt k e src) out, Status.unsupported),
    (ds.any (fun d => overlaps d.ranges k.rings), Status.bounds)]

/-- Elements that an instruction clamps, each counted once (06 R174): by the reading of a slot in D12-emulation (06 R180), or by its
own conversion. -/
def clampedOnce (d12 : Bool) (raw : List Elem) (conv : List Bool) : Nat :=
  ((List.range raw.length).filter (fun i =>
    (d12 && (d12r (Flt.w48.decode (raw.getD i 0).toNat)).2) || conv.getD i false)).length

/-- The SRC tile as the instruction uses it: a slot's values are those of `slotRead`. The second part counts its clamps. -/
def Got.src (d12 : Bool) (g : Got) : Tile × Nat :=
  if g.slot then (let r := slotRead d12 g.tile.elems; ({ g.tile with elems := r.1 }, r.2)) else (g.tile, 0)

/-! ### Stores (03 R92, R93) -/

/-- The ranges a store writes: its rows, as one range where they follow one another, then the scale block. -/
def storeRanges (fmt : Nat) (sa sb sc : Word) : List (Nat × Nat) :=
  let rb := Fmt.rowBytes fmt
  (if sb.toNat = rb then [(sa.toNat, 32 * rb)] else (List.range 32).map (fun r => ((sa + BitVec.ofNat 64 r * sb).toNat, rb))) ++
    (if Fmt.isMx fmt then [(sc.toNat, 32)] else [])
/-- The bytes that go to each range of storeRanges. -/
def storeBytes (t : Tile) (sb : Word) : List (List Byte) :=
  (if sb.toNat = Fmt.rowBytes t.fmt then [t.rowBytes.flatten] else t.rowBytes) ++ (if Fmt.isMx t.fmt then [t.scaleBytes] else [])

/-- The full-line rule of OF.STL (03 R92). -/
def lineRule (fmt : Nat) (sa sb : Word) : Bool :=
  let rb := Fmt.rowBytes fmt
  (decide (sa.toNat % 128 = 0) && decide (sb.toNat % 128 = 0) && decide (rb % 128 = 0)) ||
  (decide (sb.toNat = rb) && decide (sa.toNat % 128 = 0))

/-- The DVA checks of a store (03 R93; 13 R370): every byte in a memory object of the partition that the section reaches, then
DENIED for Aquifer space and for a commons object of another member. -/
def State.storeCheck (s : State) (p n : Nat) (rs : List (Nat × Nat)) : Option Nat :=
  firstFail [
    (!rs.all (fun r => s.coreRange p n r.1 r.2), Status.bounds),
    (rs.any (fun r => touchesAq r.1 r.2 || (s.touchesCommons p r.1 r.2 && !s.isCommons p)), Status.denied)]

/-- Writes the ranges of a store in order, line by line. -/
def State.writeRanges (s : State) (p : Nat) : List ((Nat × Nat) × List Byte) → State × LineRes
  | [] => (s, .done Status.ok)
  | (a, b) :: r => match s.placeOf p a.1 with
    | .res m off => match s.writePieces .core p m (cutLines off b) with
      | (t, .done st) => if st = Status.ok then t.writeRanges p r else (t, .done st)
      | (t, .wait) => (t, .wait)
    | _ => (s, .done Status.bounds)

/-- The effect of OF.ST and OF.STL: nothing is written unless every check passes, and the instruction retires once every line
is committed (02 R48, 03 R93). -/
def storeBody (full : Bool) (c : Nat) (s : State) (k : Core) (e : QEntry) (src : Spec) (sa sb sc : Word) : Did :=
  match ofCheck k e src none true full with
  | some st => .fault st
  | none => match ofFetch k e src with
    | .wait w => .waits w
    | .fault st => .fault st
    | .got g k1 _ =>
      let fmt := g.tile.fmt
      if Fmt.isMx fmt && (k.d12 || full) then .fault Status.unsupported
      else if full && !lineRule fmt sa sb then .fault Status.line
      else
        let p := s.partOf c
        let rs := storeRanges fmt sa sb sc
        match s.storeCheck p (coreSec c) rs with
        | some st => .fault st
        | none =>
          let (t0, n0) := g.src k1.d12
          match (s.setCore c (if g.slot then k1.countMx n0 else k1)).writeRanges p (rs.zip (storeBytes t0 sb)) with
          | (_, .wait) => .waitsIn s .none
          | (t, .done st) => if st = Status.ok then .done (t.census c (t.core c) e g.census n0) else .faultIn t st

/-- OF_ST (03 R91, R93). -/
def execOfSt (core : Nat) (s : State) : Out :=
  onStation core .outflow s (fun i => match i with | .outf (.st src sa sb sc) _ => some (src, sa, sb, sc) | _ => none)
    (fun k e (src, sa, sb, sc) => storeBody false core s k e src (e.s sa) (e.s sb) (e.s sc))

/-- OF_STL (03 R92). -/
def execOfStl (core : Nat) (s : State) : Out :=
  onStation core .outflow s (fun i => match i with | .outf (.stl src sa sb) _ => some (src, sa, sb) | _ => none)
    (fun k e (src, sa, sb) => storeBody true core s k e src (e.s sa) (e.s sb) 0)

/-! ### Sends (03 R91; 02 R59; 10 R292) -/

/-- The contributor count of a step that a REDDN packet carries (09 R254): its sum's, which the group keeps with the step's outcome. -/
def RGroup.cntOf (g : RGroup) (step : Nat) : Nat := ((g.results.find? (fun r => r.step = step)).map (·.cnt)).getD (g.expect - g.lostCnt)
/-- A tile sent on a gather end: it is written into this module's own gather map and goes out as REDDN packets round the Z, Y
and X rings, and to a spare of the twin coordinate that has not joined, where it enters that District (10 R292). None where a line of
the gather map waits. -/
def State.sendGather (s : State) (c : Nat) (k : Core) (e : QEntry) (q gid : Nat) (t : Tile) : Option State :=
  let h := k.handle q
  match s.findRg gid with
  | none => some s
  | some i =>
    let g := s.rg i
    let me := s.coord
    let step := if g.s = 0 then 0 else h.pos / g.s
    let pos := g.shardOf me * g.s + (if g.s = 0 then 0 else h.pos % g.s)
    let pkt := { noPacket with
      typ := 3, tag := s.tagOf g.tenancy, flow := 7 * g.gid + pos % 7, dep := 0x12, sep := 0x12, pos, arg := step % 65536 * 65536, payload := t.payload,
      cnt := g.cntOf step }
    let s := s.setCore c (k.setHandle q { h with pos := (h.pos + 1) % 2 ^ 32, spc := e.pc, sseq := e.seq })
    match s.gatherStore i pkt with
    | (_, false) => none
    | (s, true) =>
      let s := s.gatherPass g 4 pkt (coreSec c)
      some (if g.tw ∧ g.lostMods.contains (twinOf me) then s.sendFrom (coreSec c) { pkt with dst := twinOf me } else s)

/-- The effect of OF.SND: the handle's state after the checks (03 R103), of which the format of a tile of L.O waits for the tile; a refused fabric
send is REVOKED (03 R107). -/
def sndBody (c : Nat) (s : State) (k : Core) (e : QEntry) (src : Spec) (q : QReg) : Did :=
  match ofCheck k e src none true false (some q) with
  | some st => .fault st
  | none =>
  if src = .lO ∧ k.lO.isEmpty ∧ (k.handle q.toNat).state ≠ .unbound then .waits .tile else
  if k.handleBad [.handle q] then .fault Status.state else
  if (k.handle q.toNat).state = .pending then .waits .pending else
  match ofFetch k e src with
    | .wait w => .waits w
    | .fault st => .fault st
    | .got g k1 _ =>
      if Fmt.isMx g.tile.fmt && k.d12 then .fault Status.unsupported else
      match sendReady k1 .outflow q.toNat g.tile.fmt with
      | some d => d
      | none =>
        let (t0, n0) := g.src k1.d12
        let k2 := if g.slot then k1.countMx n0 else k1
        match (k2.handle q.toNat).kind with
        | .contribution _ => .fault Status.operand
        | .gather gid =>
          if !s.tagCurrent (s.coreTag c) then .fault Status.revoked else
          match s.sendGather c k2 e q.toNat gid t0 with
          | none => .waits .none
          | some t => .done (t.census c (t.core c) e g.census n0)
        | _ =>
          let (t, refused) := sendTile c s k2 e q.toNat t0
          if refused then .fault Status.revoked else .done (t.census c (t.core c) e g.census n0)

/-- OF_SND (03 R91). -/
def execOfSnd (core : Nat) (s : State) : Out :=
  onStation core .outflow s (fun i => match i with | .outf (.snd src q) _ => some (src, q) | _ => none)
    (fun k e (src, q) => sndBody core s k e src q)

/-! ### PUT (03 R91; 05 R143; 06 R167-R170, R180) -/

/-- The effect of OF.PUT. -/
def putBody (c : Nat) (s : State) (k : Core) (e : QEntry) (src : Spec) (ta : TReg) (toZero : Bool) : Did :=
  match ofCheck k e src (some ta) false false with
  | some st => .fault st
  | none => match ofFetch k e src with
    | .wait w => .waits w
    | .fault st => .fault st
    | .got g k1 _ =>
      if Fmt.isMx g.tile.fmt && k.d12 then .fault Status.unsupported else
      let d := e.d ta
      let (t0, n0) := g.src k1.d12
      let (t, n) := tileOfVals d.fmt (if toZero then .toZero else .rne) t0.vals
      let k2 := ((if g.slot then k1.countMx n0 else k1).writeTile d t).countSats n
      .done ((s.setCore c k2).census c k2 e g.census 
        (if k1.d12 then clampedOnce true g.tile.elems (t0.vals.map (fun v => (Fmt.conv d.fmt (if toZero then .toZero else .rne) v).2)) else n))

/-- OF_PUT (03 R91). -/
def execOfPut (core : Nat) (s : State) : Out :=
  onStation core .outflow s (fun i => match i with | .outf (.put src ta z) _ => some (src, ta, z) | _ => none)
    (fun k e (src, ta, z) => putBody core s k e src ta z)

/-! ### GSND (10 R280, R281) -/

/-- One element in BS8 mode: the byte, and whether a clamp is counted. -/
def bs8Elem (e : Int) (x : Elem) : Nat × Bool :=
  match Num.scale (Flt.w48.decode x.toNat) (-e) with
  | .nan => (0, true)
  | .inf s => (encodeInt 8 (if s then -127 else 127), true)
  | .fin s m x =>
    let q := Num.toInt .rne s m x
    if 127 < q then (127, true) else if q < -127 then (encodeInt 8 (-127), true) else (encodeInt 8 q, false)

/-- One element in Sign1 mode: the bit, whether a NaN is counted, and the residual. -/
def sign1Elem (e : Int) (x : Elem) : Nat × Bool × Elem :=
  let v := Flt.w48.decode x.toNat
  if v.isNan then (0, true, BitVec.ofNat 48 (Flt.w48.conv .rne .nan).1) else
  let b := x.toNat / 2 ^ 47 % 2
  let unit := Num.scale (.fin (b = 0) 1 0) e
  (b, false, BitVec.ofNat 48 (Flt.w48.conv .rne (Num.add v unit)).1)

/-- The effect of OF.GSND: the block goes into the contribution runnel, from which the engine takes it (10 R278, R280, R281).
A group that is gone is REVOKED where the tenancy's epoch has advanced, else STATE. -/
def gsndBody (c : Nat) (s : State) (k : Core) (e : QEntry) (a q : Nat) (sb : Word) : Did :=
  let h := k.handle q
  match h.state with
  | .unbound => .fault Status.state
  | .closing => .fault Status.state
  | .pending => .waits .pending
  | .opened =>
    match h.kind with
    | .contribution gid =>
      if !s.tagCurrent (s.coreTag c) then .fault Status.revoked
      else match s.findRg gid with
      | none => .fault Status.state
      | some x =>
        if h.credits = 0 then .waits .credit else
        match k.closeChunk a with
        | none => .waits .engine
        | some k1 =>
          let ex := signedOf 8 sb.toNat
          let raw := (k1.slot a).elems
          let (l, n0) := slotRead k1.d12 raw
          let sign1 := (s.rg x).sign1
          let bs := if sign1 then l.map (fun v => let r := sign1Elem ex v; (r.1, r.2.1)) else l.map (bs8Elem ex)
          let n := (bs.filter (·.2)).length
          let k1 := k1.countMx n0
          let k2 := if sign1 then k1.setSlot a (Slot.ofElems (l.map (fun v => (sign1Elem ex v).2.2))) else k1
          let tile : Tile := { fmt := Fmt.bs8, elems := bs.map (fun v => BitVec.ofNat 48 v.1), scales := [sb.toNat % 256], tr := false }
          let k3 := (k2.countSats n).setHandle q { h with
            credits := h.credits - 1, pos := (h.pos + 1) % 2 ^ 32, ring := h.ring ++ [.tile tile] }
          .done (((s.setCore c k3).census c k3 e [raw] (clampedOnce k1.d12 raw (bs.map (·.2)))).runEngine x)
    | _ => .fault Status.operand

/-- OF_GSND (10 R280, R281). -/
def execOfGsnd (core : Nat) (s : State) : Out :=
  onStation core .outflow s (fun i => match i with | .outf (.gsnd a q sb) _ => some (a, q, sb) | _ => none)
    (fun k e (a, q, sb) => gsndBody core s k e a.toNat q.toNat (e.s sb))

end Sys2Proof.Machine
end

