-- ==== Sys2Proof/Machine/Issue.lean ====
section
/-! DEFINITION. Fetch and dispatch (02 R42-R44; 03 R73, R79, R84, R98, R99), retirement (03 R100; 02 R48, R61) and the halt of
a core (03 R104-R106): INSTRUCTION_DISPATCH, STATION_RETIRE, CORE_HALT. -/

namespace Sys2Proof.Machine

/-! ### What an instruction names -/

/-- Descriptors that a spec names. -/
def specTds : Spec → List TReg
  | .pond t => [t]
  | _ => []
/-- The s registers a station instruction names, its TKS among them (02 R44). -/
def insRegs (i : PInstr) : List Reg :=
  (match (insTok i).tkw with | some (_, r) => [r] | none => []) ++
  match i with
  | .inn (.ldd _ _ sa sb sc) _ => [sa, sb, sc]
  | .vc (.ew _ _ _ _ sc) _ => [sc]
  | .vc (.cvt _ _ _ sc) _ => [sc]
  | .vc (.upd _ _ _ _ sc) _ => [sc]
  | .vc (.rng _ sc) _ => [sc]
  | .outf (.st _ sa sb sc) _ => [sa, sb, sc]
  | .outf (.stl _ sa sb) _ => [sa, sb]
  | .outf (.gsnd _ _ sb) _ => [sb]
  | .sy _ _ _ _ _ sa sb => [sa, sb]
  | _ => []
/-- The descriptors a station instruction names (02 R44). -/
def insTds : PInstr → List TReg
  | .inn (.ldt t _) _ => [t]
  | .inn (.ldd t _ _ _ _) _ => [t]
  | .am (.save _ t) _ => [t]
  | .am (.rest _ t) _ => [t]
  | .vc (.ew _ d a b _) _ => specTds d ++ specTds a ++ specTds b
  | .vc (.un _ d a) _ => specTds d ++ specTds a
  | .vc (.red _ _ d a) _ => specTds d ++ specTds a
  | .vc (.bc _ _ d a b) _ => specTds d ++ specTds a ++ specTds b
  | .vc (.cvt _ d a _) _ => specTds d ++ specTds a
  | .vc (.upd _ d a b _) _ => specTds d ++ specTds a ++ specTds b
  | .vc (.rng d _) _ => specTds d
  | .outf (.st x _ _ _) _ => specTds x
  | .outf (.stl x _ _) _ => specTds x
  | .outf (.snd x _) _ => specTds x
  | .outf (.put x t _) _ => specTds x ++ [t]
  | _ => []

/-! ### Checks at dispatch (03 R73, R79) -/

/-- A bound handle used at a station in a direction that does not own that end (03 R79). An unbound one is left to 02 R59. -/
def Core.wrongEnd (k : Core) (q : QReg) (u : Stn) (consumer : Bool) : Bool :=
  let h := k.handle q.toNat
  decide (h.state ≠ .unbound) && (h.consumer != consumer || decide (h.stn ≠ u))
/-- A source spec of the vector station names what it does not read from. -/
def Core.badVcSrc (k : Core) : Spec → Bool
  | .handle q => k.wrongEnd q .vector true
  | .lA | .lB | .lO => true
  | _ => false
/-- A destination spec of the vector station names what it does not write to. -/
def Core.badVcDst (k : Core) : Spec → Bool
  | .handle q => k.wrongEnd q .vector false
  | .lA | .lB | .lV => true
  | _ => false
/-- A SRC of the outflow station names what it does not read from (03 R91). -/
def badOfSrc : Spec → Bool
  | .handle _ => true
  | .lA | .lB | .lV => true
  | _ => false
/-- The check of 03 R79. -/
def Core.operandBad (k : Core) : PInstr → Bool
  | .inn (.rcv _ q) _ => k.wrongEnd q .intake true
  | .vc (.ew _ d a b _) _ => k.badVcDst d || k.badVcSrc a || k.badVcSrc b
  | .vc (.un _ d a) _ => k.badVcDst d || k.badVcSrc a
  | .vc (.red _ _ d a) _ => k.badVcDst d || k.badVcSrc a
  | .vc (.bc _ _ d a b) _ => k.badVcDst d || k.badVcSrc a || k.badVcSrc b
  | .vc (.cvt _ d a _) _ => k.badVcDst d || k.badVcSrc a
  | .vc (.upd _ d a b _) _ => k.badVcDst d || k.badVcSrc a || k.badVcSrc b
  | .vc (.rng d _) _ => k.badVcDst d
  | .outf (.st x _ _ _) _ => badOfSrc x
  | .outf (.stl x _ _) _ => badOfSrc x
  | .outf (.snd x q) _ => badOfSrc x || k.wrongEnd q .outflow false
  | .outf (.put x _ _) _ => badOfSrc x
  | .outf (.gsnd _ q _) _ => k.wrongEnd q .outflow false
  | _ => false
/-- A VC.CVT whose SC is used by no source of a known format (05 R146, 03 R73). -/
def Core.cvtBad (k : Core) : PInstr → Bool
  | .vc (.cvt _ _ a sc) _ =>
    let f : Option Nat := match a with
      | .pond t => some (Desc.of (k.td t)).fmt
      | .slot _ => some Fmt.w48
      | .handle q => if (k.handle q.toNat).state = .unbound then none else some (k.handle q.toNat).fmt
      | _ => none
    sc != 0 && (match f with | some f => f != Fmt.int32 && f != Fmt.bs8 | none => false)
  | _ => false

/-! ### Dispatch -/

/-- The station whose queue an instruction goes to (03 R98); none for the scalar unit. -/
def insStn (k : Core) : PInstr → Option Stn
  | .inn _ _ => some .intake
  | .mx _ _ => some .matrix
  | .am _ _ => some .accmem
  | .vc _ _ => some .vector
  | .outf _ _ => some .outflow
  | .sy _ _ u _ _ _ _ => if u = .scalar then none else some u
  | .rclose _ q => some (k.handle q.toNat).stn
  | _ => none

/-- Entries of a station's issue queue (02). -/
def queueDepth : Nat := 16
/-- The entry that a station instruction dispatched now becomes (02 R44, 03 R86). -/
def Core.entry (k : Core) (i : PInstr) : QEntry :=
  { seq := k.dseq, ins := i, pc := k.pc,
    sv := (insRegs i).foldl (fun m r => sset 0 m r.toNat (k.reg r)) [],
    tv := (insTds i).foldl (fun m t => sset 0 m t.toNat (k.td t)) [], cfg := k.cfg }
/-- Places an instruction at the tail of a station's queue, or stops dispatch where 16 entries have not started (02 R42, R43). -/
def enqueue (c : Nat) (u : Stn) (i : PInstr) (s : State) (k : Core) : State :=
  if queueDepth ≤ ((k.q u).filter (fun e => e.stage = .queued)).length then s.setCore c (k.setWait .scalar .queueFull)
  else s.setCore c (k.setQ u (k.q u ++ [k.entry i])).advance

/-- A SY instruction of the scalar unit waits for its token, then runs (03 R94, R100). -/
def sySc (op : SyOp) (t : TokF) (c : Nat) (nf : Bool) (sd sa sb : Reg) (s : State) (k : Core) : State :=
  match t.tkw with
  | none => syScalar op t.tki c nf sd sa sb s k
  | some (tk, r) =>
    let thr : BitVec 32 := (k.reg r).truncate 32
    if tokReached (k.tok tk.toNat) thr then syScalar op t.tki c nf sd sa sb s k
    else s.setCore c (k.setWait .scalar (.token tk.toNat thr.toNat))

/-- The instruction at the program counter, decoded and past the checks of dispatch: the scalar unit executes it or places it in
its station's queue (02 R42, 03 R98). -/
def issue (c : Nat) (i : PInstr) (s : State) (k : Core) : State :=
  match i with
  | .alu op sd sa sb => alu op c sd sa sb s k
  | .imm op sd sa x => immOp op c sd sa x s k
  | .lds sd sa x => lds c sd sa x s k
  | .sts sd sa x => sts c sd sa x s k
  | .br op sa sb off => branch op c sa sb off s k
  | .jmp off => jmp c off s k
  | .call off => call c off s k
  | .ret => ret c s k
  | .tkw tk sa => tkw c tk sa s k
  | .tset t sa => tset c t sa s k
  | .tbase t sa x => tbase c t sa x s k
  | .tget sd t => tget c sd t s k
  | .ccfg sa x => ccfg c sa x s k
  | .ropen f => ropen c f s k
  | .rclose _ q =>
    if (k.handle q.toNat).state = .unbound then s.setCore c (k.scalarFault Status.state)
    else enqueue c (k.handle q.toNat).stn i s k
  | .nop => s.setCore c k.advance
  | .halt => haltWith Status.ok c s k
  | .brk => haltWith Status.break c s k
  | .trap => haltWith Status.trap c s k
  | .sy op t u nf sd sa sb => if u = .scalar then sySc op t c nf sd sa sb s k else enqueue c u i s k
  | .alloc nf sd sa => alAlloc c nf sd sa s k
  | .free nf sd sa => alFree c nf sd sa s k
  | .cpId sd => cpIdOp c sd s k
  | .cpCap sd x => cpCapOp c sd x s k
  | .cpCfg sd x => cpCfgOp c sd x s k
  | .cpMode sd => cpModeOp c sd s k
  | .inn _ _ => enqueue c .intake i s k
  | .mx _ _ => enqueue c .matrix i s k
  | .am _ _ => enqueue c .accmem i s k
  | .vc _ _ => enqueue c .vector i s k
  | .outf _ _ => enqueue c .outflow i s k

/-! ### Retirement -/

/-- Returns the credit of a tile that a retiring instruction took: on the canal, or as an RCRED packet (02 R61, 09 R262). -/
def State.returnCredit (c : Nat) (s : State) (q : Nat) : State :=
  let h := (s.core c).handle q
  match h.kind with
  | .canal => s.sendCanal (.credit (s.partOf c) h.rid h.peer h.peerQ 1)
  | _ => s.fabricCtl c h 5 0 (rcCredit + 256)

/-- STATION_RETIRE: the instruction at a station's head that has had its effect leaves the queue, increments its token and
returns the credits of the tiles it took (03 R100; 02 R48, R61). -/
def execStationRetire (core : Nat) (stn : Stn) (s : State) : Out :=
  onCore core <|
    let k := s.core core
    match k.head stn with
    | none => s
    | some e =>
      if e.stage ≠ .done then s else
      let s' := s.setCore core ((k.setQ stn ((k.q stn).drop 1)).incOpt (insTok e.ins).tki)
      (e.took.foldl (State.returnCredit core) s').progress (s.partOf core)

/-! ### Halt (03 R104-R106) -/

/-- A waiter sits on a core. -/
def Who.onCore (c : Nat) (w : Who) : Bool := match w with
  | .core d _ => d == c
  | _ => false
/-- The waits of a core are removed at SYN, and what was granted to them reaches nobody (03 R104). -/
def State.dropWaits (s : State) (f : Who → Bool) : State :=
  { s with syn := { s.syn with
      objs := s.syn.objs.map (fun (k, o) => (k, o.map (fun o => { o with waiters := o.waiters.filter (fun w => !f w.who) })))
      grants := s.syn.grants.filter (fun (_, g) => match g with | some g => !f g.who | none => true) } }

/-- Messages of a runnel that reach nobody once its consumer's core has halted; requests stay (02 R59). -/
def State.purgeRunnel (s : State) (part rid : Nat) (items : Bool) : State :=
  { s with canal := s.canal.filter (fun m => match m with
      | .openReq _ _ => true
      | .item p r _ _ _ => !(items && p == part && r == rid)
      | m => !(m.key == (part, rid))) }

/-- The ledger of an Open runnel, or of one whose producer closes: credits, tiles on the canal, tiles in the ring or taken by an
instruction that has not retired,
and credits on the canal; a consumer that has closed holds none (02 R62). -/
def State.ledgerSum (s : State) (part rid : Nat) (prod cons : Nat × Nat) : Nat :=
  let h := (s.core prod.1).handle prod.2
  let k := s.core cons.1
  h.credits + (s.canal.map (fun m => match m with
      | .item p r _ _ (.tile _) => if p = part ∧ r = rid then 1 else 0
      | .credit p r _ _ n => if p = part ∧ r = rid then n else 0
      | _ => 0)).sum +
    (if (k.handle cons.2).state ≠ .unbound ∧ (k.handle cons.2).consumer ∧ (k.handle cons.2).rid = rid then
      ((k.handle cons.2).ring.filter (fun x => x != .endMark)).length + (k.unretired.map (fun e => (e.took.filter (· = cons.2)).length)).sum
    else 0)
/-- An end counts in the ledgers: it is Open, or closes. -/
def Handle.counts (h : Handle) : Bool := h.state == .opened || h.state == .closing
/-- The audit of 02 R62 on a producer end. -/
def State.auditHalt (s : State) (part rid : Nat) (prod cons : Nat × Nat) : State :=
  let h := (s.core prod.1).handle prod.2
  if h.counts ∧ s.ledgerSum part rid prod cons ≠ h.depth then
    s.report (Rec.mk' Status.integrity Sev.devFatal Blk.sec (coreSec prod.1) part (unitLoc prod.1 h.stn))
  else s

/-- What this module holds of the ledger of a fabric end: a producer's credits, or the tiles in a consumer's ring and those taken by
instructions that have not retired, never exceed the depth (09 R262). -/
def State.fabricOk (s : State) (c q : Nat) : Bool :=
  let k := s.core c
  let h := k.handle q
  if h.consumer then
    let held := ((List.range h.depth).filter (fun i => (sget (0, noPacket) s.hwk.rings (ringKey c q i)).1 = 1)).length
    decide (held + (k.unretired.map (fun e => (e.took.filter (· = q)).length)).sum ≤ h.depth)
  else decide (h.credits ≤ h.depth)
/-- The audit of a fabric end (09 R262, 02 R62). -/
def State.auditFabric (s : State) (c q : Nat) : State :=
  if s.fabricOk c q then s else s.report (Rec.mk' Status.integrity Sev.devFatal Blk.sec (coreSec c) (s.partOf c) (unitLoc c ((s.core c).handle q).stn))

/-- The station that takes the tiles of a local runnel. -/
def Spec.taker : Spec → Stn
  | .lV => .vector
  | .lO => .outflow
  | _ => .matrix
/-- The ledger of one end of a core: canal, fabric, contribution or gather (02 R62; 09 R262; 10 R297). -/
def State.endOk (s : State) (p c q : Nat) (h : Handle) : Bool :=
  match h.kind with
  | .canal => !h.counts || h.consumer || decide (s.ledgerSum p h.rid (c, q) (h.peer, h.peerQ) = h.depth)
  | .fabric => !h.counts || s.fabricOk c q
  | _ => !h.counts || decide (h.credits + h.ring.length = 4)
/-- The stations of a core whose runnels' ledgers fail, local runnels first. -/
def State.badEnds (s : State) (p c : Nat) (k : Core) : List Stn :=
  (([.lA, .lB, .lV, .lO] : List Spec).filter (fun x => !k.localOk x)).map Spec.taker ++
    (k.handles.filter (fun e => !s.endOk p c e.1 e.2)).map (fun e => e.2.stn)
/-- The cores of a partition that run. -/
def State.runCores (s : State) (p : Nat) : List (Nat × Core) := s.cores.filter (fun e => s.partOf e.1 = p ∧ !e.2.halt)
/-- The ledgers of the runnels of a partition. -/
def State.runnelsOk (s : State) (p : Nat) : Bool := (s.runCores p).all (fun e => (s.badEnds p e.1 e.2).isEmpty)
/-- The audit of the runnels of a partition: each core whose ledgers fail is named with its first such station (02 R62; 17 R457). -/
def State.auditRunnels (s : State) (p : Nat) : State :=
  (s.runCores p).foldl (fun t e => match s.badEnds p e.1 e.2 with
    | [] => t
    | u :: _ => t.report (Rec.mk' Status.integrity Sev.devFatal Blk.sec (coreSec e.1) p (unitLoc e.1 u))) s

/-- Hardware unbinds one end of a core that halts, and the surviving end acts as the last row of 02 R59 says (03 R106). The engine still
receives the tiles sent to a reduction group. -/
def State.haltEnd (c : Nat) (s : State) (q : Nat) : State :=
  let k := s.core c
  let h := k.handle q
  let p := s.partOf c
  let gone (s : State) : State := s.setCore c ((s.core c).setHandle q {})
  match h.kind with
  | .canal =>
    if h.consumer then
      match s.findEnd p h.rid false with
      | none => gone s
      | some (pc, pq) =>
        let x := (s.core pc).handle pq
        let acked := s.canal.any (fun m => match m with | .openAck p' r _ _ _ _ => p' == p && r == h.rid | _ => false)
        if h.state = .opened ∧ (x.state ≠ .pending ∨ acked) then
          let s := gone (s.auditHalt p h.rid (pc, pq) (c, q))
          let k' := s.core pc
          (s.setCore pc (let k'' := k'.setHandle pq {}; if x.state = .closing then k''.rcloseDone x.stn pq else k'')).purgeRunnel p h.rid true
        else gone s
    else match h.state with
    | .pending =>
      (match s.findEnd p h.rid true with
       | some (cc, cq) =>
         if ((s.core cc).handle cq).state = .opened then
           ((gone s).purgeRunnel p h.rid false).sendCanal (.item p h.rid cc cq .endMark)
         else (gone s).withdrawReq p h.rid c
       | none => (gone s).withdrawReq p h.rid c)
    | .opened => (gone ((s.auditHalt p h.rid (c, q) (h.peer, h.peerQ)).purgeRunnel p h.rid false)).sendCanal
        (.item p h.rid h.peer h.peerQ .endMark)
    | _ => (gone (s.auditHalt p h.rid (c, q) (h.peer, h.peerQ))).purgeRunnel p h.rid false
  | .fabric =>
    if h.consumer then
      let s := (s.auditFabric c q).clearRing c q
      if h.state = .opened then (gone s).fabricCtl c h 5 0 rcGone else gone s
    else match h.state with
    | .pending => (gone s).fabricCtl c h 1 0 ctlWithdraw
    | .opened => (gone (s.auditFabric c q)).fabricCtl c h 1 h.pos ctlMark
    | _ => gone s
  | .contribution gid =>
    let s := s.auditRed c h
    gone (match s.findRg gid with
      | some e => if h.ring.isEmpty then s else s.setRg e { s.rg e with left := (s.rg e).left ++ [(p, c, h)] }
      | none => s)
  | .gather _ => gone (s.auditRed c h)

/-- A core halts with a status, unit and offset (03 R104-R106; 02 R70): blocked instructions and waits are withdrawn, every end
is unbound, and the local runnels are emptied (03 R112). -/
def State.haltCore (s : State) (c : Nat) (status : Nat) (u : Stn) (pc : Nat) : State :=
  let s := (((s.core c).handles.filter (fun e => e.2.state ≠ .unbound)).map (·.1)).foldl (State.haltEnd c) s
  let k := s.core c
  let k := { k with
    run := false, halt := true, queues := [], waits := [], syPend := none, stop := none, lA := [], lB := [], lV := [], lO := [], lpos := []
    fstat := status, fstn := if status = 0 then .scalar else u, fpc := if status = 0 then 0 else pc }
  (s.setCore c k).dropWaits (Who.onCore c)

/-- The cores of the launch of a queue. -/
def State.launchCores (s : State) (f q : Nat) : List (Nat × Core) :=
  s.cores.filter (fun e => match e.2.launch with
    | some l => l.fn == f && l.q == q
    | none => false)

/-- The fault report of a launch (12 R349): core, FSTN, FPC, and bit 31. -/
def faultReport (c : Nat) (k : Core) : Nat := c + place 12 (stnCode k.fstn) + place 15 (k.fpc % 65536) + place 31 1

/-- The command in hand of a queue finishes with a status and results. -/
def Queue.finish (x : Queue) (status r0 r1 : Nat) (sat nspec : Bool := false) : Queue :=
  match x.cur with
  | some c => { x with cur := some { c with stage := .done, status, r0, r1, sat, nspec } }
  | none => x

/-- Once every core of a launch has halted the launch completes: with the status of the lowest-numbered core whose status is
neither OK nor CANCELLED, else CANCELLED where a core was stopped, else OK (03 R105; 12 R349). -/
def State.launchCheck (s : State) (f q : Nat) : State :=
  let l := s.launchCores f q
  if l.isEmpty ∨ l.any (fun e => !e.2.halt) then s else
  let bad := l.find? (fun e => e.2.fstat ≠ Status.ok ∧ e.2.fstat ≠ Status.cancelled)
  let status := match bad with
    | some e => e.2.fstat
    | none => if l.any (fun e => e.2.fstat = Status.cancelled) then Status.cancelled else Status.ok
  let r0 := match bad with
    | some e => faultReport e.1 e.2
    | none => 0
  let s := l.foldl (fun s e => s.setCore e.1 { s.core e.1 with launch := none }) s
  s.setQueue f q ((s.queue f q).finish status r0 0 (l.any (·.2.sawSat)) (l.any (·.2.sawSpec)))

/-- Every core of a list that has not halted is stopped with a status (03 R105). -/
def State.stopCores (s : State) (l : List Nat) (status : Nat) : State :=
  l.foldl (fun s c => s.setCore c ((s.core c).stopWith status)) s
/-- A core belongs to the launch of a queue. -/
def Core.ofLaunch (k : Core) (f q : Nat) : Bool := match k.launch with
  | some l => l.fn == f && l.q == q
  | none => false
/-- The cores of a launch in the saved image of a stopped partition are stopped with a status, so that they halt where it goes on. -/
def State.stopSaved (s : State) (p f q status : Nat) : State :=
  match (s.part p).saved with
  | none => s
  | some x => s.setPart p { s.part p with saved := some { x with cores := x.cores.map (fun e =>
      if e.2.ofLaunch f q then (e.1, e.2.stopWith status) else e) } }
/-- Stops the launch of a queue (03 R105), one whose cores are saved included (13 R360). -/
def State.stopLaunch (s : State) (f q status : Nat) : State :=
  (s.stopCores ((s.launchCores f q).map (·.1)) status).stopSaved (f - 1) f q status

/-- An instruction that has started blocks, for a tile, a credit or a sync object; a MX.PROM whose promotion goes on runs, and so does an
IN.LDD, OF.ST or OF.STL whose accesses are under way. -/
def QEntry.blocked (e : QEntry) : Bool :=
  decide (e.stage = .running) && !e.resumes && (match e.ins with | .mx _ _ => false | _ => true)
/-- No instruction of the core runs: for CT.HALT's drain, every queue is empty; after a fault or stop, no instruction is left
but those that block (03 R104). -/
def Core.drained (k : Core) (drain : Bool) : Bool :=
  if drain then k.unretired.isEmpty else k.unretired.all (·.blocked)

/-- CORE_HALT: a core whose stop is under way halts once no instruction of it runs, and the other cores of its launch stop where
its status is not OK (03 R104-R106). -/
def execCoreHalt (core : Nat) (s : State) : Out :=
  onCore core <|
    let k := s.core core
    match k.stop with
    | none => s
    | some x =>
      if !k.drained x.drain then s else
      let bound := k.handles.any (fun e => e.2.state ≠ .unbound)
      let status := if x.drain ∧ x.status = Status.ok ∧ bound then Status.state else x.status
      let t := s.haltCore core status x.stn x.pc
      match k.launch with
      | none => t
      | some l => (if status = Status.ok then t else t.stopLaunch l.fn l.q Status.cancelled).launchCheck l.fn l.q

/-! ### Beds that fail at run time (17 R455) -/

/-- Good beds of a section. -/
def State.goodBeds (s : State) (n : Nat) : Nat := ((List.range 16).filter (s.bedGood n)).length
/-- Sections become Free; one with fewer than 12 good beds is fenced now (13 R371; 17 R455), and with
the last section compute and Aquifer service end (17 R451). -/
def State.freeSection (s : State) (n : Nat) : State :=
  let s := s.setSec n { s.sec n with catchC := 0 }
  let s := (s.setSlu (2 * n) { s.slu (2 * n) with assigned := false, part := 0, scrub := false }).setSlu (2 * n + 1)
    { s.slu (2 * n + 1) with assigned := false, part := 0, scrub := false }
  if s.goodBeds n < 12 then
    let s := s.holdSecs
    let left := s.mon.sections - (if bit s.mon.sections n then 2 ^ n else 0)
    { s.setSec n { s.sec n with fenced := true } with
      mon := { s.mon with sections := left, compute := s.mon.compute && left != 0, aquifer := s.mon.aquifer && left != 0 } }
  else s

/-- A bed is power-gated: it has no point, and stretches no clock; DROOP ends with the last bed that does (16 R429; 17 R453). -/
def Pwr.gate (x : Pwr) (b : Nat) : Pwr :=
  let l := sset false x.stretched b false
  { x with bedPoint := sset 0 x.bedPoint b 0, stretched := l,
           reasons := if l.isEmpty ∧ bit x.reasons 7 then x.reasons - 2 ^ 7 else x.reasons }
/-- Monarch fences a bed: it goes to pass-through and is gated, its cores stop with POISONED, and the fence leaves a record and an entry of
the list
that VAON keeps (17 R455). -/
def State.fenceBed (s : State) (sec bed : Nat) : State :=
  if 16 ≤ bed ∨ !s.bedGood sec bed then s
  else
    let c := s.sec sec
    let s : State := { s.setSec sec { c with runf := c.runf + 2 ^ bed } with pwr := s.pwr.gate (16 * sec + bed) }
    let cores := (s.cores.filter (fun e => coreSec e.1 = sec ∧ coreBed e.1 = bed)).map (·.1)
    let s := s.stopCores cores Status.poisoned
    let s : State := { s with mon := { s.mon with fenceList := s.mon.fenceList ++ [(sec, bed)] } }
    match s.secPart sec with
    | some p => s.report { Rec.mk' Status.poisoned Sev.partFatal Blk.sec sec p 0 bed with fence := true }
    | none => (s.freeSection sec).report { Rec.mk' Status.poisoned Sev.corrected Blk.sec sec 0xFF 0 bed with fence := true }

/-- Nanoseconds of 24 h. -/
def dayNs : Nat := 86400000000000
/-- An uncorrectable error of a bed's memories: the third within 24 h fences the bed (17 R455). -/
def State.bedError (s : State) (sec bed : Nat) : State :=
  let c := s.sec sec
  let l := (sget [] c.errTimes bed ++ [s.tim.up]).filter (fun t => decide (s.tim.up < t + dayNs))
  let s := s.setSec sec { c with errTimes := sset [] c.errTimes bed l }
  if 3 ≤ l.length then s.fenceBed sec bed else s

/-! ### INSTRUCTION_DISPATCH (02 R42) -/

/-- Fetches, decodes, checks and issues the instruction at the program counter: FETCH at or beyond the image length (03 R84),
POISONED where the instruction store reports an uncorrectable error in the word (03 R107), ILLEGAL (03 R73), OPERAND (03 R79). The
error's own record is a Deferred one against the partition, since the word has been used by nobody. DESIGN CHOICE: no chapter lays
that record out (log entry 95). -/
def dispatchOne (c : Nat) (bad : Bool) (s : State) (k : Core) : State :=
  if k.ilen ≤ k.pc then s.setCore c (k.scalarFault Status.fetch)
  else if bad then
    ((s.setCore c (k.scalarFault Status.poisoned)).report
      (Rec.mk' Status.poisoned Sev.deferred Blk.sec (coreSec c) (s.partOf c) (unitLoc c .scalar) (coreBed c))).bedError (coreSec c) (coreBed c)
  else match decodePezal (sget 0 k.istore (k.pc / 8)) with
  | none => s.setCore c (k.scalarFault Status.illegal)
  | some i =>
    if k.cvtBad i then s.setCore c (k.scalarFault Status.illegal)
    else if k.operandBad i then s.setCore c (k.scalarFault Status.operand)
    else issue c i s k

/-- INSTRUCTION_DISPATCH (02 R42). `bad` is what the instruction store's ECC says of the word fetched. -/
def execInstructionDispatch (core : Nat) (bad : Bool) (s : State) : Out := onScalar core s (dispatchOne core bad s)

end Sys2Proof.Machine
end

