-- ==== Sys2Proof/Machine/Siphon.lean ====
section
/-! DEFINITION. The siphon schedules (07 R203-R207): SIPHON_DESCRIPTOR, SIPHON_GROUP_DELIVERY, SIPHON_DESCRIPTOR_COMPLETE,
SIPHON_FENCE_REACHED. -/

namespace Sys2Proof.Machine

/-- Schedules of a section (07). -/
def schedCount : Nat := 8
/-- One schedule. -/
def Sec.sched (x : Sec) (k : Nat) : Sched := sget {} x.scheds k
/-- The Sealed regions of dead contexts that no schedule of a partition which maps them reads any more are released (07 R193; 12 R352). -/
def State.reapRegions (s : State) : State :=
  (List.range 10).foldl (fun s p =>
    if s.regionInUse p then s
    else (((s.part p).regions.filter (fun e => e.2.releasing)).map Prod.fst).foldl (fun s i => s.dropRegion p i) s) s
/-- A schedule's new state; one that does not run may have been the last that held a region. -/
def State.setSched (s : State) (n k : Nat) (x : Sched) : State :=
  let t := s.setSec n { s.sec n with scheds := sset {} (s.sec n).scheds k x }
  if x.state = .running then t else t.reapRegions

/-- A window descriptor read by fields; none where a reserved bit is set or a field holds an undefined value (07 R203, R204). -/
def WinDesc.parse (l : List Byte) : Option WinDesc :=
  if 0xFFFFF < field l 12 4 ∨ 15 < field l 16 1 ∨ 1 < field l 17 1 ∨ 1 < field l 18 1 ∨ field l 19 1 ≠ 0 ∨
      field l 22 2 ≠ 0 ∨ field l 30 2 ≠ 0 then none
  else some { src := field l 0 8, len := field l 8 4, dst := field l 12 4, tok := field l 16 1, slice := field l 17 1 = 1,
              waitf := field l 18 1 = 1, fence := field l 20 2, fval := field l 24 6, mask := field l 32 32 }

/-- The cores of a section that a descriptor names, ascending, as numbers within the section. -/
def WinDesc.cores (d : WinDesc) : List Nat := (List.range 256).filter (bit d.mask)
/-- Bytes that each named core receives (07 R203). -/
def WinDesc.share (d : WinDesc) : Nat := if d.slice then d.len / d.cores.length else d.len

/-- A source lies in the window of the siphon's section or in Aquifer space (07 R186, R188), whatever its length. -/
def State.siphonPlace (s : State) (p n dva : Nat) : Bool := match s.placeOf p dva with
  | .res m _ => m == n
  | .aq => true
  | .none => false
/-- The checks of 07 R204 but for the fence (17 R454 for fenced beds): true where the descriptor fails. -/
def State.windowBad (s : State) (p n : Nat) (d : WinDesc) : Bool :=
  let cs := d.cores
  let sz := d.share
  d.len = 0xFFFFFFFF || decide (d.src % 128 ≠ 0) || decide (d.len % 128 ≠ 0) || decide (d.dst % 128 ≠ 0) ||
  !(s.siphonPlace p n d.src) || !s.coreRange p n d.src d.len || (cs.isEmpty && decide (d.len ≠ 0)) ||
  cs.any (fun c => !s.bedGood n (c / 16)) ||
  (decide (d.len ≠ 0) && ((d.slice && decide (d.len % cs.length ≠ 0 ∨ sz % 128 ≠ 0)) || decide (pondBytes < d.dst + sz) ||
    cs.any (fun c => overlaps [(d.dst, d.dst + sz)] (s.core (n * 256 + c)).rings)))

/-- A schedule goes to Faulted at its descriptor. -/
def State.schedFault (s : State) (n k st : Nat) : State :=
  s.setSched n k { (s.sec n).sched k with state := .faulted, fstat := st, cur := none, moved := 0, past := [], stopAsked := false, asked := false }

/-- A Stop of a schedule (07 R206): a Running one finishes its descriptor first. -/
def State.stopSched (s : State) (n k : Nat) : State :=
  let x := (s.sec n).sched k
  match x.state with
  | .idle => s
  | .running => s.setSched n k (if x.cur.isSome then { x with stopAsked := true } else { x with state := .idle })
  | .waiting => (s.setSched n k { x with state := .idle, cur := none, moved := 0, past := [] }).dropWaits (· == .siphon n k)
  | .done => s.setSched n k { x with state := .idle }
  | .faulted => s.setSched n k { x with state := .idle, fstat := 0 }

/-- SIPHON_DESCRIPTOR: a Running schedule reads its next descriptor, from a block that is still the section's (07 R192), and checks it
whole (07 R203, R204); a WAITF descriptor whose fence is below FVAL makes it wait (07 R206). -/
def execSiphonDescriptor (sec k : Nat) (s : State) : Out :=
  onSec sec <|
    let x := (s.sec sec).sched k
    match s.secPart sec with
    | none => s
    | some p =>
      if x.state ≠ .running ∨ x.cur.isSome ∨ x.count ≤ x.index then s
      else if !s.coreRange p sec (x.list + 64 * x.index) 64 then s.schedFault sec k Status.bounds
      else match s.readDva (.siphon sec k) p sec [(x.list + 64 * x.index, 64)] with
      | (t, .wait) => t.setSched sec k { x with asked := true }
      | (t, .done st) =>
        if st ≠ Status.ok then t.schedFault sec k st else
        match WinDesc.parse (s.dvaBytes p sec (x.list + 64 * x.index) 64) with
        | none => t.schedFault sec k Status.bounds
        | some d =>
          if s.windowBad p sec d then t.schedFault sec k Status.bounds
          else
          let x := { x with asked := false }
          if !d.waitf then t.setSched sec k { x with cur := some d, moved := 0 }
          else match t.synOp p d.fence .fwait d.fval (.siphon sec k) with
          | (t, .waits) => t.setSched sec k { x with state := .waiting, cur := some d, moved := 0 }
          | (t, .done st) => if st = Status.ok then t.setSched sec k { x with cur := some d, moved := 0 } else t.schedFault sec k st

/-- Bytes of one group (07 R205). -/
def groupBytes : Nat := 8192

/-- One core's part of a group: bytes from `at_` of the window written to its Pond, and its token once its last byte is there
(07 R205, 02 R48). -/
def State.deliverCore (s : State) (n : Nat) (d : WinDesc) (at_ : Nat) (l : List Byte) (j c : Nat) : State :=
  let core := n * 256 + c
  let k := s.core core
  let lo := if d.slice then j * d.share else 0
  let hi := lo + d.share
  let a := max lo at_
  let b := min hi (at_ + l.length)
  if a < b then
    let k := k.setBytes (d.dst + (a - lo)) (slice l (a - at_) (b - a))
    s.setCore core (if b = hi then k.incTok d.tok else k)
  else s

/-- A schedule has a group to deliver. -/
def Sched.due (x : Sched) : Bool := match x.cur with
  | some d => decide (x.state = .running ∧ x.moved < d.len)
  | none => false
/-- The schedule whose turn it is: the siphon serves the schedules with a group to deliver in rotation, from the lowest number (07
R205). -/
def Sec.sipNext (c : Sec) : Option Nat :=
  ((List.range schedCount).map (fun i => (c.sipTurn + i) % schedCount)).find? (fun k => (c.sched k).due)

/-- SIPHON_GROUP_DELIVERY: the next 8 KiB of the window of the schedule whose turn it is are read through the sluices or the Aquifer
port and delivered (07 R205); a schedule that stalls passes its turn on. Its descriptor's block may have been freed since the check:
the old contents are read (07 R192). A line that fails its check faults the schedule with the status, and no further token is posted
(assumption 30). -/
def execSiphonGroupDelivery (sec k : Nat) (s : State) : Out :=
  onSec sec <|
    let x := (s.sec sec).sched k
    match x.cur, s.secPart sec with
    | some d, some p =>
      if (s.sec sec).sipNext ≠ some k then s else
      let s := s.setSec sec { s.sec sec with sipTurn := (k + 1) % schedCount }
      let n := min groupBytes (d.len - x.moved)
      match s.beforeScrub x.past sec (fun s => s.readDva (.siphon sec k) p sec [(d.src + x.moved, n)]) with
      | (t, .wait) => t.setSched sec k { x with asked := true }
      | (t, .done st) =>
        if st ≠ Status.ok then t.schedFault sec k st else
        let l := s.dvaBytes p sec (d.src + x.moved) n
        let t := d.cores.zipIdx.foldl (fun t c => t.deliverCore sec d x.moved l c.2 c.1) t
        (t.setSched sec k { x with moved := x.moved + n, asked := false }).progress p
    | _, _ => s

/-- SIPHON_DESCRIPTOR_COMPLETE: every byte is delivered; a descriptor with LEN = 0 increments its tokens now (07 R205). The
schedule goes on, to Done after the last descriptor, or to Idle where a Stop was asked for (07 R206). -/
def execSiphonDescriptorComplete (sec k : Nat) (s : State) : Out :=
  onSec sec <|
    let x := (s.sec sec).sched k
    match x.cur with
    | none => s
    | some d =>
      if x.state ≠ .running ∨ x.moved < d.len then s else
      let t := if d.len = 0 then
          d.cores.foldl (fun t c => t.setCore (sec * 256 + c) ((t.core (sec * 256 + c)).incTok d.tok)) s
        else s
      let x := { x with cur := none, moved := 0, past := [], index := x.index + 1, pos := (x.pos + 1) % 2 ^ 32 }
      let x := if x.stopAsked then { x with state := .idle, stopAsked := false }
        else if x.count ≤ x.index then { x with state := .done } else x
      t.setSched sec k x

/-- SIPHON_FENCE_REACHED: the release of a waiting schedule's fence reaches it (07 R206; 11 R306). -/
def execSiphonFenceReached (sec k : Nat) (s : State) : Out :=
  onSec sec <|
    match s.syn.grants.find? (fun g => match g.2 with
      | some g => g.who == .siphon sec k && !s.frozen g.part
      | none => false) with
    | some (i, some g) => { s with syn := { s.syn with grants := sset none s.syn.grants i none } }.deliver g
    | _ => s

end Sys2Proof.Machine
end

