-- ==== Sys2Proof/Machine/Vault.lean ====
section
/-! DEFINITION. The key vault of Chrysalis (14 R379-R389): slots, their attribute words, private keys, and the key-encryption
keys of tenants and cocoons. -/

namespace Sys2Proof.Machine

/-! ### Slots (14 R382-R384) -/

/-- Bits of a USAGE byte (14 R383). -/
def Usage.xts : Nat := 0x01
def Usage.mac : Nat := 0x02
def Usage.gcm : Nat := 0x04
def Usage.derive : Nat := 0x08
def Usage.wrap : Nat := 0x10
def Usage.sign : Nat := 0x20
def Usage.ecdh : Nat := 0x40
def Usage.ide : Nat := 0x80

def State.vslot (s : State) (i : Nat) : VSlot := sget {} s.chr.vault i
def State.setVslot (s : State) (i : Nat) (v : VSlot) : State := { s with chr := { s.chr with vault := sset {} s.chr.vault i v } }
/-- The attribute word that SLOT_INFO returns (14 R383). -/
def VSlot.word (v : VSlot) : Nat :=
  b2n v.valid + place 1 (b2n v.exportable) + place 2 (v.usage % 256) + place 10 (v.owner % 16) + place 14 (v.cid % 65536) +
    place 30 (b2n v.pair)

/-- A key put into a slot as two shares whose XOR is the key (14 R384). -/
def State.putKey (s : State) (i : Nat) (key : BitVec 256) (v : VSlot) : State :=
  let (r, s) := s.trng
  s.setVslot i { v with valid := true, shareA := r, shareB := key ^^^ r }
/-- A slot whose key is destroyed: it holds two independent random shares (14 R384). -/
def State.dropKey (s : State) (i : Nat) : State :=
  let (a, s) := s.trng
  let (b, s) := s.trng
  s.setVslot i { shareA := a, shareB := b }
/-- A working copy of a key, split by a fresh random value (14 R384). -/
def State.split (s : State) (key : BitVec 256) : Masked × State :=
  let (r, s) := s.trng
  (⟨r, key ^^^ r⟩, s)
/-- Slots destroyed, in order. -/
def State.dropKeys (s : State) (l : List Nat) : State := l.foldl State.dropKey s

/-- The first slot of IK(p) (14 R381). -/
def ikSlot (p : Nat) : Nat := 22 + 2 * p
/-- Slot i of the 19 of a partition (14 R382). -/
def tenantSlot (p i : Nat) : Nat := 64 + 19 * p + i
/-- Slots of a partition. -/
def tenantSlots : Nat := 19

/-- The vault's check of a use (14 R383). -/
def State.slotServes (s : State) (i usage owner cid : Nat) : Bool :=
  let v := s.vslot i
  v.valid && v.usage == usage && v.owner == owner && v.cid == cid

/-! ### Private keys in two slots (14 R381, R382) -/

/-- The private key in a pair of slots. -/
def State.privKey (s : State) (i : Nat) : Nat := (s.vaultKey i).toNat + 2 ^ 256 * (s.vaultKey (i + 1)).toNat
/-- A private key put into a pair of slots of the device. -/
def State.putPriv (s : State) (i d usage : Nat) : State :=
  (s.putKey i (BitVec.ofNat 256 d) { usage }).putKey (i + 1) (BitVec.ofNat 256 (d / 2 ^ 256)) { usage, pair := true }
/-- A fresh private key from the TRNG, between 1 and n - 1. -/
def State.randPriv (s : State) : Nat × State :=
  let (a, s) := s.trng
  let (b, s) := s.trng
  ((a.toNat + 2 ^ 256 * b.toNat) % (p384Order - 1) + 1, s)
/-- A private key derived by 14 R379: (c mod (n - 1)) + 1 for a 448-bit KDF output c. -/
def derivePriv (ki label ctx : List Byte) : Nat := beNat (kdf ki label ctx 448) % (p384Order - 1) + 1

/-! ### Key-encryption keys (14 R380, R387, R389; 15 R405) -/

/-- The context of a KEK: UID, p, CID, EPOCH, TPUB.x (14 R380, R387). -/
def State.kekCtx (s : State) (p : Nat) (tpub : List Byte) : List Byte :=
  let cid := (s.part p).cid
  beBytes 8 Config.uid.toNat ++ beBytes 1 p ++ beBytes 2 cid ++ beBytes 1 (sget (false, 0) s.hwk.epochs cid).2 ++ tpub.take 48
/-- A KEK from a private key, a peer's public key, a label and the context of `kekCtx` for the ephemeral public key. -/
def State.kek (s : State) (p d : Nat) (pub : List Byte) (label : String) (tpub : List Byte) : BitVec 256 :=
  BitVec.ofNat 256 (beNat (kdf (ecdh d pub) (ascii label) (s.kekCtx p tpub) 256))
/-- The first slot of AK (14 R381). -/
def akSlot : Nat := 2
/-- The vault's check of a use of a device key (14 R383). -/
def State.deviceServes (s : State) (i usage : Nat) : Bool := s.slotServes i usage 15 0
/-- A blob unwrapped under IK(p) and an ephemeral public key; DENIED where the vault refuses the use (14 R383, R387; 15 R405). -/
def State.unwrapIk (s : State) (p : Nat) (label : String) (tpub blob : List Byte) : Except Nat (BitVec 256) :=
  if !s.deviceServes (ikSlot p) Usage.ecdh then .error Status.denied
  else match kwUnwrap (s.kek p (s.privKey (ikSlot p)) tpub label tpub) blob with
    | some k => .ok k
    | none => .error Status.unwrapFailed

end Sys2Proof.Machine
end

