-- ==== Sys2Proof/Machine/Queue.lean ====
section
/-! DEFINITION. Idind queues (12 R338-R354): doorbells, fetch, checks of a packet, completions, events, contexts and their death;
SQT_DOORBELL, CQH_DOORBELL, COMMAND_FETCH, COMMAND_COMPLETION, NOP, CTX_OPEN, CTX_CLOSE, DEATH_SEQUENCE_DONE, Q_CREATE,
Q_DESTROY, Q_RESUME. -/

namespace Sys2Proof.Machine

/-! ### Rings and completions (12 R339, R344, R351) -/

/-- Slots of the submission ring. -/
def Queue.sqLen (x : Queue) : Nat := 2 ^ x.sqLog
/-- Slots of the completion ring. -/
def Queue.cqLen (x : Queue) : Nat := 2 ^ x.cqLog
/-- Packets written and not yet fetched. -/
def Queue.waiting (x : Queue) : Nat := (x.tail + x.sqLen - x.head) % x.sqLen
/-- No slot of the completion ring may be written (12 R339). -/
def Queue.cqFull (x : Queue) : Bool := decide ((x.cqTail + 1) % x.cqLen = x.cqHead)

/-- The 32 bytes of a completion entry (12 R344). -/
def Cpl.bytes (c : Cpl) : List Byte :=
  leBytes 2 c.cid ++ leBytes 1 c.status ++ leBytes 1 c.sstat ++ leBytes 1 (b2n c.phase + 2 * b2n c.sat + 4 * b2n c.nspec) ++ [0] ++
    leBytes 2 c.sqhead ++ leBytes 8 c.r0 ++ leBytes 8 c.r1 ++ leBytes 8 c.time

/-- Bytes written to host memory. -/
def State.hostPut (s : State) (a : Nat) (l : List Byte) : State := { s with hostMem := sputs 0 s.hostMem a l }
/-- Bytes of host memory as the model holds them (assumption 4). -/
def State.hostGet (s : State) (a n : Nat) : List Byte := sgets 0 s.hostMem a n
/-- An MSI-X vector of a function raised (12 R331). -/
def State.raise (s : State) (f v : Nat) : State :=
  let x := s.fn f
  s.setFn f { x with irqs := sset 0 x.irqs v (sget 0 x.irqs v + 1) }

/-- One completion written into the next slot, with the phase of its pass. -/
def State.writeCpl (s : State) (f q : Nat) (c : Cpl) : State :=
  let x := s.queue f q
  let c := { c with phase := x.phase }
  let s := s.hostPut (x.cqBase + 32 * x.cqTail) c.bytes
  let t := (x.cqTail + 1) % x.cqLen
  let s := s.setQueue f q { x with cqTail := t, phase := if t = 0 then !x.phase else x.phase, last := some c }
  if c.irq then s.raise f x.vector else s

/-- Held completions written in order while slots are free. -/
def State.flushHeld (f q : Nat) : Nat → State → State
  | 0, s => s
  | n + 1, s =>
    let x := s.queue f q
    match x.held with
    | [] => s
    | c :: r => if x.state = .absent ∨ x.cqFull then s else State.flushHeld f q n ((s.setQueue f q { x with held := r }).writeCpl f q c)

/-- A completion posted: written, or held behind those that wait for a slot (12 R351). -/
def State.postCpl (s : State) (f q : Nat) (c : Cpl) : State :=
  let x := s.queue f q
  if x.state = .absent ∨ x.cqFull ∨ !x.held.isEmpty then s.setQueue f q { x with held := x.held ++ [c] } else s.writeCpl f q c

/-- A completion entry of the queue as it stands. -/
def State.cpl (s : State) (f q cid status : Nat) : Cpl :=
  { cid, status, sstat := 0, phase := false, sat := false, nspec := false, sqhead := (s.queue f q).head, r0 := 0, r1 := 0,
    time := s.tim.now, irq := false }

/-- An event on queue 0 of a partition's VF (12 R351). -/
def State.event (s : State) (p status r0 : Nat) : State :=
  s.postCpl (p + 1) 0 { s.cpl (p + 1) 0 0xFFFF status with r0, irq := true }

/-- The slots not yet fetched complete with CANCELLED, in order, and the ring is empty. CID and IRQ are those of the packets that the host
has put there (assumption 4). -/
def State.cancelQueued (f q : Nat) : Nat → State → State
  | 0, s => s
  | n + 1, s =>
    let x := s.queue f q
    if x.waiting = 0 then s else
    let p := s.hostGet (x.sqBase + 64 * x.head) 64
    let s := s.setQueue f q { x with head := (x.head + 1) % x.sqLen }
    State.cancelQueued f q n (s.postCpl f q { s.cpl f q (field p 2 2) Status.cancelled with irq := bit (field p 1 1) 2 })
/-- A fetched command that has not begun its work is cancelled with the queued ones; the count of all of them. -/
def State.cancelAll (s : State) (f q : Nat) : State × Nat :=
  let x := s.queue f q
  let n := x.waiting
  match x.cur with
  | some c =>
    if c.stage = .waiting ∨ c.stage = .ready then
      let s := (s.setQueue f q { x with cur := none }).dropWaits (· == .host f q)
      (State.cancelQueued f q n (s.postCpl f q { s.cpl f q c.cid Status.cancelled with irq := c.irq }), n + 1)
    else (State.cancelQueued f q n s, n)
  | none => (State.cancelQueued f q n s, n)

/-! ### Functions, contexts -/

/-- The partition that a function serves (12 R331). -/
def fnPart (f : Nat) : Option Nat := if f = 0 then none else some (f - 1)
/-- A context of a function. -/
def State.ctx (s : State) (f c : Nat) : Ctx := sget {} (s.fn f).ctxs c
def State.setCtx (s : State) (f c : Nat) (x : Ctx) : State :=
  s.setFn f { s.fn f with ctxs := sset {} (s.fn f).ctxs c x }
/-- The device serves a queue of a function: PF0's always, a VF's while its TDI is in RUN and the queue's context is Open
(12 R334, R352). -/
def State.served (s : State) (f q : Nat) : Bool :=
  (f == 0 || decide ((s.fn f).tdi = .run)) &&
  (match (s.queue f q).ctx with
   | some c => decide ((s.ctx f c).state = .opened)
   | none => true)

/-- A queue has a command whose work has begun and not finished. -/
def Queue.busy (x : Queue) : Bool := match x.cur with
  | some c => decide (c.stage = .running ∨ c.stage = .done)
  | none => false
/-- A queue is being destroyed: it takes no doorbell and fetches nothing more, and at its stream boundary what is queued is cancelled
(12 R340, R353). It is gone once every completion has been written. The second part says whether it is. -/
def State.destroyQueue (s : State) (f q : Nat) : State × Bool :=
  let s := s.setQueue f q { s.queue f q with destroying := true }
  if (s.queue f q).busy then (s, false)
  else
    let s := (s.cancelAll f q).1
    if (s.queue f q).held.isEmpty then (s.setQueue f q {}, true) else (s, false)
/-- Queue 0 of a function created from IDN_AQCTL's fields, where they are legal (12 R336, R340): events held meanwhile come first (12
R351). -/
def State.createQueue0 (s : State) (f : Nat) : State :=
  let x := s.fn f
  let y := s.queue f 0
  if x.aqSqLog < 4 ∨ x.aqCqLog < 4 ∨ y.state ≠ .absent then s
  else State.flushHeld f 0 y.held.length (s.setQueue f 0 {
    state := .running, sqBase := x.aqSqb.toNat, cqBase := x.aqCqb.toNat, sqLog := x.aqSqLog, cqLog := x.aqCqLog, vector := x.aqVec
    held := y.held })
/-- Queue 0 that IDN_AQCTL has asked to be destroyed goes at its stream boundary; where EN has been set meanwhile it is created again. -/
def State.settleQueue0 (s : State) (f q : Nat) : State :=
  if q ≠ 0 ∨ !(s.queue f 0).destroying then s
  else match s.destroyQueue f 0 with
    | (t, gone) => if gone ∧ (t.fn f).aqEn then t.createQueue0 f else t

/-! ### Doorbells (12 R336, R339, R340) -/

/-- The packets that the host has written into the slots from the old tail on, which a doorbell exposes (12 R339). -/
def State.putPackets (s : State) (f q : Nat) (l : List (List Byte)) : State :=
  let x := s.queue f q
  l.zipIdx.foldl (fun s e => s.hostPut (x.sqBase + 64 * ((x.tail + e.2) % x.sqLen)) e.1) s

/-- Outside Ready the commands that a doorbell exposes complete with STATE, with no other effect (17 R449, R461). -/
def State.refuseNew (s : State) (f q idx : Nat) : State :=
  let x := s.queue f q
  let new := (List.range ((idx + x.sqLen - x.tail) % x.sqLen)).map (fun i => s.hostGet (x.sqBase + 64 * ((x.tail + i) % x.sqLen)) 64)
  let s := if x.state = .running ∧ x.waiting = 0 then s.setQueue f q { x with head := idx, tail := idx } else s
  new.foldl (fun s p => s.postCpl f q { s.cpl f q (field p 2 2) Status.state with irq := bit (field p 1 1) 2 }) s
/-- SQT_DOORBELL (served in Ready alone: 17 R461): a new tail; one beyond the ring, or one that passes the slot being read, halts the
queue with BOUNDS. A queue being destroyed ignores it (12 R353). `pkts` is what the host has written into the slots from the old tail
on (assumption 4). -/
def execSqtDoorbell (f q idx : Nat) (pkts : List (List Byte)) (s : State) : Out :=
  onFn f <|
    let x := s.queue f q
    if 64 ≤ q ∨ x.state = .absent ∨ x.destroying ∨ !s.served f q then s
    else if s.mon.phase ≠ .ready then (if idx < x.sqLen then (s.putPackets f q pkts).refuseNew f q idx else s)
    else if x.sqLen ≤ idx ∨ (idx + x.sqLen - x.head) % x.sqLen < x.waiting then
      (s.setQueue f q { x with state := .halted }).postCpl f q (s.cpl f q 0 Status.bounds)
    else (s.putPackets f q pkts).setQueue f q { x with tail := idx }

/-- CQH_DOORBELL: the host has consumed entries; what was held is written. An index beyond the ring or beyond the entries
written is ignored (assumption 31). A queue being destroyed takes it, since its CANCELLED completions need the slots (assumption 115). -/
def execCqhDoorbell (f q idx : Nat) (s : State) : Out :=
  onFn f <|
    let x := s.queue f q
    if 64 ≤ q ∨ x.state = .absent ∨ !s.served f q ∨ s.mon.phase ≠ .ready ∨ x.cqLen ≤ idx ∨
        (x.cqTail + x.cqLen - x.cqHead) % x.cqLen < (idx + x.cqLen - x.cqHead) % x.cqLen then s
    else (State.flushHeld f q x.held.length (s.setQueue f q { x with cqHead := idx })).settleQueue0 f q

/-! ### Decoding a packet (12 R342, R345, R346 steps 1 and 2) -/

/-- The argument field of n bytes at packet offset o. -/
def Cmd.arg (c : Cmd) (o n : Nat) : Nat := field c.args (o - 24) n

/-- The bytes of a packet that an opcode's arguments use, as (offset, bytes) ranges; none for a reserved opcode (12 R345;
13 R355; 15 R400-R411). -/
def opcArgs : Nat → Option (List (Nat × Nat))
  | 0x01 => some []
  | 0x02 => some [(24, 4)]
  | 0x03 => some [(24, 2)]
  | 0x04 => some [(24, 5), (32, 16)]
  | 0x05 => some [(24, 1)]
  | 0x06 => some [(24, 2)]
  | 0x10 => some [(24, 9)]
  | 0x11 => some [(24, 8)]
  | 0x12 => some [(24, 17)]
  | 0x13 => some [(24, 2)]
  | 0x14 | 0x15 => some [(24, 2), (32, 24)]
  | 0x20 => some [(24, 20)]
  | 0x21 => some [(24, 12), (40, 8)]
  | 0x22 => some [(24, 1)]
  | 0x30 => some [(24, 3), (32, 16)]
  | 0x31 => some [(24, 2)]
  | 0x32 => some [(24, 3), (28, 2)]
  | 0x33 | 0x34 => some [(24, 2), (32, 8)]
  | 0x40 => some [(24, 4), (32, 8)]
  | 0x41 => some [(24, 2)]
  | 0x48 => some [(24, 2), (32, 16)]
  | 0x49 => some [(24, 1), (26, 14)]
  | 0x4A | 0x4B => some [(24, 1)]
  | 0x50 => some [(24, 12)]
  | 0x51 => some [(24, 2)]
  | 0x60 => some [(24, 24)]
  | 0x61 => some [(24, 2)]
  | 0x62 => some [(24, 4), (32, 16)]
  | 0x63 => some [(24, 2), (28, 16)]
  | 0x64 => some [(24, 2), (32, 16)]
  | 0x65 => some [(24, 1)]
  | 0x70 => some [(24, 1), (26, 9)]
  | 0x71 | 0x72 | 0x73 | 0x75 => some [(24, 1)]
  | 0x74 => some [(24, 3)]
  | _ => none

/-- Every byte from 24 to 63 that no range holds is zero. -/
def unusedZero (args : List Byte) (l : List (Nat × Nat)) : Bool :=
  args.zipIdx.all (fun x => l.any (fun r => decide (r.1 ≤ x.2 + 24 ∧ x.2 + 24 < r.1 + r.2)) || x.1 == 0)

/-- Every defined field of an opcode's arguments holds a defined value (12 R346 step 1). -/
def argsDefined (f : Nat) (c : Cmd) : Bool :=
  match c.opc with
  | 0x02 => decide (c.arg 24 4 < 2 ^ 20)
  | 0x03 | 0x06 => decide (c.arg 25 1 < 2)
  | 0x04 => f != 0 || c.arg 25 1 == 0
  | 0x12 => decide (c.arg 40 1 < 4)
  | 0x30 => decide (c.arg 26 1 < 7) &&
      (match c.arg 26 1 with
       | 0 => decide (c.arg 32 8 < 2 ^ 48)
       | 1 => decide (c.arg 32 8 < 2 ^ 32)
       | 2 | 3 => decide (c.arg 32 8 < 2)
       | _ => decide (c.arg 32 8 = 0)) && (decide (4 ≤ c.arg 26 1) || decide (c.arg 40 8 = 0))
  | 0x32 => decide (c.arg 26 1 < 10) || c.arg 26 1 == 0x10
  | 0x48 => c.arg 25 1 == 1 || c.arg 25 1 == 2 || c.arg 25 1 == 4
  | 0x60 => decide (c.arg 24 1 < 2 ∧ c.arg 28 4 ≤ 4096 ∧ (c.arg 24 1 = 0 ∨ c.arg 28 4 ≠ 0) ∧ (c.arg 24 1 = 1 ∨ c.arg 26 2 = 0)) &&
      (decide (c.arg 25 1 < 19) || c.arg 25 1 == 0xFF)
  | 0x62 => decide (c.arg 24 1 = 0 ∧ c.arg 25 1 = 0) || decide (c.arg 24 1 = 1 ∧ 1 ≤ c.arg 25 1 ∧ c.arg 25 1 ≤ 15)
  | 0x63 => decide (1 ≤ c.arg 28 4 ∧ c.arg 28 4 ≤ 2 ^ 20)
  | 0x64 => decide (1 ≤ c.arg 44 4 ∧ c.arg 44 4 ≤ 65536)
  | 0x65 => decide (c.arg 24 1 < 2)
  | 0x70 => decide (c.arg 24 1 < 10 ∧ c.arg 28 1 < 8 ∧ c.arg 26 2 < 1024 ∧ c.arg 29 1 ≤ 64 ∧ (c.arg 34 1 < 15 ∨ c.arg 34 1 = 0xFF))
  | 0x71 | 0x72 | 0x73 | 0x75 => decide (c.arg 24 1 < 10)
  | 0x74 => decide (c.arg 24 1 < 10 ∧ c.arg 25 1 < 4 ∧ c.arg 26 1 < 4)
  | _ => true

/-- The function and queue that an opcode may be issued on (12 R345). -/
def opcAllowed (opc f q : Nat) : Bool :=
  if opc = 0x01 then true
  else if opc = 0x02 ∨ opc = 0x03 then f != 0 && q == 0
  else if opc ≤ 0x06 then q == 0
  else if opc < 0x70 then f != 0
  else f == 0

/-- A packet read into a command, with the status of steps 1 and 2 of 12 R346. A field that its flag does not use is zero. -/
def decodePacket (f q : Nat) (l : List Byte) : Cmd × Nat :=
  let flags := field l 1 1
  let c : Cmd :=
    { opc := field l 0 1, wait := bit flags 0, sig := bit flags 1, irq := bit flags 2, cid := field l 2 2,
      wfence := field l 4 2, sfence := field l 6 2, wval := field l 8 6, sval := field l 16 6, args := slice l 24 40,
      stage := .ready, status := 0, r0 := 0, r1 := 0 }
  let header := decide (flags < 8) && c.cid != 0xFFFF && field l 14 2 == 0 && field l 22 2 == 0 &&
    (c.wait || (c.wfence == 0 && c.wval == 0)) && (c.sig || (c.sfence == 0 && c.sval == 0))
  (c, if !header then Status.malformed else
    match opcArgs c.opc with
    | none => Status.unsupported
    | some r =>
      if !unusedZero c.args r ∨ !argsDefined f c then Status.malformed
      else if !opcAllowed c.opc f q then Status.denied else Status.ok)

/-- A command in hand finishes with a status and results. -/
def State.finish (s : State) (f q status : Nat) (r0 : Nat := 0) (r1 : Nat := 0) : State :=
  s.setQueue f q ((s.queue f q).finish status r0 r1)

/-- COMMAND_FETCH: the device reads the next packet of a Running queue (12 R339-R343, R346). A failed host read completes with
HOST_ABORT and CID 0. A WAIT that cannot wait completes the command with that status; one of a partition whose objects are
saved waits for them (11 R319). In diapause nothing is fetched before the wake is over (16 R435). -/
def execCommandFetch (f q : Nat) (rd : HostRead) (s : State) : Out :=
  onFn f <|
    let x := s.queue f q
    if 64 ≤ q ∨ x.state ≠ .running ∨ !s.served f q ∨ x.destroying ∨ x.cur.isSome ∨ x.waiting = 0 ∨ x.cqFull ∨ !x.held.isEmpty ∨
        s.pwr.sleep = .diapause ∨ s.pwr.sleep = .waking then s else
    let s0 := s
    let s := s.setQueue f q { x with head := (x.head + 1) % x.sqLen }
    let x := s.queue f q
    match rd with
    | .abort _ _ _ => (s.setQueue f q { x with state := .halted }).postCpl f q (s.cpl f q 0 Status.hostAbort)
    | .data l =>
      let (c, st) := decodePacket f q (l ++ List.replicate 64 0)
      if c.wait ∧ f ≠ 0 ∧ s.frozen (f - 1) then s0
      else if st ≠ Status.ok then s.setQueue f q { x with cur := some { c with stage := .done, status := st } }
      else if !c.wait then s.setQueue f q { x with cur := some c }
      else match fnPart f with
      | none => s.setQueue f q { x with cur := some { c with stage := .done, status := Status.bounds } }
      | some p => match s.synOp p c.wfence .fwait c.wval (.host f q) with
        | (t, .waits) => t.setQueue f q { x with cur := some { c with stage := .waiting } }
        | (t, .done st) => t.setQueue f q { x with cur := some (if st = Status.ok then c else { c with stage := .done, status := st }) }

/-! ### The twin's hold (15 R412) -/

/-- A cocoon or restore of a partition is in progress (13 R361; 15 R406). -/
def Part.cocBusy (x : Part) : Bool := x.coc != .idle && x.coc != .prepared

/-- Bytes of the live blocks of a section. -/
def Sec.liveBytes (c : Sec) : Nat := ((c.live.filter (fun b => b.role ≠ .retired)).map (fun b => b.n * 65536)).sum
/-- The bytes L that a twin's hold moves: live blocks, save areas and 4 MiB of ledger for each partition (15 R412). -/
def State.holdBytes (s : State) (ps : List Nat) : Nat :=
  (ps.map (fun p => ((s.partSecs p).map (fun n => (s.sec n).liveBytes + 224 * 2 ^ 20)).sum + 4 * 2 ^ 20)).sum
/-- The predicted hold in µs: 1.2 ms and L at 430 GB/s, rounded up. -/
def predHold (l : Nat) : Nat := 1200 + (l + 429999) / 430000
/-- One partition stops for the hold, as COC_TAKE stops it; a prepared request lapses (assumption 41). -/
def State.holdPart (pred : Nat) (s : State) (p : Nat) : State :=
  let s := s.freeze p
  s.setPart p { s.part p with coc := .stopped, cocReq := none, cocPred := pred }
/-- The live blocks of a section of a partition by DVA and length. -/
def State.blockRanges (s : State) (p n : Nat) : List (Nat × Nat) :=
  ((s.sec n).live.filter (fun b => b.role ≠ .retired)).map (fun b => (s.dvaOf p n b.base, b.n * 65536))
/-- The live blocks of a partition by DVA and length, section by section. -/
def State.partRanges (s : State) (p : Nat) : List (Nat × Nat) := (s.partSecs p).flatMap (s.blockRanges p)
/-- The lines of every live block of a list of partitions pass the sluices (01 R28; 08 R217). -/
def State.readParts (s : State) : List Nat → State × LineRes
  | [] => (s, .done Status.ok)
  | p :: r => match s.readRanges .host p (s.partRanges p) with
    | (t, .done st) => if st = Status.ok then t.readParts r else (t, .done st)
    | (t, .wait) => (t, .wait)
/-- The key under which tenant keys move between two Chrysalis units: it is derived from the session of the twin link, of the first twin port that
is Up, in the direction in which the transfer goes (15 R413; assumption 124). -/
def State.twinKek (s : State) (sends : Bool) : BitVec 256 :=
  let l := s.link (([42, 43, 44, 45].find? (fun n => (s.link n).state = .up)).getD 42)
  let k := if sends then l.txKey.key else l.rxKey.key
  BitVec.ofNat 256 (beNat (kdf (beBytes 32 k.toNat) (ascii "D20 TWIN") [] 256))
/-- What the twin sends of a partition that it holds (15 R412, R413): its schedule state, M included, every line of every live block, and
its keys with EXPORT = 1, none of them an IDE key, wrapped. -/
def State.transfer (s : State) (ps : List Nat) : Transfer :=
  { scheds := ps.filterMap (fun p => (s.part p).saved.map (fun x => (p, x)))
    lines := ps.flatMap (fun p => (s.partRanges p).map (fun r => (p, r.1, s.dvaBytes p ((s.partSecs p).headD 0) r.1 r.2)))
    keys := ps.flatMap (fun p => (List.range tenantSlots).filterMap (fun i =>
      let v := s.vslot (tenantSlot p i)
      if v.valid && v.exportable && v.usage != Usage.ide then
        some (p, i, v.usage, kwWrap (s.twinKek true) (s.vaultKey (tenantSlot p i))) else none)) }
/-- The data bytes of a transfer for one partition: its schedule part, the lines in the order of the blocks, and the wrapped keys (assumption
124). -/
def transferData (x : Transfer) (p k : Nat) : List Byte :=
  (x.scheds.filter (·.1 = p)).flatMap (fun e => schedImage e.2 k) ++ (x.lines.filter (·.1 = p)).flatMap (·.2.2) ++
    (x.keys.filter (·.1 = p)).flatMap (fun e => leBytes 1 e.2.1 ++ leBytes 1 e.2.2.1 ++ List.replicate 6 0 ++ e.2.2.2)
/-- The data of one held partition queued for the twin ports: packets of 6,144 data bytes, each of 27 flits, under the tenancy of the partition,
spread over the four ports by FLOW (09 R254, R261; 15 R412; assumption 124). -/
def State.sendHeld (x : Transfer) (s : State) (p : Nat) : State :=
  let d := transferData x p (s.partSecs p).length
  (chunks 6144 ((d.length + 6143) / 6144) d).zipIdx.foldl (fun s e => s.sendPacket { noPacket with
    typ := 1, tag := s.tagOf (s.part p).cid, dst := twinOf s.coord, dep := 0x11, sep := 0x11, flow := e.2 % 4, pos := e.2 / 4 % 2 ^ 32, arg := p,
    payload := e.1 ++ List.replicate (roundUp e.1.length 32 - e.1.length) 0 }) s
/-- The twin of a ready spare holds every Active partition and sends what they hold; it does so at a later STEP_MARK while a cocoon is in
progress. A line that fails leaves the copy without a source: the spare fails. None where a line waits: the completion waits with it. -/
def State.twinHoldStart (s : State) : Option State :=
  let ps := (List.range 10).filter (fun p => (s.part p).state = .active)
  if !s.join.twinReady ∨ !s.join.held.isEmpty ∨ ps.any (fun p => (s.part p).cocBusy) then some s
  else match s.readParts ps with
  | (_, .wait) => none
  | (t, .done st) =>
    if st ≠ Status.ok then some ({ t with join := { t.join with twinReady := false } }.sendHoldBroken)
    else
      let pred := predHold (t.holdBytes ps)
      let t := ps.foldl (State.holdPart pred) t
      let x := t.transfer ps
      some (ps.foldl (State.sendHeld x) { t with
        join := { t.join with twinHold := true, predHold := pred, held := ps, twinReady := false, out := x } })

/-- COMMAND_COMPLETION: the SIG signal of a command that finished with OK, its completion entry, and the halt of the queue
where its status or its signal's is not OK (12 R340, R343, R344). A STEP_MARK's is where the hold of a ready spare's twin begins
(15 R412). -/
def execCommandCompletion (f q : Nat) (s : State) : Out :=
  onFn f <|
    let x := s.queue f q
    match x.cur with
    | none => s
    | some c =>
      if c.stage ≠ .done ∨ (f ≠ 0 ∧ s.frozen (f - 1) ∧ c.sig) then s else
      let (t, ss) := if c.sig ∧ c.status = Status.ok then
          (match fnPart f with
           | some p => s.signalFence p c.sfence c.sval
           | none => (s, Status.bounds))
        else (s, 0)
      let x := t.queue f q
      let t := t.setQueue f q { x with
        cur := none, state := if x.state = .running ∧ (c.status ≠ Status.ok ∨ ss ≠ Status.ok) then .halted else x.state }
      let e := { t.cpl f q c.cid c.status with sstat := ss, sat := c.sat, nspec := c.nspec, r0 := c.r0, r1 := c.r1, irq := c.irq }
      let t := ((t.postCpl f q e).progress ((fnPart f).getD 0xFF)).settleQueue0 f q
      if c.opc = 0x63 ∧ c.status = Status.ok then t.twinHoldStart.getD s else t

/-! ### Executing a command -/

/-- What a command's work gives. -/
inductive Res where
  | done (s : State) (status : Nat) (r0 r1 : Nat)
  | runs (s : State)      -- it has begun and completes later
  | later                 -- it cannot begin yet
  | waits (s : State)     -- it cannot begin yet, and something it asked for is under way

/-- A command that changes nothing and completes with a status. -/
def Res.fail (s : State) (status : Nat) : Res := .done s status 0 0

/-- The outcome of a command's work. -/
def Res.apply (f q : Nat) (s : State) : Res → State
  | .done t st r0 r1 => t.finish f q st r0 r1
  | .runs t =>
    let x := t.queue f q
    match x.cur with
    | some c => if c.stage = .ready then t.setQueue f q { x with cur := some { c with stage := .running } } else t
    | none => t
  | .later => s
  | .waits t =>
    let x := t.queue f q
    t.setQueue f q { x with cur := x.cur.map (fun c => { c with asked := true }) }

/-- Runs the work of an opcode's command that is ready on a queue; any other queue is left as it is (assumption 10). -/
def onCmd (opc f q : Nat) (s : State) (body : Cmd → Res) : Out :=
  onFn f <|
    match (s.queue f q).cur with
    | none => s
    | some c => if q < 64 ∧ c.opc = opc ∧ c.stage = .ready ∧ s.served f q then (body c).apply f q s else s

/-- A partition whose units are stopped for a pre-emption, a cocoon, a restore or a twin hold (13 R360; 15 R403-R412). -/
def State.stopped (s : State) (p : Nat) : Bool := s.frozen p || (s.part p).coc == .restoring

/-- A command of a VF in a Stopped partition is refused with STATE, but for CTX_CLOSE, Q_DESTROY and a flushing Q_RESUME
(13 R356). In one whose units are stopped the host-only commands
run and the others begin when it goes on (assumption 32), but for the cocoon commands, which 15 R406 refuses while a cocoon, a restore or a
twin hold goes on. -/
def onVf (opc f q : Nat) (s : State) (body : Nat → Cmd → Res) : Out :=
  onCmd opc f q s (fun c =>
    match fnPart f with
    | none => .fail s Status.denied
    | some p =>
      if (s.part p).state = .stopped ∧ opc ≠ 0x03 then .fail s Status.state
      else if s.stopped p ∧ 0x10 ≤ opc ∧ !((s.part p).cocBusy && 0x60 ≤ opc && opc ≤ 0x62) then .later
      else body p c)

/-- As onVf, for a command that PF0 may issue as well: PF0's complete with STATE unless the module is Ready (17 R449, R461). -/
def onAny (opc f q : Nat) (s : State) (exempt : Cmd → Bool) (body : Cmd → Res) : Out :=
  onCmd opc f q s (fun c =>
    match fnPart f with
    | none => if s.mon.phase = .ready then body c else .fail s Status.state
    | some p => if (s.part p).state = .stopped ∧ !exempt c then .fail s Status.state else body c)

/-- A command that PF0 alone issues, on a partition that its first argument names (13 R355; 17 R449). -/
def onPf (opc f q : Nat) (s : State) (body : Nat → Cmd → Res) : Out :=
  onCmd opc f q s (fun c =>
    if f ≠ 0 then .fail s Status.denied
    else if s.mon.phase ≠ .ready then .fail s Status.state
    else body (c.arg 24 1) c)

/-- NOP (12 R345). -/
def execNopCmd (f q : Nat) (s : State) : Out := onAny 0x01 f q s (fun _ => false) (fun _ => .done s Status.ok 0 0)

/-- CTX_OPEN (12 R338). -/
def execCtxOpen (f q : Nat) (s : State) : Out :=
  onVf 0x02 f q s (fun _ c =>
    let pasid := c.arg 24 4
    if (List.range 16).any (fun i => (s.ctx f i).state = .opened ∧ (s.ctx f i).pasid = pasid) then .fail s Status.state
    else match (List.range 16).find? (fun i => (s.ctx f i).state = .free) with
    | none => .fail s Status.quota
    | some i => .done (s.setCtx f i { state := .opened, pasid }) Status.ok i 0)

/-! ### What a context owns, and its death (12 R338, R352) -/

/-- Queues bound to a context. -/
def State.ctxQueues (s : State) (f c : Nat) : List Nat :=
  (List.range 64).filter (fun q => (s.queue f q).state ≠ .absent ∧ (s.queue f q).ctx = some c)
/-- Live blocks of a context in a section. -/
def Sec.ctxBlocks (x : Sec) (c : Nat) : List Block := x.live.filter (fun b => b.role = .priv ∧ b.ctx = some c)
/-- Mappings of a context. -/
def Fn.ctxMaps (x : Fn) (c : Nat) : List Nat :=
  x.maps.filterMap (fun e => match e.2 with | some m => if m.ctx = some c then some e.1 else none | none => none)
/-- Sync objects of a partition that a context created, by key. -/
def State.ctxObjs (s : State) (p c : Nat) : List Nat :=
  s.syn.objs.filterMap (fun e => match e.2 with
    | some o => if o.owner = p ∧ o.ctx = some c ∧ o.life ≠ .abandoned then some e.1 else none
    | none => none)
/-- Schedules of a context: (section, schedule). -/
def State.ctxScheds (s : State) (p c : Nat) : List (Nat × Nat) :=
  ((s.partSecs p).map (fun n => ((s.sec n).scheds.filter (fun e => e.2.ctx = some c)).map (fun e => (n, e.1)))).flatten
/-- Aquifer regions of a context. -/
def Part.ctxRegions (x : Part) (c : Nat) : List Nat :=
  (x.regions.filter (fun r => r.2.state ≠ .none ∧ r.2.ctx = some c)).map (·.1)
/-- Group entries of a context. -/
def State.ctxGroups (s : State) (p c : Nat) : List Nat :=
  (List.range 64).filter (fun e => (s.rg e).state ≠ .none ∧ (s.rg e).part = p ∧ (s.rg e).ctx = some c)
/-- A context owns nothing (12 R338). -/
def State.ownsNothing (s : State) (f p c : Nat) : Bool :=
  (s.ctxQueues f c).isEmpty && (s.partSecs p).all (fun n => ((s.sec n).ctxBlocks c).isEmpty) && ((s.fn f).ctxMaps c).isEmpty &&
  (s.ctxObjs p c).isEmpty && (s.ctxScheds p c).isEmpty && ((s.part p).ctxRegions c).isEmpty && (s.ctxGroups p c).isEmpty

/-- One queue of a dying context stops: its launch is stopped, its waits are withdrawn, its queued commands are discarded and
counted (12 R352). A cocoon in progress goes on (12 R353). A Halted queue with nothing under way is Absent at once (12 R340). -/
def State.killQueue (f : Nat) (a : State × Nat) (q : Nat) : State × Nat :=
  let s := a.1
  let x := s.queue f q
  let n := x.waiting + (match x.cur with
    | some c => if c.stage = .waiting ∨ c.stage = .ready then 1 else 0
    | none => 0)
  let keep := match x.cur with
    | some c => if (c.opc = 0x61 ∨ c.opc = 0x62) ∧ c.stage = .running then some c else none
    | none => none
  let s := (s.stopLaunch f q Status.cancelled).dropWaits (· == .host f q)
  let gone := x.state = .halted ∧ !x.busy
  (s.setQueue f q (if gone then {} else { s.queue f q with cur := keep, head := x.tail, held := [] }), a.2 + n)

/-- A context goes to Dying (12 R338, R352 steps 1 and 2). -/
def State.ctxDie (s : State) (f c : Nat) (superseded : Bool) : State :=
  let x := s.ctx f c
  let s := s.setCtx f c { x with state := .dying, superseded := x.superseded || superseded }
  let s := (s.ctxScheds (f - 1) c).foldl (fun s y => s.stopSched y.1 y.2) s
  let (s, n) := (s.ctxQueues f c).foldl (State.killQueue f) (s, 0)
  s.setCtx f c { s.ctx f c with cancelled := x.cancelled + n }
/-- Every Open context of a function dies; a Dying one is superseded where the partition drains (12 R338, R353). -/
def State.allDie (s : State) (f : Nat) (superseded : Bool) : State :=
  (List.range 16).foldl (fun s c => match (s.ctx f c).state with
    | .opened => s.ctxDie f c superseded
    | .dying => s.setCtx f c { s.ctx f c with superseded := (s.ctx f c).superseded || superseded }
    | .free => s) s

/-- The tenant keys that a context installed outlive it, where it is closed without dying: no later context at its index takes them along
when it dies (14 R388). -/
def State.forgetCtx (s : State) (p c : Nat) : State :=
  { s with chr := { s.chr with vault := smap {} (fun _ v => if v.valid ∧ v.owner = p ∧ v.ctx = some c then { v with ctx := none } else v) s.chr.vault } }
/-- CTX_CLOSE (12 R338, R352); a cocoon in progress completes first (12 R353). -/
def execCtxClose (f q : Nat) (s : State) : Out :=
  onVf 0x03 f q s (fun p c =>
    let i := c.arg 24 1
    if 16 ≤ i then .fail s Status.bounds
    else if (s.ctx f i).state ≠ .opened then .fail s Status.state
    else if (s.part p).cocBusy then .later
    else if c.arg 25 1 = 0 then
      if s.ownsNothing f p i then .done ((s.setCtx f i {}).forgetCtx p i) Status.ok 0 0 else .fail s Status.state
    else
      let s := s.ctxDie f i false
      .runs (s.setCtx f i { s.ctx f i with closing := true }))

/-- The descriptors of a schedule that its position makes current and next: the one in progress, else those of the list from the
index on (07 R206). -/
def State.nextWindows (s : State) (p n : Nat) (x : Sched) : List WinDesc :=
  let at_ (i : Nat) : List WinDesc := if x.count ≤ i then [] else
    (WinDesc.parse (s.dvaBytes p n (x.list + 64 * i) 64)).toList
  (match x.cur with
   | some d => [d]
   | none => at_ x.index) ++ at_ (x.index + 1)
/-- A region is released by a drain: every Running or Waiting schedule of another partition whose current or next descriptor names it
goes to Faulted with REVOKED (07 R206, R209). -/
def State.revokeScheds (s : State) (p i : Nat) : State :=
  let r := s.region p i
  (List.range 10).foldl (fun s n => match s.secPart n with
    | none => s
    | some o => if o = p then s else
      (s.sec n).scheds.foldl (fun s e =>
        let names := (s.nextWindows o n e.2).any (fun d => (s.regionAt o d.src) == some (p, i) ||
          (touchesAq d.src d.len && decide (d.src < r.base + r.size ∧ r.base < d.src + d.len) && (s.regionAt o r.base) == some (p, i)))
        if (e.2.state = .running ∨ e.2.state = .waiting) ∧ names then
          (s.schedFault n e.1 Status.revoked).dropWaits (· == .siphon n e.1)
        else s) s) s
/-- A partition leaves a reduction group of this module: its contributions are lost (10 R293). -/
def State.leaveGroup (s : State) (e p : Nat) : State :=
  let g := s.rg e
  match g.state with
  | .joining => s.clearRg e
  | .active | .closing =>
    (match execContributorLost g.gid (if g.owner = some p then .shard else .partition p) s with
     | .next t => t
     | _ => s)
  | .none => s

/-- A region of a context that ends is released: a Sealed one once no schedule of a partition that maps it is Running (07 R193; 12 R352). -/
def State.releaseRegion (s : State) (p i : Nat) : State :=
  let r := s.region p i
  if r.state = .sealed ∧ s.regionInUse p then
    s.setPart p { s.part p with regions := sset {} (s.part p).regions i { r with releasing := true, ctx := none } }
  else s.dropRegion p i
/-- Mappings, schedules, regions, groups, memory, keys and sync objects of a context are released (12 R352 steps 3 to 6; 14 R388). The second
part counts the objects freed. -/
def State.releaseCtx (s : State) (f p c : Nat) : State × Nat :=
  let maps := (s.fn f).ctxMaps c
  let objs := s.ctxObjs p c
  let secs := s.partSecs p
  let blocks := (secs.map (fun n => ((s.sec n).ctxBlocks c).map (fun b => (n, b)))).flatten
  let s := s.setFn f { s.fn f with maps := maps.foldl (fun m h => sset none m h none) (s.fn f).maps }
  let s := (s.ctxScheds p c).foldl (fun s x => s.setSched x.1 x.2 { (s.sec x.1).sched x.2 with state := .idle, fstat := 0, ctx := none }) s
  let s := ((s.part p).ctxRegions c).foldl (fun s i => s.releaseRegion p i) s
  let s := (s.ctxGroups p c).foldl (fun s e => s.leaveGroup e p) s
  let s := blocks.foldl (fun s x => s.setSec x.1 ((s.sec x.1).free x.2)) s
  let s := s.dropKeys ((List.range tenantSlots).map (tenantSlot p) |>.filter (fun i => (s.vslot i).ctx = some c))
  (objs.foldl (fun s k => s.abandon k) s, maps.length + blocks.length + objs.length)

/-- The queue-0 command that closes a context. -/
def Cmd.closes (x : Cmd) (c : Nat) : Bool := decide (x.opc = 0x03 ∧ x.arg 24 1 = c ∧ x.stage = .running)

/-- DEATH_SEQUENCE_DONE: once the launches of a Dying context have halted and its schedules have stopped, and at a drain once the epoch
has advanced (01 R39), its objects are released, its queues go to Absent and
it goes to Free; the CTX_CLOSE that waits for it completes (12 R338, R352, R353). A TDI outside RUN goes back to CONFIG_UNLOCKED
once its last context is Free, but after a Device-fatal error stays in ERROR (12 R334). -/
def execDeathSequenceDone (f c : Nat) (s : State) : Out :=
  onFn f <|
    match fnPart f with
    | none => s
    | some p =>
      let x := s.ctx f c
      let qs := s.ctxQueues f c
      if x.state ≠ .dying ∨ (s.part p).cocBusy ∨ qs.any (fun q => !(s.launchCores f q).all (fun e => e.2.halt)) ∨
          (s.ctxScheds p c).any (fun y => ((s.sec y.1).sched y.2).state = .running) ∨
          ((s.part p).state = .draining ∧ (s.part p).epochDone = false) then s else
      let s := qs.foldl (fun s q => (s.launchCores f q).foldl (fun s e => s.setCore e.1 { s.core e.1 with launch := none }) s) s
      let (s, n) := s.releaseCtx f p c
      let s := qs.foldl (fun s q => s.setQueue f q {}) s
      let s := s.setCtx f c {}
      let y := s.queue f 0
      let s := match y.cur with
        | some d => if x.closing ∧ d.closes c then
            s.finish f 0 (if x.superseded then Status.revoked else Status.ok) x.cancelled n else s
        | none => s
      if (s.fn f).tdi = .error ∧ (s.mon.phase ≠ .fatal ∨ (s.fn f).portReset) ∧ (List.range 16).all (fun i => (s.ctx f i).state = .free) then
        s.setFn f { s.fn f with tdi := .unlocked, portReset := false }
      else s

/-! ### Queues (12 R340) -/

/-- Q_CREATE. -/
def execQCreate (f q : Nat) (s : State) : Out :=
  onAny 0x04 f q s (fun _ => false) (fun c =>
    let n := c.arg 24 1
    let ctx := c.arg 25 1
    let sl := c.arg 26 1
    let cl := c.arg 27 1
    if f ≠ 0 ∧ (16 ≤ ctx ∨ (s.ctx f ctx).state ≠ .opened) then .fail s Status.denied
    else if n = 0 ∨ 63 < n ∨ sl < 4 ∨ 15 < sl ∨ cl < 4 ∨ 15 < cl ∨ 63 < c.arg 28 1 ∨ c.arg 32 8 % 4096 ≠ 0 ∨ c.arg 40 8 % 4096 ≠ 0 then
      .fail s Status.bounds
    else if (s.queue f n).state ≠ .absent then .fail s Status.state
    else .done (s.setQueue f n { state := .running, sqBase := c.arg 32 8, cqBase := c.arg 40 8, sqLog := sl, cqLog := cl,
                                 vector := c.arg 28 1, ctx := if f = 0 then none else some ctx }) Status.ok 0 0)

/-- Q_DESTROY: waits for the stream boundary, then cancels what is queued, and completes once the queue is Absent (12 R340). -/
def execQDestroy (f q : Nat) (s : State) : Out :=
  onAny 0x05 f q s (fun _ => true) (fun c =>
    let n := c.arg 24 1
    if n = 0 ∨ 63 < n then .fail s Status.bounds
    else if (s.queue f n).state = .absent then .fail s Status.state
    else match s.destroyQueue f n with
      | (t, gone) => if gone then .done t Status.ok 0 0 else .waits t)

/-- The context of a queue, where it has one, is Open: a Halted queue of another is Absent to the commands (12 R340). -/
def State.ctxOpen (s : State) (f q : Nat) : Bool := match (s.queue f q).ctx with
  | some c => decide ((s.ctx f c).state = .opened)
  | none => true
/-- Q_RESUME. -/
def execQResume (f q : Nat) (s : State) : Out :=
  onAny 0x06 f q s (fun c => c.arg 25 1 = 1) (fun c =>
    let n := c.arg 24 1
    if 63 < n then .fail s Status.bounds
    else match (s.queue f n).state with
    | .absent => .fail s Status.state
    | .running => .done s Status.ok 0 0
    | .halted => if !s.ctxOpen f n then .fail s Status.state else
      if c.arg 25 1 = 0 then .done (s.setQueue f n { s.queue f n with state := .running }) Status.ok 0 0
      else
        let (t, k) := s.cancelAll f n
        let stopped : Bool := match fnPart f with | some p => decide ((s.part p).state = .stopped) | none => false
        .done (t.setQueue f n { t.queue f n with state := if stopped then .halted else .running }) Status.ok k 0)

end Sys2Proof.Machine
end

