-- ==== Sys2Proof/Machine/HostCmd.lean ====
section
/-! DEFINITION. Idind commands on memory, mappings, copies, images and launches (12 R345-R349; 03 R108-R112; 07 R189; 13 R368,
R369): MEM_ALLOC, MEM_FREE, MAP, UNMAP, COPY_IN, COPY_OUT, LOAD_IMAGE, LAUNCH, STOP. -/

namespace Sys2Proof.Machine

/-- A length or address argument of all-ones (12 R347). -/
def ones64 : Nat := 2 ^ 64 - 1

/-- MEM_ALLOC (07 R189). -/
def execMemAlloc (f q : Nat) (s : State) : Out :=
  onVf 0x10 f q s (fun p c =>
    match s.secOf p (c.arg 32 1) with
    | none => .fail s Status.bounds
    | some n => match s.allocIn p n (c.arg 24 8) (s.queue f q).ctx with
      | .ok (d, t) => .done t Status.ok d 0
      | .error st => .fail s st)

/-- MEM_FREE (07 R189, 03 R96; 13 R368). -/
def execMemFree (f q : Nat) (s : State) : Out :=
  onVf 0x11 f q s (fun p c =>
    let dva := c.arg 24 8
    if dva = ones64 then .fail s Status.bounds else
    let (t, st) := s.freeAt p dva
    .done t st 0 0)

/-- Mappings of a function (12 R337). -/
def maxMaps : Nat := 4096
/-- A mapping handle of a function. -/
def Fn.map (x : Fn) (h : Nat) : Option Mapping := sget none x.maps h

/-- MAP: the lowest free handle names the mapping (12 R345, R347). -/
def execMapCmd (f q : Nat) (s : State) : Out :=
  onVf 0x12 f q s (fun _ c =>
    let a := c.arg 24 8
    let n := c.arg 32 8
    if n = 0 then .done s Status.ok 0 0
    else if n = ones64 ∨ a % 4096 ≠ 0 ∨ n % 4096 ≠ 0 ∨ 2 ^ 64 < a + n then .fail s Status.bounds
    else match (List.range maxMaps).find? (fun h => ((s.fn f).map h).isNone) with
    | none => .fail s Status.quota
    | some h =>
      let x := s.fn f
      .done (s.setFn f { x with maps := sset none x.maps h (some {
        addr := a, len := n, rd := bit (c.arg 40 1) 0, wr := bit (c.arg 40 1) 1, ctx := (s.queue f q).ctx }) }) Status.ok h 0)

/-- The mapping of a handle that belongs to a queue's context; on queue 0, one that queue 0 made. -/
def State.mapping (s : State) (f q h : Nat) : Option Mapping :=
  match (s.fn f).map h with
  | some m => if (s.queue f q).ctx = m.ctx then some m else none
  | none => none

/-- UNMAP: a handle that names no mapping of the context is BOUNDS (12 R347). -/
def execUnmap (f q : Nat) (s : State) : Out :=
  onVf 0x13 f q s (fun _ c =>
    let h := c.arg 24 2
    match s.mapping f q h with
    | none => .fail s Status.bounds
    | some _ => let x := s.fn f; .done (s.setFn f { x with maps := sset none x.maps h none }) Status.ok 0 0)

/-- A copy's checks in order (12 R347; 13 R368): the ranges, then the directions and the compact's egress. -/
def State.copyCheck (s : State) (f q p : Nat) (c : Cmd) (isIn : Bool) : Except Nat (Mapping × Obj) :=
  let dva := c.arg 40 8
  let n := c.arg 48 8
  let off := c.arg 32 8
  if n = ones64 then .error Status.bounds else
  match s.hostRange p dva n, s.mapping f q (c.arg 24 2) with
  | .none, _ => .error Status.bounds
  | _, none => .error Status.bounds
  | o, some m =>
    let role : Option BlkRole := match o with
      | .block _ b => some b.role
      | .region r _ => if r = p ∧ !s.isCommons p then some .priv else some (if s.sameCompact p r then .commons else .priv)
      | .none => none
    let eg := (s.entryOf p).map (·.egress)
    let egBad := match eg, role with
      | none, _ => false
      | some g, some .commons => decide (g ≠ Egress.full)
      | some g, some .priv => !isIn && decide (g = Egress.declared)
      | some _, _ => false
    let aq := match o with | .region _ _ => true | _ => false
    if m.len < off + n then .error Status.bounds
    else if (isIn && (aq || !m.rd)) || (!isIn && !m.wr) || egBad then .error Status.denied
    else .ok (m, o)

/-- The status of a copy that fails its checks. -/
def State.copyFault (s : State) (f q p : Nat) (c : Cmd) (isIn : Bool) : Option Nat := match s.copyCheck f q p c isIn with
  | .error st => some st
  | .ok _ => none
/-- The section whose window holds a DVA of a partition. -/
def State.dvaSec (s : State) (p dva : Nat) : Nat := match s.placeOf p dva with
  | .res n _ => n
  | _ => 0

/-- Bytes written at DVAs of partitions, in order, with the status of the first run that fails; none where a line waits. -/
def putRuns : List (Nat × Nat × List Byte) → State → Option (State × Nat)
  | [], s => some (s, Status.ok)
  | (p, a, b) :: r, s => match s.writeDva .host p a b with
    | none => none
    | some (t, st) => if st = Status.ok then putRuns r t else some (t, st)
/-- The parts of a copy into a DVA whose lines commit, by place and length: all of it, or, where the host returned an error for the bytes from
lo to hi, the lines up to the copy's next 64 KiB boundary but for those that need these bytes (12 R348). -/
def copyParts (dva n : Nat) : Option (Nat × Nat) → List (Nat × Nat)
  | none => [(0, n)]
  | some (lo, hi) =>
    let stop := min n (((dva + lo) / 65536 + 1) * 65536 - dva)
    let a := max dva ((dva + lo) / 128 * 128) - dva
    let b := min stop (roundUp (dva + hi) 128 - dva)
    [(0, min a stop), (b, stop - b)]
/-- COPY_IN: the object's lines are written in ascending order and the command completes once every line has committed. A failed host
read stops it at its next 64 KiB boundary: the lines whose bytes have been read are written, and stay (12 R347, R348). -/
def execCopyIn (f q : Nat) (rd : HostRead) (s : State) : Out :=
  onVf 0x14 f q s (fun p c =>
    let n := c.arg 48 8
    if n = 0 then .done s Status.ok 0 0 else
    match s.copyCheck f q p c true with
    | .error st => .fail s st
    | .ok _ =>
      let dva := c.arg 40 8
      let (l, bad, st) := match rd with
        | .data l => (l, none, Status.ok)
        | .abort l lo hi => (l, some (lo, hi), Status.hostAbort)
      let l := (l ++ List.replicate (n - l.length) 0).take n
      match putRuns ((copyParts dva n bad).map (fun x => (p, dva + x.1, slice l x.1 x.2))) s with
      | none => .waits s
      | some (t, st') => .done t (if st' = Status.ok then st else st') 0 0)

/-- COPY_OUT: the object's bytes are read through the sluices or the Aquifer port and written to host memory. Once it reads it is not
checked again: it completes with the contents that it was checked against (07 R192; 12 R353). `bad` is where host memory
returned an error: the bytes written before the stop, and the command completes with HOST_ABORT (12 R347, R348, R354; 13 R368). -/
def execCopyOut (f q : Nat) (bad : Option Nat) (s : State) : Out :=
  onVf 0x15 f q s (fun p c =>
    let n := c.arg 48 8
    let dva := c.arg 40 8
    if n = 0 then .done s Status.ok 0 0 else
    match (if c.begun then none else s.copyFault f q p c false), s.mapping f q (c.arg 24 2) with
    | some st, _ => .fail s st
    | none, none => .fail s Status.bounds
    | none, some m =>
      match s.beforeScrub c.past (s.dvaSec p dva) (fun s => s.readDva (.host f q) p ((s.partSecs p).headD 0) [(dva, n)]) with
      | (t, .wait) => .waits (t.setQueue f q { t.queue f q with cur := some { c with begun := true } })
      | (t, .done st) =>
        if st ≠ Status.ok then .done t st 0 0 else
        let l := s.dvaBytes p ((s.partSecs p).headD 0) dva n
        let a := m.addr + c.arg 32 8
        match bad with
        | none => .done (t.hostPut a l) Status.ok 0 0
        | some k => .done (t.hostPut a (l.take k)) Status.hostAbort 0 0)

/-! ### Images and launches (03 R108-R112; 12 R349; 13 R369) -/

/-- The bytes of a range of the partition, read for a command: none where the range lies in no one object. -/
def State.cmdBytes (s : State) (p dva n : Nat) : Option (List Byte) :=
  match s.hostRange p dva n with
  | .none => none
  | _ => some (s.dvaBytes p ((s.partSecs p).headD 0) dva n)
/-- The cores that a 320-byte bitmap names (03 R111): bit k mod 8 of byte k / 8 is core k (DESIGN CHOICE, assumption 128). -/
def bitmapCores (l : List Byte) : List Nat := let x := leNat l; (List.range 2560).filter (bit x)

/-- The words of an image from offset 0; zero words are not listed. -/
def imageWords (l : List Byte) : Store Word :=
  sputs 0 [] 0 ((chunks 8 8192 l).map (fun b => BitVec.ofNat 64 (leNat b)))

/-- The program measurement after a load (03 R111). -/
def extendMeas (m : Digest) (l : Nat) (bitmap image : List Byte) : Digest :=
  sha384 (digestBytes m ++ leBytes 8 l ++ bitmap ++ digestBytes (sha384 image))

/-- LOAD_IMAGE (03 R108-R111). -/
def execLoadImage (f q : Nat) (s : State) : Out :=
  onVf 0x20 f q s (fun p c =>
    let l := c.arg 40 4
    if l = 0 then .done s Status.ok 0 0
    else if l % 8 ≠ 0 ∨ 65536 < l then .fail s Status.bounds
    else match s.cmdBytes p (c.arg 24 8) l, s.cmdBytes p (c.arg 32 8) 320 with
    | some img, some bm =>
      let cs := bitmapCores bm
      if cs.any (fun k => !s.coreOf p k) then .fail s Status.bounds
      else if cs.any (fun k => !(s.core k).halt) then .fail s Status.state
      else match s.readDva (.host f q) p ((s.partSecs p).headD 0) [(c.arg 32 8, 320), (c.arg 24 8, l)] with
      | (t, .wait) => .waits t
      | (t, .done st) =>
        if st ≠ Status.ok then .done t st 0 0 else
        let t := cs.foldl (fun t k => t.setCore k { t.core k with istore := imageWords img, ilen := l }) t
        let x := t.part p
        .done (t.setPart p { x with meas := extendMeas x.meas l bm img }) Status.ok 0 0
    | _, _ => .fail s Status.bounds)

/-- The state in which a launch starts a core (03 R85, R112); Pond, slots, the image and the counters carry over. -/
def Core.launched (k : Core) (entry : Nat) (regs : Store Word) (l : Launch) : Core :=
  { k with
    run := true, halt := false, regs, tds := [], toks := [], handles := [], lA := [], lB := [], lV := [], lO := [], lpos := [], pc := entry,
    rstack := [], cfg := {}, queues := [], waits := [], dseq := 0, stop := none, fstat := 0, fstn := .scalar, fpc := 0,
    launch := some l, syPend := none, sawSat := false, sawSpec := false }

/-- The waits of a partition's restored schedules are issued again (15 R405). -/
def State.reissue (s : State) (p : Nat) : State :=
  let l := (s.part p).rewaits
  l.foldl (fun s w => match s.synOp p w.vid .fwait w.thr w.who with
    | (t, .done st) => t.grant w ((s.synFind p w.vid).elim 0 (·.1)) st
    | (t, .waits) => t) (s.setPart p { s.part p with rewaits := [] })
/-- LAUNCH: the partition's restored waits are issued again (15 R405); it completes once every core it names has halted (03 R112; 12 R349). A
named core that still runs is STATE. The 64 bytes of s1 to s8 are eight little-endian words, s1 first (DESIGN CHOICE, assumption 129). -/
def execLaunch (f q : Nat) (s : State) : Out :=
  onVf 0x21 f q s (fun p c =>
    let entry := c.arg 32 4
    match s.cmdBytes p (c.arg 24 8) 320, s.cmdBytes p (c.arg 40 8) 64 with
    | some bm, some rg =>
      let cs := bitmapCores bm
      let digestBad := match s.entryOf p with
        | some m => decide ((s.part p).meas ≠ m.digest)
        | none => false
      if entry % 8 ≠ 0 ∨ cs.any (fun k => !s.coreOf p k || decide ((s.core k).ilen ≤ entry)) then .fail s Status.bounds
      else if digestBad then .fail s Status.denied
      else if cs.any (fun k => !(s.core k).halt) then .fail s Status.state
      else match s.readDva (.host f q) p ((s.partSecs p).headD 0) [(c.arg 24 8, 320), (c.arg 40 8, 64)] with
      | (t, .wait) => .waits t
      | (t, .done st) =>
        if st ≠ Status.ok then .done t st 0 0
        else if cs.isEmpty then .done t Status.ok 0 0
        else
          let regs := sputs 0 [] 1 ((chunks 8 8 rg).map (fun b => BitVec.ofNat 64 (leNat b)))
          let x := t.part p
          .runs ((cs.foldl (fun t k => t.setCore k ((t.core k).launched entry regs ⟨f, q, x.d12, x.census, s.coord⟩)) t).reissue p)
    | _, _ => .fail s Status.bounds)

/-- STOP: the launch that runs on the named queue is stopped and completes with CANCELLED (12 R349).
DESIGN CHOICE: with no launch there it is OK with no change (log entry 89). -/
def execStopCmd (f q : Nat) (s : State) : Out :=
  onVf 0x22 f q s (fun _ c =>
    let n := c.arg 24 1
    if 63 < n then .fail s Status.bounds
    else .done (s.stopLaunch f n Status.cancelled) Status.ok 0 0)

end Sys2Proof.Machine
end

