-- ==== Sys2Proof/Machine/HostSync.lean ====
section
/-! DEFINITION. Idind commands on sync objects, siphon schedules, Aquifer regions and reduction groups (11 R303-R318, R484; 07
R193, R206; 10 R275-R277; 12 R350): SYN_CREATE, SYN_DESTROY, SYN_EXPORT, SYN_SIGNAL, SYN_WAIT, SIP_START, SIP_STOP, AQ_CREATE,
AQ_WRITE, AQ_SEAL, AQ_RELEASE, RG_CREATE, RG_CLOSE. -/

namespace Sys2Proof.Machine

/-! ### Sync objects -/

/-- Objects of a kind that a partition has created and that still hold an entry. -/
def State.synUse (s : State) (p : Nat) (kind : SynKind) : Nat :=
  (s.syn.objs.filter (fun e => match e.2 with | some o => o.owner == p && o.kind == kind | none => false)).length
/-- A partition's quota of a kind (11 R302). -/
def SynPart.quota (x : SynPart) : SynKind → Nat
  | .fence => x.qFence
  | .sem => x.qSem
  | .event => x.qEvent
  | .weir => x.qWeir
  | .fweir => x.qFweir
  | .remote => x.qRemote

/-- An object put into a fresh entry and bound to an identifier. -/
def State.synBind (s : State) (p vid : Nat) (o : SynObj) : State :=
  let k := s.syn.nextId
  let s := s.setObj k (some o)
  let x := s.synPart p
  let s := s.setSynPart p { x with ids := sset 0 x.ids vid k }
  ({ s with syn := { s.syn with nextId := k + 1 } }).progress p

/-- Bytes of the parameter record of a kind (12 R345). -/
def synRecord (kind : Nat) : Nat := if kind = 4 then 320 else if kind = 5 then 328 else if kind = 6 then 8 else 0

/-- SYN_CREATE, its checks in the order of 11 R484. A fabric weir's creation completes with the root's join (11 R317). -/
def execSynCreate (f q : Nat) (s : State) : Out :=
  onVf 0x30 f q s (fun p c =>
    let vid := c.arg 24 2
    let kind := c.arg 26 1
    let v := c.arg 32 8
    let n := synRecord kind
    let ctx := (s.queue f q).ctx
    match (if n = 0 then some [] else s.cmdBytes p (c.arg 40 8) n) with
    | none => .fail s Status.bounds
    | some r =>
      let word := field r 0 8
      let bm := if kind = 4 then leNat r else leNat (r.drop 8)
      let cores := if kind = 4 then bitmapCores r else if kind = 5 then bitmapCores (r.drop 8) else []
      let badBits := (kind = 5 ∧ 2 ^ 14 ≤ word) ∨ (kind = 6 ∧ (2 ^ 36 ≤ word ∨ 9 < bits word 16 4 ∨ bits word 13 3 ≠ 0))
      let taken := vid = 0xFFFF ∨ sget 0 (s.synPart p).ids vid ≠ 0
      let k : SynKind := match kind with
        | 0 => .fence
        | 1 => .sem
        | 2 => .event
        | 3 => .event
        | 4 => .weir
        | 5 => .fweir
        | _ => .remote
      if badBits then .fail s Status.malformed
      else if taken ∨ ((kind = 4 ∨ kind = 5) ∧ bm = 0) then .fail s Status.bounds
      else if cores.any (fun i => !s.coreOf p i) then .fail s Status.denied
      else if (s.synPart p).quota k ≤ s.synUse p k then .fail s Status.quota
      else match (if n = 0 then (s, LineRes.done Status.ok) else s.readDva (.host f q) p ((s.partSecs p).headD 0) [(c.arg 40 8, n)]) with
      | (t, .wait) => .waits t
      | (t, .done st) =>
        if st ≠ Status.ok then .done t st 0 0 else
        let o : SynObj := { kind := k, owner := p, ctx }
        let o := match kind with
          | 0 => { o with value := v }
          | 1 => { o with value := v, initial := v }
          | 2 => { o with set := v = 1 }
          | 3 => { o with set := v = 1, auto := true }
          | 4 => { o with mask := cores }
          | 5 => { o with mask := cores, number := word % 1024, fabric := true, creating := some (f, q), since := s.tim.up,
                          box := ⟨bit word 10, bit word 11, bit word 12, bit word 13⟩ }
          | _ => { o with dstCoord := bits word 0 13, dstPart := bits word 16 4, dstVid := bits word 20 16 }
        let t := t.synBind p vid o
        if kind ≠ 5 then .done t Status.ok 0 0
        else
          let me := t.coord
          let root := boxRoot o.box me
          let root := if o.box.tw then mkCoord (cx root) (cy root) (cz root) 0 else root
          let tag := t.tagOf (t.part p).cid
          if me = root then
            let k := t.syn.nextId - 1
            let l := me :: t.earlyJoins tag o.number
            let t : State := { t with syn := { t.syn with joins := t.syn.joins.filter (fun j => !(j.tag == tag && j.number == o.number)) } }
            if fweirMembers o.box ≤ 1 then .done (t.setObj k (some { o with joined := [me], creating := none })) Status.ok 0 0
            else .runs (t.weirJoined p k o l)
          else .runs (t.sendSync root 4 p o.number 0 tag))

/-- SYN_DESTROY (11 R303). -/
def execSynDestroy (f q : Nat) (s : State) : Out :=
  onVf 0x31 f q s (fun p c =>
    let vid := c.arg 24 2
    if vid = 0xFFFF then .fail s Status.bounds else
    match s.synFind p vid with
    | none => .fail s Status.state
    | some (k, o) =>
      if o.owner ≠ p then .done (s.unbind p vid) Status.ok 0 0
      else match o.life with
      | .saved => .fail s Status.state
      | .abandoned => .done (s.unbind p vid) Status.ok 0 0
      | .live => .done ((s.abandon k).unbind p vid) Status.ok 0 0)

/-- SYN_EXPORT, its checks in the order of 11 R484 and 12 R346 (13 R369 for the compact). -/
def execSynExport (f q : Nat) (s : State) : Out :=
  onVf 0x32 f q s (fun p c =>
    let vid := c.arg 24 2
    let dst := c.arg 26 1
    let tv := c.arg 28 2
    if vid = 0xFFFF ∨ (dst ≠ 0x10 ∧ (tv = 0xFFFF ∨ sget 0 (s.idsOf dst) tv ≠ 0)) then .fail s Status.bounds
    else if dst ≠ 0x10 ∧ dst ≠ p ∧ !s.sameCompact p dst then .fail s Status.denied
    else match s.synFind p vid with
    | none => .fail s Status.state
    | some (k, o) =>
      if o.life ≠ .live then .fail s Status.state
      else if dst = 0x10 then .done (s.putObj k { o with shared := true, fabric := true }) Status.ok 0 0
      else .done ((s.putObj k { o with shared := true }).bindId dst tv k) Status.ok 0 0)

/-- The operation of an Idind signal or wait by the kind of its object (12 R345); none where the kind takes none. -/
def hostOp (kind : SynKind) (wait : Bool) (v : Nat) : Option SyOp :=
  match kind, wait with
  | .fence, false => some .fsig
  | .remote, false => some .fsig
  | .sem, false => some .srel
  | .event, false => some (if v = 0 then .eset else .erst)
  | .fence, true => some .fwait
  | .remote, true => some .fwait
  | .sem, true => some .sacq
  | .event, true => some .ewait
  | _, _ => none

/-- A host value that its object's operation does not define (12 R346 step 1). -/
def hostBad (kind : SynKind) (wait : Bool) (v : Nat) : Bool :=
  match kind, wait with
  | .fence, _ => decide (2 ^ 48 ≤ v)
  | .remote, _ => decide (2 ^ 48 ≤ v)
  | .sem, false => decide (2 ^ 32 ≤ v)
  | .event, false => decide (1 < v)
  | _, true => v != 0
  | _, _ => false

/-- An Idind signal or wait (11 R303-R313). -/
def hostSync (f q : Nat) (s : State) (p : Nat) (c : Cmd) (wait : Bool) : Res :=
  let vid := c.arg 24 2
  let v := c.arg 32 8
  match s.synFind p vid with
  | none => .fail s Status.bounds
  | some (_, o) =>
    if hostBad o.kind wait v then .fail s Status.malformed else
    match hostOp o.kind wait v with
    | none => .fail s Status.bounds
    | some op => match s.synOp p vid op v (.host f q) with
      | (t, .done st) => .done t st 0 0
      | (t, .waits) => .runs t

/-- SYN_SIGNAL (11 R305, R311, R313). -/
def execSynSignal (f q : Nat) (s : State) : Out := onVf 0x33 f q s (fun p c => hostSync f q s p c false)
/-- SYN_WAIT (11 R306, R310, R313). -/
def execSynWait (f q : Nat) (s : State) : Out := onVf 0x34 f q s (fun p c => hostSync f q s p c true)

/-! ### Siphon schedules (07 R206) -/

/-- SIP_START: N = 0 changes nothing. -/
def execSipStart (f q : Nat) (s : State) : Out :=
  onVf 0x40 f q s (fun p c =>
    let k := c.arg 24 1
    let n := c.arg 26 2
    let list := c.arg 32 8
    match s.secOf p (c.arg 25 1) with
    | none => .fail s Status.bounds
    | some sec =>
      if schedCount ≤ k ∨ n = 0xFFFF then .fail s Status.bounds
      else if n = 0 then .done s Status.ok 0 0
      else if s.hostRange p list (64 * n) = .none ∨ !s.coreRange p sec list (64 * n) then .fail s Status.bounds
      else
        let x := (s.sec sec).sched k
        if x.state ≠ .idle ∧ x.state ≠ .done then .fail s Status.state
        else .done (s.setSched sec k { x with state := .running, index := 0, fstat := 0, count := n, list, ctx := (s.queue f q).ctx,
                                              stopAsked := false, cur := none, moved := 0 }) Status.ok 0 0)

/-- SIP_STOP. -/
def execSipStop (f q : Nat) (s : State) : Out :=
  onVf 0x41 f q s (fun p c =>
    match s.secOf p (c.arg 25 1) with
    | none => .fail s Status.bounds
    | some sec => if schedCount ≤ c.arg 24 1 then .fail s Status.bounds else .done (s.stopSched sec (c.arg 24 1)) Status.ok 0 0)

/-! ### Aquifer regions (07 R193; 13 R370) -/

/-- A range overlaps a region other than region i of the partition that the partition sees: its own, or one of its compact's
commons partition. -/
def State.regionClash (s : State) (p i base size : Nat) : Bool :=
  ((List.range 10).filter (fun r => r == p || (s.sameCompact p r && (s.isCommons r || s.isCommons p)))).any (fun r =>
    (s.part r).regions.any (fun x => !(r == p && x.1 == i) && x.2.state != .none &&
      overlap (base, base + size) (x.2.base, x.2.base + x.2.size)))

/-- AQ_CREATE: its locator table takes a run of free lines of the expanders (07 R193, R197). A
length of zero changes nothing (12 R347). -/
def execAqCreate (f q : Nat) (s : State) : Out :=
  onVf 0x48 f q s (fun p c =>
    let i := c.arg 24 1
    let w := c.arg 25 1
    let base := c.arg 32 8
    let size := c.arg 40 8
    if i < maxRegions ∧ size = 0 then .done s Status.ok 0 0
    else if maxRegions ≤ i ∨ base % 2 ^ 21 ≠ 0 ∨ size % pageBytes ≠ 0 ∨ base < aqBase ∨ aqEnd < base + size ∨
        s.regionClash p i base size then .fail s Status.bounds
    else if (s.region p i).state ≠ .none then .fail s Status.state
    else match s.aqPlace (locatorLines size) with
    | none => .fail s Status.directory
    | some tbl =>
      let x := s.part p
      let n := locatorLines size
      let r : Region := { state := .loading, base, size, width := w, ctx := (s.queue f q).ctx, tbl, pages := [] }
      let s := s.setPart p { x with regions := sset {} x.regions i r }
      .done { s with aqf := { s.aqf with linesUsed := s.aqf.linesUsed + n
                                         exp := s.aqf.exp.filter (fun e => !decide (tbl ≤ e.1 ∧ e.1 < tbl + n)) } } Status.ok 0 0)

/-- AQ_WRITE: one page from a mapping, compressed and stored (07 R193, R196, R197). -/
def execAqWrite (f q : Nat) (rd : HostRead) (s : State) : Out :=
  onVf 0x49 f q s (fun p c =>
    let i := c.arg 24 1
    let page := c.arg 28 4
    let off := c.arg 32 8
    if maxRegions ≤ i then .fail s Status.bounds else
    match s.mapping f q (c.arg 26 2) with
    | none => .fail s Status.bounds
    | some m =>
      let r := s.region p i
      if m.len < off + pageBytes then .fail s Status.bounds
      else if !m.rd then .fail s Status.denied
      else if r.state ≠ .loading then .fail s Status.state
      else if r.size ≤ page * pageBytes then .fail s Status.bounds
      else if (keyGet page r.pages).isSome then .fail s Status.state
      else
        let dva := r.base + page * pageBytes
        if 2 ^ 32 - 1 ≤ s.aqf.gen p dva then .fail s Status.generation else
        match rd with
        | .abort _ _ _ => .fail s Status.hostAbort
        | .data l =>
          match s.putPage p i page ((l ++ List.replicate (pageBytes - l.length) 0).take pageBytes) with
          | none => .fail s Status.quota
          | some t => .done t Status.ok 0 0)

/-- AQ_SEAL. -/
def execAqSeal (f q : Nat) (s : State) : Out :=
  onVf 0x4A f q s (fun p c =>
    let i := c.arg 24 1
    let r := s.region p i
    if maxRegions ≤ i then .fail s Status.bounds
    else if r.state ≠ .loading ∨ r.pages.length < r.size / pageBytes then .fail s Status.state
    else let x := s.part p; .done (s.setPart p { x with regions := sset {} x.regions i { r with state := .sealed } }) Status.ok 0 0)

/-- AQ_RELEASE. -/
def execAqRelease (f q : Nat) (s : State) : Out :=
  onVf 0x4B f q s (fun p c =>
    let i := c.arg 24 1
    if maxRegions ≤ i then .fail s Status.bounds else
    match (s.region p i).state with
    | .none => .fail s Status.state
    | .loading => .done (s.dropRegion p i) Status.ok 0 0
    | .sealed => if s.regionInUse p then .fail s Status.state else .done (s.dropRegion p i) Status.ok 0 0)

/-! ### Reduction groups (10 R275-R277; 12 R350) -/

/-- The source-map entries of a record. -/
def parseSrcs (n : Nat) (l : List Byte) : List SrcMap :=
  (chunks 16 n l).map (fun b => ⟨field b 0 2, field b 2 2, field b 4 4, field b 8 4, field b 12 1⟩)
/-- The gather segments of a record. -/
def parseSegs (n : Nat) (l : List Byte) : List GSeg := (chunks 16 n l).map (fun b => ⟨field b 0 4, field b 4 4, field b 8 8⟩)

/-- The group entry that a Create record describes (12 R350). -/
def parseGroup (r : List Byte) : RGroup :=
  let nmap := field r 24 4
  let fl := field r 2 1
  let own := field r 10 1
  { gid := field r 0 2, xr := bit fl 0, yr := bit fl 1, zr := bit fl 2, tw := bit fl 3, sign1 := field r 3 1 = 1, s := field r 4 4
    srcs := parseSrcs nmap (slice r 64 (16 * nmap)), owner := if own = 0xFF then none else some own, resDva := field r 16 8
    resFence := field r 12 2, gather := parseSegs (field r 28 1) (r.drop (64 + 16 * nmap)), gPart := field r 11 1, gFence := field r 14 2
    tenancy := field r 8 2 }

/-- Ranges sorted by their first tile cover 0 to n exactly once. -/
def coversOnce (n : Nat) : Nat → List (Nat × Nat) → Bool
  | a, [] => a == n
  | a, (f, c) :: r => f == a && decide (0 < c) && coversOnce n (a + c) r
/-- A source map that covers every tile of the group vector once, with at most one runnel for each core (10 R276). -/
def mapOk (tiles : Nat) (l : List SrcMap) : Bool :=
  (l.map (·.part)).dedup.all (fun p =>
    let m := l.filter (fun x => x.part = p)
    coversOnce tiles 0 ((m.map (fun x => (x.first, x.count))).mergeSort (fun a b => decide (a.1 ≤ b.1))) &&
    decide ((m.map (·.core)).dedup.length = m.length))

/-- A partition belongs to the tenancy of a record. -/
def State.inTenancy (s : State) (cid p : Nat) : Bool := decide (p < 10) && decide ((s.part p).cid = cid) && decide ((s.part p).state ≠ .free)

/-- Free group entries for a partition: Sealed partitions keep the entries they reserved (13 R362). -/
def State.rgRoom (s : State) (p : Nat) : Bool :=
  let used (r : Nat) : Nat := ((List.range 64).filter (fun e => (s.rg e).state ≠ .none ∧ (s.rg e).part = r)).length
  let res (r : Nat) : Nat := if (s.part r).state ≠ .free ∧ !(s.part r).pooled then (s.part r).rgres else 0
  if (s.part p).pooled then
    decide (((List.range 10).map (fun r => if (s.part r).pooled then used r else 0)).sum + ((List.range 10).map res).sum < 64)
  else decide (used p < res p)

/-- The rules of 13 R369 on a compact's group. -/
def State.compactGroupBad (s : State) (own gp : Nat) (res : Nat) (segs : List GSeg) : Bool :=
  let commons (p d : Nat) : Bool := match s.objAt p d with
    | .block _ b => b.role == .commons
    | _ => false
  if (s.part gp).member.isNone && (own == 0xFF || (s.part own).member.isNone) then false else
  segs.any (fun g => !commons gp g.dva) || (own != 0xFF && !s.isCommons own) ||
  (own != 0xFF && (match s.entryOf own with | some m => m.egress != Egress.full | none => false) && !commons own res)

/-- Bytes of the smallest tile with its scales that a gather end may send: the format is known only when it opens (assumption 122). -/
def leastTile : Nat := ((List.range 14).map (fun fmt => Fmt.tileBytes fmt + (if Fmt.isMx fmt then 32 else 0))).foldl min 4096
/-- RG_CREATE: the group joins, and the command completes with the controller's JOIN (10 R277; 12 R350). -/
def execRgCreate (f q : Nat) (s : State) : Out :=
  onVf 0x50 f q s (fun p c =>
    let dva := c.arg 24 8
    let n := c.arg 32 4
    match s.cmdBytes p dva n with
    | none => .fail s Status.bounds
    | some r =>
      let nmap := field r 24 4
      let nseg := field r 28 1
      let srcs := parseSrcs nmap (slice r 64 (16 * nmap))
      let segs := parseSegs nseg (r.drop (64 + 16 * nmap))
      let own := field r 10 1
      let gp := field r 11 1
      let ten := field r 8 2
      let fl := field r 2 1
      let gid := field r 0 2
      let g : RGroup := { parseGroup r with state := .joining, part := p, ctx := (s.queue f q).ctx, cmd := some (f, q), since := s.tim.up }
      if n < 64 ∨ n ≠ 64 + 16 * (nmap + nseg) then .fail s Status.bounds
      else if (slice r 29 35).any (· != 0) ∨ 16 ≤ fl ∨ 1 < field r 3 1 ∨
          (chunks 16 nmap (slice r 64 (16 * nmap))).any (fun b => field b 13 3 ≠ 0) then
        .fail s Status.malformed
      else if 9361 < gid ∨ g.s = 0 ∨ 2 ^ 20 < g.s ∨ nseg = 0 ∨ 16 < nseg ∨ !mapOk g.tiles srcs ∨
          srcs.any (fun m => !s.coreOf m.part m.core) ∨
          segs.any (fun x => s.hostRange gp x.dva (max 1 (x.count * leastTile)) = .none) ∨
          (own ≠ 0xFF ∧ (g.resDva % 4096 ≠ 0 ∨ s.hostRange own g.resDva ((g.s + 1) * 4096) = .none)) then .fail s Status.bounds
      else if ten ≠ (s.part p).cid ∨ srcs.any (fun m => !s.inTenancy ten m.part) ∨ (own ≠ 0xFF ∧ !s.inTenancy ten own) ∨
          !s.inTenancy ten gp ∨ s.compactGroupBad own gp g.resDva segs then .fail s Status.denied
      else if (s.findRg gid).isSome then .fail s Status.state
      else if !s.rgRoom p then .fail s Status.quota
      else match (List.range 64).find? (fun e => (s.rg e).state = .none) with
      | none => .fail s Status.quota
      | some e => match s.readDva (.host f q) p ((s.partSecs p).headD 0) [(dva, n)] with
        | (t, .wait) => .waits t
        | (t, .done st) => if st ≠ Status.ok then .done t st 0 0 else
          let o := t.rg e
          .runs (t.setRg e { g with commits := o.commits, short := o.short, fulldrop := o.fulldrop, discard := o.discard,
                                    stallL := o.stallL, stallP := o.stallP }))

/-- RG_CLOSE (10 R277): a Joining group goes to None and its Create completes with CANCELLED (assumption 33). -/
def execRgClose (f q : Nat) (s : State) : Out :=
  onVf 0x51 f q s (fun p c =>
    let gid := c.arg 24 2
    if 9361 < gid then .fail s Status.bounds else
    match s.findRg gid with
    | none => .fail s Status.state
    | some e =>
      let g := s.rg e
      if g.part ≠ p then .fail s Status.denied
      else match g.state with
      | .joining => .done ((s.rgCreated g Status.cancelled).clearRg e) Status.ok 0 0
      | .active => .done (s.setRg e { g with state := .closing }) Status.ok 0 0
      | _ => .fail s Status.state)

end Sys2Proof.Machine
end

