-- ==== Sys2Proof/Machine/Stagnation.lean ====
section
/-! DEFINITION. The stagnation detector (11 R322-R326): DEADLOCK. -/

namespace Sys2Proof.Machine

/-- How the detector classes a unit: idle, running, or blocked with its snapshot entry (11 R322, R324). -/
inductive UnitState where
  | idle | runs
  | blocked (word0 word1 : Nat)
  deriving DecidableEq, Repr

/-- Word 0 of a snapshot entry (11 R324). -/
def snapWord (who unit kind id : Nat) : Nat := who + place 4 unit + place 16 kind + place 19 (id % 65536) + place 35 1

/-- KIND of a sync object. -/
def SynKind.code : SynKind → Nat
  | .fence => 0
  | .remote => 0
  | .sem => 1
  | .event => 2
  | .weir => 3
  | .fweir => 4

/-- The wait of a unit at SYN: object kind, identifier and threshold. -/
def State.waitOf (s : State) (p : Nat) (who : Who) : Option (Nat × Nat × Nat) :=
  s.syn.objs.findSome? (fun e => match e.2 with
    | some o => (o.waiters.find? (fun w => w.who = who ∧ w.part = p)).map (fun w => (o.kind.code, w.vid, w.thr))
    | none => none)
/-- A unit that waits on a sync object. A release on its way to it makes it running. -/
def State.syncBlocked (s : State) (p : Nat) (who : Who) (code unit : Nat) : UnitState :=
  match s.waitOf p who with
  | some (kind, vid, thr) => .blocked (snapWord code unit kind vid) (if kind = 1 ∨ kind = 2 then 0 else thr)
  | none => .runs

/-- The sources of an instruction in the order in which it takes them, and its destination. -/
def insOperands : PInstr → List Spec × Option Spec
  | .inn (.rcv _ q) _ => ([.handle q], none)
  | .outf (.st a ..) _ | .outf (.stl a ..) _ => ([a], none)
  | .outf (.snd a q) _ => ([a], some (.handle q))
  | .outf (.gsnd _ q _) _ => ([], some (.handle q))
  | .rclose _ q => ([], some (.handle q))
  | .vc (.ew _ d a b _) _ => ([a, b], some d)
  | .vc (.un _ d a) _ => ([a], some d)
  | .vc (.red _ _ d a) _ => ([a], some d)
  | .vc (.bc _ _ d a b) _ => ([a, b], some d)
  | .vc (.cvt _ d a _) _ => ([a], some d)
  | .vc (.upd _ d a _ _) _ => ([a], some d)
  | .vc (.rng d _) _ => ([], some d)
  | _ => ([], none)
/-- The first source from which a station has no tile to take. -/
def lackingSource (c : Nat) (u : Stn) (s : State) (k : Core) : List Spec → Option Spec
  | [] => none
  | .handle q :: r => match takeTile c s k u q.toNat with
    | .wait _ => some (.handle q)
    | .fault _ => some (.handle q)
    | .tile _ k' h => lackingSource c u { s with hwk := h } k' r
  | x :: r => match k.takeLocal u x with
    | some (_, k') => lackingSource c u s k' r
    | none => if x = .lV ∨ x = .lO then some x else lackingSource c u s k r
/-- The runnel identifier of a handle, 0 for what has none. -/
def Core.specRid (k : Core) : Option Spec → Nat
  | some (.handle q) => (k.handle q.toNat).rid
  | _ => 0
/-- The runnel that a unit waits for (11 R324): the source without a tile, the destination without a credit, or the handle that has not paired. -/
def waitRid (c : Nat) (u : Stn) (s : State) (k : Core) (i : PInstr) (w : Wait) : Nat :=
  let (srcs, dst) := insOperands i
  match w with
  | .tile => k.specRid (lackingSource c u s k srcs)
  | .credit => k.specRid dst
  | .pending => k.specRid ((srcs ++ dst.toList).find? (fun x => match x with
      | .handle q => (k.handle q.toNat).state == .pending
      | _ => false))
  | _ => 0

/-- The state of the scalar unit of a running core (11 R322). -/
def State.scalarState (s : State) (p c : Nat) (k : Core) : UnitState :=
  if k.syPend.isSome then s.syncBlocked p (.core c .scalar) 0 c
  else if k.stop.isSome then .idle
  else match k.wait .scalar with
  | .token tk thr => if tokReached (k.tok tk) (BitVec.ofNat 32 thr) then .runs else .blocked (snapWord 0 c 6 tk) thr
  | .queueFull => .idle
  | _ => .runs

/-- The state of a station of a running core (11 R322). -/
def State.stationState (s : State) (p c : Nat) (k : Core) (u : Stn) : UnitState :=
  match k.head u with
  | none => .idle
  | some e =>
    let rid := waitRid c u s k e.ins (k.wait u)
    let run : UnitState := .blocked (snapWord (stnCode u) c 5 rid) 0
    if e.stage = .done then .runs else
    match k.wait u with
    | .token tk thr => if tokReached (k.tok tk) (BitVec.ofNat 32 thr) then .runs else .blocked (snapWord (stnCode u) c 6 tk) thr
    | .credit => run
    | .tile => run
    | .pending => run
    | .sync _ _ => s.syncBlocked p (.core c u) (stnCode u) c
    | _ => .runs

/-- The units of a core, the scalar unit first. -/
def State.coreStates (s : State) (p c : Nat) : List UnitState :=
  let k := s.core c
  if k.halt then [] else s.scalarState p c k :: stations.map (s.stationState p c k)

/-- The state of a siphon schedule. -/
def State.schedUnit (s : State) (p n i : Nat) : UnitState :=
  match ((s.sec n).sched i).state with
  | .waiting => s.syncBlocked p (.siphon n i) 6 (n * 8 + i)
  | .running => .runs
  | _ => .idle

/-- The state of an Idind queue: one whose launch runs, or that is Halted, is idle (assumption 34). -/
def State.queueUnit (s : State) (p q : Nat) : UnitState :=
  let x := s.queue (p + 1) q
  match x.cur with
  | none => if x.state = .running ∧ x.waiting ≠ 0 then .runs else .idle
  | some c =>
    if c.stage = .waiting ∨ (c.opc = 0x34 ∧ c.stage = .running) then s.syncBlocked p (.host (p + 1) q) 7 q
    else if x.state ≠ .running ∨ (c.opc = 0x21 ∧ c.stage = .running) then .idle
    else .runs

/-- Every watched unit of a partition in the order of the snapshot (11 R324). -/
def State.unitStates (s : State) (p : Nat) : List UnitState :=
  let cores := (s.cores.filter (fun e => s.partOf e.1 = p)).map (fun e => s.coreStates p e.1)
  let scheds := (s.partSecs p).map (fun n => (List.range schedCount).map (s.schedUnit p n))
  cores.flatten ++ scheds.flatten ++ (List.range 64).map (s.queueUnit p)

/-- The snapshot entries of the blocked units. -/
def snapsOf (l : List UnitState) : List (Word × Word) :=
  l.filterMap (fun u => match u with
    | .blocked a b => some (BitVec.ofNat 64 a, BitVec.ofNat 64 b)
    | _ => none)

/-- The value of SYN_STAGST (11). -/
def SynPart.stagst (x : SynPart) : Nat := x.events + place 16 x.snaps.length + place 23 (b2n x.ovf) + place 24 (b2n x.aborted)

/-- One queue of a partition whose work is aborted: what waits on a sync object and then what is queued completes with CANCELLED, which
halts the queue (11 R325; 12 R340). -/
def State.abortQueue (f : Nat) (s : State) (q : Nat) : State :=
  let x := s.queue f q
  let (s, w) : State × Nat := match x.cur with
    | some c =>
      if c.opc = 0x34 ∧ c.stage = CmdStage.running then
        (((s.setQueue f q { x with cur := none }).dropWaits (fun w => w == Who.host f q)).postCpl f q
          { s.cpl f q c.cid Status.cancelled with irq := c.irq }, 1)
      else (s, 0)
    | none => (s, 0)
  let (s, n) := s.cancelAll f q
  if w + n = 0 then s
  else
    let y := s.queue f q
    (s.setQueue f q { y with state := if y.state = .running then .halted else y.state }).progress (f - 1)

/-- Every core of a partition is stopped with a status (03 R104, R105). -/
def State.stopPart (s : State) (p status : Nat) : State :=
  s.stopCores ((s.cores.filter (fun e => s.partOf e.1 = p)).map (·.1)) status

/-- The work of a partition is stopped on a DEADLOCK (11 R325). -/
def State.deadlockAbort (s : State) (p : Nat) : State :=
  let s := s.setSynPart p { s.synPart p with aborted := true, abortDue := false }
  (List.range 64).foldl (State.abortQueue (p + 1)) (s.stopPart p Status.deadlock)

/-- DEADLOCK: at least one unit of the partition is blocked, none runs, and nothing has made progress for the window
(11 R323-R325). While a cocoon is taken the cocoon completes first, and the partition stops then (11 R326). -/
def execDeadlock (part : Nat) (s : State) : Out :=
  onPart part <|
    let x := s.synPart part
    let us := s.unitStates part
    let sn := snapsOf us
    if (s.part part).state ≠ .active ∨ !x.en ∨ x.raised ∨ sn.isEmpty ∨ us.any (· == .runs) ∨ s.tim.up < x.progressAt + 1000 * x.window then s
    else
      let late := x.abort && (s.part part).cocBusy
      let x := { x with events := satAdd 16 x.events 1, snaps := sn.take 64, ovf := decide (64 < sn.length), aborted := x.abort && !late
                        abortDue := late, raised := true }
      let t := (s.setSynPart part x).event part Status.deadlock x.stagst
      if x.aborted then t.deadlockAbort part else t

end Sys2Proof.Machine
end

