-- ==== Sys2Proof/Machine/Epoch.lean ====
section
/-! DEFINITION. What the end of a tenancy reaches: a TDI that leaves RUN (12 R334), a cocoon that ends (15 R406), the epoch of an
identifier and its advance (09 R264; 10 R294; 13 R372), and the drain of a partition up to its scrub (13 R371; 11 R321). -/

namespace Sys2Proof.Machine

/-! ### A TDI leaves RUN (12 R334) -/

/-- Every context of a function is Free. -/
def State.ctxsFree (s : State) (f : Nat) : Bool := (List.range 16).all (fun i => (s.ctx f i).state = .free)
/-- A cocoon, a restore or a twin hold of a VF's partition goes on. -/
def State.cocoons (s : State) (f : Nat) : Bool := match fnPart f with
  | some p => (s.part p).cocBusy
  | none => false
/-- The queue-0 command in flight of a function whose TDI leaves RUN completes with TDI_STATE (12 R354), its wait withdrawn. A CTX_CLOSE whose
death a drain supersedes completes with REVOKED, at once where its death has not begun; a cocoon's command goes on until the cocoon has
completed (12 R353). -/
def State.cutQueue0 (s : State) (f : Nat) (superseded : Bool) : State :=
  match (s.queue f 0).cur with
  | some c =>
    let death := decide (superseded ∧ c.opc = 0x03 ∧ c.arg 25 1 = 1)
    if c.stage = .done ∨ (death ∧ c.stage = .running) ∨ (s.cocoons f ∧ (c.opc = 0x61 ∨ c.opc = 0x62) ∧ c.stage = .running) then s
    else (s.dropWaits (· == .host f 0)).finish f 0 (if death then Status.revoked else Status.tdiState)
  | none => s
/-- The mappings that queue 0 made, which no context owns, end as a TDI leaves its state (12 R334). -/
def Fn.dropLoose (x : Fn) : Fn :=
  { x with maps := x.maps.filter (fun e => match e.2 with
      | some m => m.ctx.isSome
      | none => true) }
/-- Every open context of a function dies, and the mappings that queue 0 made end; at a drain those end once the epoch has advanced (01
R39). -/
def State.contextsDie (s : State) (f : Nat) (superseded : Bool) : State :=
  (if superseded then s else s.setFn f (s.fn f).dropLoose).allDie f superseded
/-- A TDI leaves its state: the queue-0 command in flight completes with TDI_STATE, every open context dies, once a cocoon in progress has
completed, the TDI goes back to CONFIG_UNLOCKED once none is left, and the event tells its state (12 R334, R351, R353, R354). Leaving a state
other than RUN posts nothing. -/
def State.leaveRun (s : State) (f : Nat) (superseded : Bool) : State :=
  let was := (s.fn f).tdi
  let waits := s.cocoons f && !superseded
  let s := s.setFn f { s.fn f with tdi := .error }
  let s := if was = .run then s.cutQueue0 f superseded else s
  let s := if waits then s.setPart (f - 1) { s.part (f - 1) with dieDue := true } else s.contextsDie f superseded
  let free := s.ctxsFree f ∧ !waits ∧ s.mon.phase ≠ .fatal
  let s := if free then s.setFn f { s.fn f with tdi := .unlocked } else s
  if was = .run then s.event (f - 1) Status.tdiState (if free then 0 else 3) else s

/-! ### The end of a cocoon or a twin hold (15 R403, R406) -/

/-- A death that waited for a cocoon, a restore or a hold of the partition begins (12 R353). -/
def State.dieNow (s : State) (p : Nat) : State :=
  if !(s.part p).dieDue then s else
  let s := (s.setPart p { s.part p with dieDue := false }).contextsDie (p + 1) false
  if s.ctxsFree (p + 1) ∧ s.mon.phase ≠ .fatal ∧ (s.fn (p + 1)).tdi = .error then s.setFn (p + 1) { s.fn (p + 1) with tdi := .unlocked } else s
/-- CK of a partition's cocoon is destroyed. -/
def State.dropCk (s : State) (p : Nat) : State :=
  match (s.part p).ckSlot with
  | some i => (s.dropKey i).setPart p { s.part p with ckSlot := none }
  | none => s
/-- A cocoon or restore ends with a status: the partition goes on, the unit is Idle, and its command, where it is still in hand, completes. A
DEADLOCK that waited for it stops the partition then (11 R326), and a death that waited begins (12 R353). CK is not destroyed yet. -/
def State.cocStop (s : State) (p status : Nat) (r0 : Nat := 0) (r1 : Nat := 0) : State :=
  let x := s.part p
  let s := if x.coc = .stopped then s.thaw p else s
  let s := match x.cocCmd with | some (f, q) => s.finish f q status r0 r1 | none => s
  let s := s.setPart p { s.part p with coc := .idle, cocReq := none, cocCmd := none }
  (if (s.synPart p).abortDue then s.deadlockAbort p else s).dieNow p
/-- A cocoon or restore ends, and CK is destroyed. -/
def State.cocEnd (s : State) (p status : Nat) (r0 : Nat := 0) (r1 : Nat := 0) : State := (s.dropCk p).cocStop p status r0 r1
/-- A twin hold of a partition ends: it goes on (15 R412). -/
def State.holdEnd (s : State) (p : Nat) : State :=
  let s := s.thaw p
  let s := s.setPart p { s.part p with coc := .idle, cocPred := 0 }
  let held := s.join.held.erase p
  ({ s with join := { s.join with held, twinHold := !held.isEmpty, out := if held.isEmpty then {} else s.join.out } }).dieNow p
/-- A hold that loses a partition ends for it, and the spare is told to fail (15 R418). -/
def State.twinLost (s : State) (p : Nat) : State := if s.join.held.contains p then (s.holdEnd p).sendHoldBroken else s
/-- The epoch of a partition's identifier advances: what its cocoon unit does (15 R406). -/
def State.cocRevoke (s : State) (p : Nat) : State :=
  let x := s.part p
  if s.join.held.contains p then s.twinLost p
  else match x.coc with
  | .idle => s
  | .prepared => s.setPart p { x with coc := .idle, cocReq := none }
  | _ => s.cocEnd p Status.revoked

/-! ### Epochs (09 R264, R265; 10 R294; 13 R372) -/

/-- The current epoch of an identifier. -/
def State.epoch (s : State) (cid : Nat) : Nat := (sget (false, 0) s.hwk.epochs cid).2
/-- A reduction group dissolves: its store entries and the tiles in its contribution runnels are discarded and counted, their credits go
back, and a Create that waits completes with REVOKED
(10 R294). -/
def State.dissolve (s : State) (e : Nat) : State :=
  let g := s.rg e
  let s := if g.state = .joining then s.rgCreated g Status.revoked else s
  (s.setRg e (g.discards g.partials.length)).clearRg e
/-- The access that a station's head has under way completes with REVOKED, which faults it. -/
def Core.revokeHead (k : Core) (u : Stn) : Core :=
  match k.head u with
  | some e => if e.resumes ∧ !k.halt then (k.setQ u ((k.q u).drop 1)).fault Status.revoked u e.pc e.seq else k
  | none => k
/-- The command in hand of a queue completes with REVOKED where an access of it waits. -/
def Queue.revokeAsked (x : Queue) : Queue :=
  match x.cur with
  | some c => if c.asked ∧ c.stage = .ready then x.finish Status.revoked 0 0 else x
  | none => x
/-- The accesses of a partition that were issued under the last epoch and wait complete with REVOKED: those of its cores, of its siphon
schedules, of its commands, and those that wait at its sluices (08 R234). -/
def State.revokeFlight (s : State) (p : Nat) : State :=
  let cs := (s.cores.filter (fun e => s.corePart e.1 = some p)).map (·.1)
  let s := cs.foldl (fun s c => (s.setCore c (((s.core c).revokeHead .intake).revokeHead .outflow)).lookedUp (.core c)) s
  let s := (s.partSecs p).foldl (fun s n => ((List.range schedCount).filter (fun k => ((s.sec n).sched k).asked)).foldl (fun s k =>
    (s.schedFault n k Status.revoked).lookedUp (.siphon n k)) s) s
  let x := s.fn (p + 1)
  (s.setFn (p + 1) { x with queues := x.queues.map (fun e => (e.1, e.2.revokeAsked)) }).revokeWaiting p
/-- What an identifier's new epoch does on this module: its groups dissolve, its partitions' accesses under way and cocoons are revoked, and each
gets the REVOKED event (08 R234; 13 R372; 12 R351; 15 R406). -/
def State.epochEffects (s : State) (cid : Nat) : State :=
  let es := (List.range 64).filter (fun e => (s.rg e).state ≠ .none ∧ (s.rg e).tenancy = cid)
  let s := es.foldl State.dissolve s
  let s : State := { s with hwk := { s.hwk with fopens := s.hwk.fopens.filter (fun r => r.cid ≠ cid) } }
  ((List.range 10).filter (fun p => (s.part p).state ≠ .free ∧ (s.part p).cid = cid)).foldl
    (fun s p => ((s.revokeFlight p).cocRevoke p).event p Status.revoked (s.epoch cid)) s
/-- The modules that this one passes what it learns on to: its logical neighbours in the District, or for a relay, which has no
coordinate, the modules at both ends of its column (assumptions 36, 110). -/
def State.neighbours (s : State) : List Nat :=
  if s.hwk.role = .spare then [coordOf { s.hwk.pos with z := 15 }, coordOf { s.hwk.pos with z := 0 }]
  else boxNeighbours ⟨true, true, true, false⟩ s.coord
/-- Epoch messages: MGMT packets to every neighbour, each of which passes them on (09 R264; assumption 36). -/
def State.sendEpoch (s : State) (cid : Nat) : State :=
  (s.neighbours ++ (if s.hwk.role = .spare then [] else [twinOf s.coord])).foldl (fun s n => s.sendPacket { noPacket with
    typ := 6, dst := n, dep := 0x11, sep := 0x11, arg := 1,
    payload := leBytes 2 cid ++ leBytes 1 (s.epoch cid) ++ List.replicate 29 0 }) s
/-- An identifier's entry of the epoch table. -/
def State.setEpoch (s : State) (cid e : Nat) : State :=
  { s with hwk := { s.hwk with epochs := sset (false, 0) s.hwk.epochs cid (true, e) } }
/-- Chrysalis advances an identifier's epoch on this module and sends the epoch messages (13 R371). -/
def State.advanceEpoch (s : State) (cid : Nat) : State :=
  let s := s.setEpoch cid ((s.epoch cid + 1) % 16)
  let s : State := { s with chr := { s.chr with lastAdvance := sset 0 s.chr.lastAdvance cid (s.tim.up + 1) } }
  (s.sendEpoch cid).epochEffects cid
/-- The spacing of two advances of one identifier has passed (09 R265): 2 ms. -/
def State.mayAdvance (s : State) (cid : Nat) : Bool :=
  let t := sget 0 s.chr.lastAdvance cid
  t == 0 || decide (t - 1 + 2000000 ≤ s.tim.up)

/-! ### Drain up to the scrub (13 R371; 11 R321; 07 R209) -/

/-- SYN at a drain: the partition's objects are abandoned and the waiters of others released, its own waits and grants vanish, and
its identifiers are unbound (11 R321). -/
def State.synDrain (s : State) (p : Nat) : State :=
  let mine (w : Waiter) : Bool := w.part == p
  let s := s.mapObjs (fun o => { o with waiters := o.waiters.filter (fun w => !mine w) })
  let s : State := { s with syn := { s.syn with grants := s.syn.grants.filter (fun g => match g.2 with
    | some g => g.part != p
    | none => false) } }
  let own := s.syn.objs.filterMap (fun e => match e.2 with | some o => if o.owner = p then some e.1 else none | none => none)
  let bound := (s.synPart p).ids.map Prod.snd
  let s := s.setSynPart p { s.synPart p with ids := [] }
  let s := own.foldl State.abandon s
  (own ++ bound).foldl State.reap s
/-- The Aquifer port at a drain (07 R209): the reads for the partition's sections end, its Sealed slots are free and its pages in the
pool stay while another partition maps their regions, and its regions are released with their schedules elsewhere revoked; their
generation entries wait for the scrub. -/
def State.aqDrain (s : State) (p : Nat) : State :=
  let secs := s.partSecs p
  let s := (s.aqf.fetches.filter (fun f => secs.contains f.sec)).foldl State.endFetch s
  let mine := (s.part p).regions.filter (fun e => e.2.state != .none)
  let s := mine.foldl (fun s e => (s.revokeScheds p e.1).dropRegion p e.1) s
  let s := secs.foldl (fun s n => s.setSec n { s.sec n with catchment := (s.sec n).catchment.filter (fun e =>
    !e.2.valid || ((s.part p).pooled && (List.range 10).any (fun o => o != p && (match s.regionAt o e.2.dva with
      | some (w, _) => w == e.2.part
      | none => false)))) }) s
  s.setPart p { s.part p with genScrub := (s.part p).genScrub ++ mine.map (fun e => (e.2.base, e.2.size)) }
/-- The engines of a draining partition stop: cores with CANCELLED, schedules to Idle, page fetches discarded and regions released,
accesses that wait at a sluice revoked, SYN (13 R371; 07 R209; 08 R234). -/
def State.drainStop (s : State) (p : Nat) : State :=
  let s := s.stopPart p Status.cancelled
  let s := (s.partSecs p).foldl (fun s n => s.setSec n { s.sec n with scheds := [] }) s
  ((s.aqDrain p).revokeWaiting p).synDrain p
/-- The epoch of a draining partition advances; then its cocoon's key and queue 0's mappings end and its engines stop (01 R39). -/
def State.drainAdvance (s : State) (p : Nat) : State :=
  let s := s.setPart p { s.part p with epochDone := true }
  let s := (s.advanceEpoch (s.part p).cid).dropCk p
  (s.setFn (p + 1) (s.fn (p + 1)).dropLoose).drainStop p

/-- The drain of a partition begins (13 R371, R373): a saved image is discarded, a cocoon completes with REVOKED, the TDI leaves
RUN, every context dies superseded; the table that the image held is SYN's again, so that its bindings are removed (11 R303); the epoch
advances now, or 2 ms after the identifier's last advance. -/
def State.drainStart (s : State) (p : Nat) (cmd : Option Nat) : State :=
  let s := s.twinLost p
  let s := if (s.part p).cocBusy then s.cocStop p Status.revoked else s
  let x := s.part p
  let s := s.setSynPart p { s.synPart p with ids := s.idsOf p }
  let s := s.setPart p { x with state := .draining, drainCmd := cmd, saved := none, coc := .idle, cocReq := none, epochDone := false, scrubbed := 0 }
  let s := s.leaveRun (p + 1) true
  if s.mayAdvance x.cid then s.drainAdvance p
  else { s with chr := { s.chr with deferred := s.chr.deferred ++ [(x.cid, p)] } }

/-- DEFERRED_EPOCH_ADVANCE: an advance that waited for its 2 ms is made (09 R265; 13 R373). -/
def execDeferredEpochAdvance (cid : Nat) (s : State) : Out :=
  .next <|
    match s.chr.deferred.find? (fun d => d.1 = cid) with
    | none => s
    | some d =>
      if !s.mayAdvance cid then s else
      let s : State := { s with chr := { s.chr with deferred := s.chr.deferred.erase d } }
      if (s.part d.2).state = .draining then s.drainAdvance d.2 else s

/-- EPOCH_MESSAGE: another module's Chrysalis has advanced an identifier's epoch: the entry is updated, the message passed on, and
the identifier's partitions here go on under the new epoch (09 R264; 13 R372). -/
def execEpochMessage (pkt : Packet) (s : State) : Out :=
  .next <|
    let s := s.takeInbox pkt
    let cid := field pkt.payload 0 2
    let e := field pkt.payload 2 1 % 16
    let (v, cur) := sget (false, 0) s.hwk.epochs cid
    if v ∧ (e = cur ∨ 8 < (e + 16 - cur) % 16) then s
    else
      let t := (s.setEpoch cid e).sendEpoch cid
      if v then t.epochEffects cid else t

end Sys2Proof.Machine
end

