-- ==== Sys2Proof/Machine/Audit.lean ====
section
/-! DEFINITION. The audits of the ledgers at a partition switch, a route commit and the end of a scrub (02 R62; 07 R208; 08 R235; 09
R259, R262; 10 R297; 11 R327; 13 R360, R371). Each compares what the model holds; one that fails raises a Device-fatal record with
INTEGRITY (assumption 37). -/

namespace Sys2Proof.Machine

/-- A failed audit's record. -/
def State.auditFail (s : State) (blk inst : Nat) : State := s.report (Rec.mk' Status.integrity Sev.devFatal blk inst)
/-- A record where an audit does not hold. -/
def State.audit (s : State) (ok : Bool) (blk inst : Nat) : State := if ok then s else s.auditFail blk inst

/-! ### Headworks (09 R259; 10 R297) -/

/-- The headworks' pools: no port's receive buffer holds more than 3,200 flits, no replay buffer more than 1,024, no section's queue hands
out more than its 19,456 tokens (09 R259). -/
def State.poolsOk (s : State) : Bool :=
  s.links.all (fun e => decide (((List.range 8).map (sget 0 e.2.occ)).sum ≤ 3200 ∧ e.2.replay.length ≤ 1024)) &&
    (List.range 10).all (fun n => decide (s.secHeld n ≤ secTokens))
/-- The reduction store: no entry's partial sums take more than its 6,080 tokens (10 R297). -/
def State.redStoreOk (s : State) : Bool :=
  (List.range 64).all (fun e => decide (((s.rg e).partials.map (·.tokens)).sum ≤ entryTokens))
/-- The audit of the headworks' tokens; the ports of one that fails are fenced at once (17 R456). -/
def State.auditHwk (s : State) : State :=
  if s.poolsOk ∧ s.redStoreOk then s
  else { s.auditFail Blk.hwk 0 with hwk := { s.hwk with fenceNow := true } }

/-! ### SYN (11 R327) -/

/-- Objects of a kind in SYN. -/
def State.synCount (s : State) (kind : SynKind) : Nat :=
  (s.syn.objs.filter (fun e => match e.2 with | some o => o.kind == kind | none => false)).length
/-- Entries of a pool (11 R300). -/
def SynKind.pool : SynKind → Nat
  | .fence => 16384
  | .sem => 8192
  | .event => 8192
  | .weir => 512
  | .fweir => 128
  | .remote => 4096
/-- A semaphore's count is its initial count and what was given, less what was taken (11 R327). -/
def SynObj.semOk (o : SynObj) : Bool := o.kind != .sem || decide (o.value + o.taken = o.initial + o.given)
/-- A member of a fabric weir has passed on one arrival only once its cores and every member upstream of it have arrived (11 R317,
R327). -/
def SynObj.weirOk (me : Nat) (o : SynObj) : Bool :=
  o.kind != .fweir || !o.passed || (o.mask.all o.arrived.contains && (weirKids o.box me).all o.upArr.contains)
/-- SYN's ledgers: semaphores, pools, and waiter records, of which a unit of a core has one. -/
def State.synOk (s : State) : Bool :=
  let ws := (s.syn.objs.map (fun e => match e.2 with | some o => o.waiters | none => [])).flatten
  s.syn.objs.all (fun e => match e.2 with | some o => o.semOk | none => true) &&
    ([.fence, .sem, .event, .weir, .fweir, .remote] : List SynKind).all (fun k => decide (s.synCount k ≤ k.pool)) &&
    decide ((ws.filter (·.who.pooled)).length ≤ 1024) && decide (((ws.filter (fun w => !w.who.pooled)).map (·.who)).Nodup)
/-- The audit of fabric weir arrivals at a route commit. -/
def State.auditWeirs (s : State) : State :=
  s.audit (s.syn.objs.all (fun e => match e.2 with | some o => o.weirOk s.coord | none => true)) Blk.syn 0

/-! ### At a partition switch (13 R360) -/

/-- Tags of the sluices of a section (08 R235). -/
def State.sluicesOk (s : State) (n : Nat) : Bool := (s.slu (2 * n)).tagsOk && (s.slu (2 * n + 1)).tagsOk
/-- Every ledger audited at a partition switch: runnels, allocators, catchments and the Aquifer port, sluices, the headworks, reduction
groups and SYN. -/
def State.switchAudit (s : State) : State :=
  let s := (List.range 10).foldl State.auditRunnels s
  let s := (List.range 10).foldl (fun s n => ((s.audit ((s.sec n).allocOk) Blk.sec n).audit ((s.sec n).catchOk) Blk.aqf n).audit (s.sluicesOk n) Blk.slu (2 * n)) s
  ((s.audit s.aqf.tagsOk Blk.aqf 0).auditHwk).audit s.synOk Blk.syn 0

end Sys2Proof.Machine
end

