-- ==== Sys2Proof/Machine/Lifecycle.lean ====
section
/-! DEFINITION. Identity keys (14 R379, R381, R392), the mailbox's completion (14 R390), and what follows the drains that a debug
unlock or the end of life asks for (14 R377, R395). -/

namespace Sys2Proof.Machine

/-! ### Lifecycle words (14 R375) -/

/-- Ones of a 64-bit OTP word. -/
def ones (w : BitVec 64) : Nat := ((List.range 64).filter (fun i => w.getLsbD i)).length
/-- The word counts as set. -/
def otpSet (w : BitVec 64) : Bool := decide (48 ≤ ones w)
/-- LCS word i set: 0 Test, 1 Production, 2 End-of-life. -/
def Otp.reached (o : Otp) (i : Nat) : Bool := otpSet (o.lcs.getD i 0)
/-- Transition mark i set: 0 to Test, 1 to Production, 2 to End-of-life. -/
def Otp.marked (o : Otp) (i : Nat) : Bool := otpSet (o.pm.getD i 0)
/-- The lifecycle state that the words show. -/
def Otp.state (o : Otp) : Lcs :=
  if !o.reached 0 then .blank
  else if o.reached 2 then .endOfLife
  else if o.reached 1 then .production
  else .test
/-- A word of all ones put in place i of the three. -/
def setWord (l : List (BitVec 64)) (i : Nat) : List (BitVec 64) :=
  (List.range 3).map (fun k => if k = i then BitVec.allOnes 64 else l.getD k 0)
/-- The code of a lifecycle state (14 R397). -/
def Lcs.code : Lcs → Nat
  | .blank => 0
  | .test => 1
  | .production => 2
  | .endOfLife => 3
def State.setOtp (s : State) (o : Otp) : State := { s with chr := { s.chr with otp := o } }

/-! ### Identity keys (14 R379, R381, R392) -/

/-- The secret of a root secret bank whose check holds. -/
def bankSecret (b : BitVec 384) : Option (BitVec 256) :=
  let x : BitVec 256 := b.extractLsb' 128 256
  if rsBank x = b then some x else none
/-- The root secret: that of the first valid bank. -/
def Otp.secret (o : Otp) : Option (BitVec 256) := (bankSecret o.rsa).or (bankSecret o.rsb)
/-- The bytes of the root secret. -/
def Otp.rsBytes (o : Otp) : List Byte := beBytes 32 (o.secret.getD 0).toNat
/-- The bytes of UID in a KDF context (14 R380). -/
def uidCtx : List Byte := beBytes 8 Config.uid.toNat
/-- Report bytes 88 to 287: the digests and security versions of the running firmware (14 R397). -/
def Chr.fwBytes (c : Chr) : List Byte :=
  ((List.range 4).map (fun i => digestBytes (c.digests.getD i 0))).flatten ++ ((List.range 4).map (fun i => leBytes 2 (c.svns.getD i 0))).flatten
/-- Report bytes 13 to 15 (14 R397). -/
def Chr.lcBytes (c : Chr) : List Byte :=
  leBytes 1 c.lcs.code ++ leBytes 1 (b2n c.debug) ++ leBytes 1 (c.otp.owners.length - 1)
/-- Report bytes 24 to 31 (14 R397). -/
def Chr.fuseBytes (c : Chr) : List Byte :=
  leBytes 4 c.otp.dbgcnt ++ leBytes 4 (b2n (otpSet c.otp.tlock) + place 1 (c.otp.svnmin.getD 0 0) + place 9 (c.otp.svnmin.getD 1 0) +
    place 17 (c.otp.svnmin.getD 2 0))
/-- DIK in slots 0 and 1, at every start (14 R381). -/
def State.deriveDik (s : State) : State := s.putPriv 0 (derivePriv s.chr.otp.rsBytes (ascii "D20 DIK") uidCtx) Usage.sign
/-- AK in slots 2 and 3 and its certificate, at every start and every debug unlock (14 R381, R392). With the RS port closed, which only a
reset opens again, no key is derived: the AK stays that of the first unlock (14 R395; assumption 123). -/
def State.deriveAk (s : State) : State :=
  let c := s.chr
  if !c.rsOpen then s else
  let ctx := uidCtx ++ digestBytes (sha384 (((List.range 4).map (fun i => digestBytes (c.digests.getD i 0))).flatten)) ++
    beBytes 1 c.lcs.code ++ beBytes 1 (b2n c.debug) ++ beBytes 2 c.otp.dbgcnt
  let ak := derivePriv c.otp.rsBytes (ascii "D20 AK") ctx
  let s := s.putPriv akSlot ak Usage.sign
  { s with chr := { s.chr with akCert := Config.akCert (p384Pub ak) (c.lcBytes ++ c.fuseBytes ++ c.fwBytes) } }

/-! ### What a lifecycle state opens (14 R378) -/

/-- The factory test modes of stacks and SRAMs are reachable: in Blank, in Test with a TYPE 1 token and while TLOCK does not disable the
ports, and in End-of-life once LCS2 is set and no longer while PM3 alone is (14 R378). -/
def Chr.testModes (c : Chr) : Bool :=
  match c.otp.state with
  | .blank => !c.otp.marked 2
  | .test => c.testAuth && !otpSet c.otp.tlock
  | .production => false
  | .endOfLife => c.otp.reached 2
/-- The debug ports that are open, as bits of SCOPE: all of them in Blank and End-of-life, else those that a TYPE 2 token has opened (14
R378, R395). -/
def Chr.debugPorts (c : Chr) : Nat :=
  match c.lcs with
  | .blank | .endOfLife => 15
  | _ => if c.debug then c.debugScope else 0

/-! ### Mailbox (14 R390) -/

/-- Word w of a message that a byte string is. -/
def msgWords (l : List Byte) : Store Word := sputs 0 [] 0 ((chunks 8 1024 l).map (fun b => BitVec.ofNat 64 (leNat b)))
/-- The bytes of a request of n bytes. -/
def Mailbox.bytes (m : Mailbox) (n : Nat) : List Byte := ((sgets 0 m.req 0 ((n + 7) / 8)).map (fun w => leBytes 8 w.toNat)).flatten.take n
/-- The request's opcode, length and tag (14 R390). -/
def Mailbox.opc (m : Mailbox) : Nat := bits (sget 0 m.req 0).toNat 0 8
def Mailbox.len (m : Mailbox) : Nat := bits (sget 0 m.req 0).toNat 16 16
def Mailbox.tag (m : Mailbox) : Nat := bits (sget 0 m.req 0).toNat 32 32
/-- The request's bytes after its header. -/
def Mailbox.body (m : Mailbox) : List Byte := (m.bytes m.len).drop 8

/-- A request is answered: the response carries the opcode, its length and the tag, DONE is set, and VECTOR is raised where IRQEN
asks for it (14 R390). -/
def State.mboxAnswer (s : State) (f status : Nat) (body : List Byte := []) : State :=
  let x := s.fn f
  let m := x.mbox
  let head := leBytes 1 m.opc ++ [0] ++ leBytes 2 (8 + body.length) ++ leBytes 4 m.tag
  let s := s.setFn f { x with mbox := { m with busy := false, done := true, status, rsp := msgWords (head ++ body) } }
  if m.irqen then s.raise f m.vector else s
/-- The rotation of the eleven functions goes on behind the one that Chrysalis has served (14 R390). -/
def State.mboxTurned (s : State) (f : Nat) : State := { s with chr := { s.chr with mboxTurn := (f + 1) % 11 } }
/-- A request is served in its turn and answered. -/
def State.mboxDone (s : State) (f status : Nat) (body : List Byte := []) : State := (s.mboxAnswer f status body).mboxTurned f
/-- A function's request waits for its turn: one whose token waits for drains does not. -/
def State.mboxWaits (s : State) (f : Nat) : Bool := (s.fn f).mbox.busy && s.chr.tokenFn != some f
/-- The function whose request Chrysalis serves next: the first that waits, from the turn on (14 R390). -/
def State.mboxNext (s : State) : Option Nat := ((List.range 11).map (fun i => (s.chr.mboxTurn + i) % 11)).find? s.mboxWaits

/-! ### After the drains (14 R377, R395) -/

/-- Every partition is Free. -/
def State.allFree (s : State) : Bool := (List.range 10).all (fun p => (s.part p).state = .free)
/-- A port that is Up is told to leave it for a state; it drains first (09 R249, R250). -/
def Link.leaveFor (l : Link) (t : LinkState) : Link :=
  if l.state = .up ∧ l.target.isNone then { l with target := some t } else l
/-- Every port that is Up is told to leave it. -/
def State.leaveAll (s : State) (t : LinkState) : State :=
  { s with links := smap {} (fun _ l => l.leaveFor t) s.links }

/-- The unlock of debug after the drains: compacts retired, DBGCNT, a new AK, the DIK destroyed and the RS port closed, every Up
port retrained as the Retrain command does, while a keying in progress completes under the new AK, which the peer rejects (14 R396), the
debug ports opened; the token's request completes (14 R395; assumption 42). -/
def State.unlockDebug (s : State) : State :=
  let c := s.chr
  let s : State := { s with chr := { c with compacts := [], debug := true, otp := { c.otp with dbgcnt := c.otp.dbgcnt + 1 } } }
  let s := (s.deriveAk).dropKeys [0, 1]
  let s := s.leaveAll .retraining
  let s : State := { s with links := smap {} (fun _ l => if l.state = .keying then { l with akOld := true } else l) s.links }
  let s : State := { s with chr := { s.chr with rsOpen := false, debugScope := c.tokenScope, drainsForDebug := false, tokenFn := none } }
  let s := s.report (Rec.mk' Status.debugUnlocked Sev.corrected Blk.chr 0)
  match c.tokenFn with
  | some f => s.mboxAnswer f Status.ok
  | none => s
/-- The end of life after the drains: every bit of both banks of the root secret is set, then LCS2 (14 R377). -/
def State.endLife (s : State) : State :=
  let c := s.chr
  let o := { c.otp with rsa := BitVec.allOnes 384, rsb := BitVec.allOnes 384, lcs := setWord c.otp.lcs 2 }
  let s : State := { s with chr := { c with otp := o, lcs := o.state, drainsForEnd := false, tokenFn := none } }
  match c.tokenFn with
  | some f => s.mboxAnswer f Status.ok
  | none => s
/-- What waits for the drains goes on once no partition is left. -/
def State.afterDrains (s : State) : State :=
  if !s.allFree then s
  else if s.chr.drainsForDebug then s.unlockDebug
  else if s.chr.drainsForEnd then s.endLife
  else s

end Sys2Proof.Machine
end

