-- ==== Sys2Proof/Machine/Partition.lean ====
section
/-! DEFINITION. Partitions (13 R355-R373): PART_CREATE, PART_DRAIN, DRAIN_SCRUB, DRAIN_COMPLETE, PART_PREEMPT, PART_RESUME,
PART_MODE, PART_STATUS. -/

namespace Sys2Proof.Machine

/-! ### IDN_PART (13 R374) -/

def PState.code : PState → Nat
  | .free => 0
  | .active => 1
  | .preempted => 2
  | .stopped => 3
  | .draining => 4
/-- IDN_PART of a partition. -/
def State.idnPart (s : State) (p : Nat) : Nat :=
  let x := s.part p
  x.state.code + place 3 x.sections + place 13 (b2n x.pooled) + place 14 (b2n x.d12) + place 15 (b2n x.census) + place 16 x.cid +
    place 32 (s.epoch x.cid) + place 36 (x.member.getD 15) + place 40 (b2n (s.isCommons p)) + place 41 x.rgres + place 48 x.catchC

/-! ### PART_CREATE (13 R357, R358, R363, R370) -/

/-- Sections of a mask, ascending. -/
def maskSecs (m : Nat) : List Nat := (List.range 10).filter (bit m)
/-- The span of a list of sections (13 R363). -/
def spanOf (l : List Nat) : List Nat :=
  match l with
  | [] => []
  | a :: _ => (List.range 10).filter (fun n => decide (a ≤ n ∧ n ≤ l.getLastD a))
/-- The span rule of 13 R363 is broken by partition p on a list of sections. A named section that another partition holds is no breach: it is
answered with STATE, and so is a partition p that is not Free. -/
def State.spanBad (s : State) (p : Nat) (secs : List Nat) (pooled : Bool) : Bool :=
  (!pooled && (spanOf secs).length != secs.length) ||
  (List.range 10).any (fun q =>
    let x := s.part q
    let held := maskSecs x.sections
    q != p && x.state != .free &&
      ((!pooled && secs.any (fun n => !held.contains n && (spanOf held).contains n)) ||
       (!x.pooled && held.any (fun n => !secs.contains n && (spanOf secs).contains n))))

/-- A section may not be given out: it belongs to a partition, is being scrubbed or is fenced (13 R357). -/
def State.secTaken (s : State) (n : Nat) : Bool :=
  (s.secPart n).isSome || !bit s.mon.sections n || (s.sec n).fenced || (s.slu (2 * n)).scrub || (s.slu (2 * n + 1)).scrub
/-- Allocations made one after another in a section, with a role; an error where one does not fit. -/
def Sec.allocAll (role : BlkRole) : List Nat → Sec → Except Nat Sec
  | [], c => .ok c
  | b :: r, c => match c.alloc b role none with
    | .ok (_, c) => Sec.allocAll role r c
    | .error st => .error st
/-- A fresh allocator with catchment C; lines under a lost subtree stay out of it (13 R358; 08 R231). -/
def Sec.freshAlloc (c : Sec) (cc : Nat) : Sec :=
  { c with catchC := cc, live := c.live.filter (fun b => b.role = .retired), scrub := [], scheds := [], catchment := [], census := [] }
/-- What a new partition is asked to be: PART_CREATE's arguments, or what a twin's IDN_PART entry gives (13 R355; 15 R411). -/
structure PartReq where
  mask : Nat
  pooled : Bool
  d12 : Bool
  census : Bool
  rg : Nat
  cc : Nat
  cid : Nat
  member : Option Nat
  deriving DecidableEq, Repr
/-- The record and member entry that a request names. -/
def State.reqEntry (s : State) (r : PartReq) : Option (Compact × Member) :=
  match r.member, sget none s.chr.compacts r.cid with
  | some m, some k => (k.members[m]?).map (fun e => (k, e))
  | _, _ => none
/-- The sections of a new partition with the objects of a compact's member: output objects in ordinal 0, then a commons object in
each (13 R370). -/
def State.memberSecs (s : State) (r : PartReq) : Except Nat (List (Nat × Sec)) :=
  (maskSecs r.mask).zipIdx.mapM (fun (n, o) =>
    let c := (s.sec n).freshAlloc r.cc
    match s.reqEntry r with
    | none => .ok (n, c)
    | some (k, e) => do
      let c ← Sec.allocAll .output (if o = 0 then (e.outsz.filter (· ≠ 0)).map (· * 1024) else []) c
      let c ← Sec.allocAll .commons [k.commons * 2 ^ 21] c
      return (n, c))

/-- Entries that Sealed partitions have reserved. -/
def State.rgReserved (s : State) : Nat :=
  ((List.range 10).map (fun q => if (s.part q).state ≠ .free ∧ !(s.part q).pooled then (s.part q).rgres else 0)).sum
/-- Another partition of the module that uses an identifier. -/
def State.cidUsed (s : State) (cid : Nat) (f : Nat → Bool) : Bool :=
  (List.range 10).any (fun r => (s.part r).state ≠ .free ∧ (s.part r).cid = cid ∧ f r)
/-- The checks of 13 R357 on a request, in their order, but for the fit of a member's objects; none where all pass. On a relay, which runs
no partition (09 R241), the answer is STATE (assumption 110). -/
def State.createCheck (s : State) (p : Nat) (r : PartReq) : Option Nat :=
  let secs := maskSecs r.mask
  let second : Bool := match s.reqEntry r with
    | some (_, e) => e.role == 1 && s.cidUsed r.cid s.isCommons
    | none => false
  if secs.isEmpty ∨ s.spanBad p secs r.pooled ∨ 2048 < r.cc ∨ r.cid = 0 ∨ r.cid = 0xFFFF then some Status.bounds
  else if (s.part p).state ≠ .free ∨ secs.any s.secTaken ∨ s.hwk.role = .spare then some Status.state
  else if r.member.isSome ∧ ((s.reqEntry r).isNone ∨ second) then some Status.denied
  else if r.member.isNone ∧ ((sget none s.chr.compacts r.cid).isSome ∨ s.cidUsed r.cid (fun _ => true)) then some Status.denied
  else if !r.pooled ∧ 64 < s.rgReserved + r.rg then some Status.quota
  else none
/-- A partition created on sections made ready for it (13 R358; 14 R386). -/
def State.makePart (s : State) (p : Nat) (r : PartReq) (cs : List (Nat × Sec)) : State :=
  let s := cs.foldl (fun s e => s.setSec e.1 e.2) s
  let s := cs.foldl (fun s e => (s.setSlu (2 * e.1) { s.slu (2 * e.1) with assigned := true, part := p }).setSlu (2 * e.1 + 1)
    { s.slu (2 * e.1 + 1) with assigned := true, part := p }) s
  let s := s.setPart p { state := .active, sections := r.mask, pooled := r.pooled, d12 := r.d12, census := r.census, cid := r.cid,
                         member := r.member, rgres := if r.pooled then 0 else r.rg, catchC := r.cc,
                         images := (s.part p).images, mirror := (s.part p).mirror }
  let s := (s.setSynPart p {}).setEpoch r.cid (s.epoch r.cid)
  let (d, t) := s.randPriv
  if s.chr.trngFailed then s else t.putPriv (ikSlot p) d Usage.ecdh

/-- PART_CREATE, its checks in the order of 14 R378, R395 and 13 R357. -/
def execPartCreate (f q : Nat) (s : State) : Out :=
  onPf 0x70 f q s (fun p c =>
    let fl := c.arg 28 1
    let m := c.arg 34 1
    let r : PartReq := { mask := c.arg 26 2, pooled := bit fl 0, d12 := bit fl 1, census := bit fl 2, rg := c.arg 29 1,
                         cc := c.arg 30 2, cid := c.arg 32 2, member := if m = 0xFF then none else some m }
    if s.chr.lcs = .blank ∨ s.chr.lcs = .endOfLife then .fail s Status.denied
    else if s.chr.drainsForDebug ∨ s.chr.drainsForEnd ∨ !s.mon.compute ∨ s.pwr.sleep ≠ .running then .fail s Status.state
    else match s.createCheck p r, s.memberSecs r with
    | some st, _ => .fail s st
    | none, .error _ => .fail s Status.quota
    | none, .ok cs => let t := (s.makePart p r cs).switchAudit; .done t Status.ok (t.epoch r.cid) 0)

/-! ### PART_DRAIN (13 R371-R373; 08 R234) -/

/-- PART_DRAIN: it completes with DRAIN_COMPLETE. -/
def execPartDrain (f q : Nat) (s : State) : Out :=
  onPf 0x71 f q s (fun p _ =>
    if (s.part p).state = .free ∨ (s.part p).state = .draining then .fail s Status.state
    else .runs (s.drainStart p (some q)))

/-- Granules of a whole window, catchment included. -/
def windowGroups : Nat := winGranules * 4
/-- Units of 8 KiB that the drain scrub of one section rewrites: its window in both stacks, and the save area of 224 MiB. -/
def scrubUnits : Nat := 2 * windowGroups + 224 * 128
/-- The drain scrub of one section: what was on die and in its tables is gone, and every group of both stacks' halves of the
window is rewritten; SLU_STATUS.SCRUB shows it until the sections are Free (08 R234, R237). -/
def State.scrubSection (s : State) (n : Nat) : State :=
  let c := s.sec n
  let s := s.setSec n { c.freshAlloc c.catchC with catchment := c.catchment.filter (fun e => e.2.pinned && !e.2.valid && !e.2.filling) }
  let s := (s.rewriteGroups (2 * n) 0 windowGroups).rewriteGroups (2 * n + 1) 0 windowGroups
  let s := s.setSlu (2 * n) { s.slu (2 * n) with scrub := true }
  s.setSlu (2 * n + 1) { s.slu (2 * n + 1) with scrub := true }

/-- A partition's SYN state cleared: its quotas, locked until it is next created, stay (11 R328; 13 R358, R371). -/
def SynPart.quotas (x : SynPart) : SynPart :=
  { qFence := x.qFence, qSem := x.qSem, qEvent := x.qEvent, qWeir := x.qWeir, qFweir := x.qFweir, qRemote := x.qRemote,
    qHwait := x.qHwait, lock := x.lock }
/-- DRAIN_SCRUB: once the epoch has advanced, every context is Free, every core has halted and no request is in flight, Chrysalis
destroys the partition's keys, its on-die state is cleared, and the sluices scrub its windows (13 R371; 08 R234). -/
def execDrainScrub (part : Nat) (s : State) : Out :=
  onPart part <|
    let x := s.part part
    let secs := s.partSecs part
    let busy (n : Nat) : Bool := let y := s.slu n; !y.tags.isEmpty || !y.jobs.isEmpty || !y.rekeys.isEmpty
    if x.state ≠ .draining ∨ !x.epochDone ∨ x.scrubbed ≠ 0 ∨ !s.ctxsFree (part + 1) ∨ (s.partCores part).any (fun e => !e.2.halt) ∨
        secs.any (fun n => busy (2 * n) || busy (2 * n + 1)) then s
    else
      let s := s.dropKeys ([ikSlot part, ikSlot part + 1] ++ (List.range tenantSlots).map (tenantSlot part))
      let s := (s.partCores part).foldl (fun s e => s.setCore e.1 e.2.counters) s
      let s : State := { s with canal := s.canal.filter (fun m => m.key.1 ≠ part) }.dropRings part
      let late := (s.synPart part).ids.map Prod.snd
      let s := late.foldl State.reap (s.setSynPart part (s.synPart part).quotas)
      let s := secs.foldl State.scrubSection s
      let gone (k : Nat) : Bool := k / aqPages == part && x.genScrub.any (fun r =>
        decide (r.1 ≤ aqBase + k % aqPages * pageBytes ∧ aqBase + k % aqPages * pageBytes < r.1 + r.2))
      let s : State := { s with aqf := { s.aqf with gens := s.aqf.gens.filter (fun e => !gone e.1) } }
      s.setPart part { x with regions := [], genScrub := [], scrubbed := scrubUnits * secs.length + 1 }

/-- DRAIN_COMPLETE: the scrub has ended, the ledgers are audited, the sections are Free and PART_DRAIN completes; a debug
unlock or end of life that waited for the last drain goes on (13 R371; 14 R377, R395). -/
def execDrainComplete (part : Nat) (s : State) : Out :=
  onPart part <|
    let x := s.part part
    if x.state ≠ .draining ∨ x.scrubbed = 0 then s else
    let s := (s.partSecs part).foldl State.freeSection s.switchAudit
    let s := s.setPart part { images := x.images, mirror := x.mirror }
    let s := match x.drainCmd with | some q => s.finish 0 q Status.ok (x.scrubbed - 1) | none => s
    s.afterDrains

/-! ### PART_PREEMPT, PART_RESUME (13 R360, R361) -/

/-- A partition is contributor or owner of a reduction group of this module (13 R361). -/
def State.inGroup (s : State) (p : Nat) : Bool :=
  (List.range 64).any (fun e => let g := s.rg e; g.state != .none && (g.owner == some p || g.srcs.any (fun m => m.part == p)))

/-- PART_PREEMPT. The ledgers are audited on the state that is saved (13 R360). The stop time is a free value within the 1,200 µs of 13 R360. -/
def execPartPreempt (f q : Nat) (s : State) : Out :=
  onPf 0x72 f q s (fun p _ =>
    if (s.part p).state ≠ .active ∨ (s.part p).cocBusy ∨ s.inGroup p then .fail s Status.state
    else
      let (v, s) := s.fresh
      let s := s.switchAudit.freeze p
      .done (s.setPart p { s.part p with state := .preempted }) Status.ok (v.toNat % 1201) 0)

/-- PART_RESUME. The ledgers are audited once the partition has its state again (13 R360). -/
def execPartResume (f q : Nat) (s : State) : Out :=
  onPf 0x73 f q s (fun p _ =>
    if (s.part p).state ≠ .preempted ∨ s.pwr.sleep ≠ .running then .fail s Status.state
    else
      let s := s.thaw p
      .done ((s.setPart p { s.part p with state := .active }).switchAudit) Status.ok 0 0)

/-! ### PART_MODE, PART_STATUS (13 R355, R356) -/

/-- Every queue of a function is idle: no command in hand and none waiting. -/
def State.queuesIdle (s : State) (f : Nat) : Bool :=
  (List.range 64).all (fun q => let x := s.queue f q; x.state == .absent || (x.cur.isNone && x.waiting == 0))

/-- PART_MODE. A launch keeps the modes with which it started. -/
def execPartMode (f q : Nat) (s : State) : Out :=
  onPf 0x74 f q s (fun p c =>
    let v := c.arg 25 1
    let ch := c.arg 26 1
    let x := s.part p
    if x.state ≠ .active ∨ (bit ch 0 ∧ !s.queuesIdle (p + 1)) then .fail s Status.state
    else .done (s.setPart p { x with d12 := if bit ch 0 then bit v 0 else x.d12, census := if bit ch 1 then bit v 1 else x.census })
      Status.ok 0 0)

/-- PART_STATUS. -/
def execPartStatus (f q : Nat) (s : State) : Out :=
  onPf 0x75 f q s (fun p _ => .done s Status.ok (s.idnPart p) 0)

end Sys2Proof.Machine
end

