-- ==== Sys2Proof/Machine/Cocoon.lean ====
section
/-! DEFINITION. Cocoons (15 R399-R406; 14 R389): COC_PREPARE, COC_TAKE, COC_STOP_END, COC_IMAGE_COMPLETE, COC_TICKET_EXPIRY,
COC_RESTORE, COC_RESTORE_COMPLETE. -/

namespace Sys2Proof.Machine

/-! ### Requests (15 R401, R402) -/

/-- Saved blocks listed by base, as every allocator lists its own. -/
def Saved.byBase (x : Saved) : Saved :=
  { x with allocs := x.allocs.map (fun a => (a.1, a.2.1.mergeSort (fun b c => decide (b.base ≤ c.base)), a.2.2)) }
/-- Entries of a range list: DVA and length (15 R402). -/
def parseRanges (n : Nat) (l : List Byte) : List (Nat × Nat) := (chunks 16 n l).map (fun b => (field b 0 8, field b 8 8))
/-- The bytes of a range list. -/
def rangeBytes (l : List (Nat × Nat)) : List Byte := (l.map (fun r => leBytes 8 r.1 ++ leBytes 8 r.2)).flatten

/-- A range of a list breaks a bound: its alignment, its place within one Reservoir object, or its separation from the others (15 R402). -/
def State.rangesBad (s : State) (p : Nat) : List (Nat × Nat) → Bool
  | [] => false
  | r :: rest =>
    decide (r.1 % 4096 ≠ 0 ∨ r.2 % 4096 ≠ 0) || (!touchesAq r.1 r.2 && s.hostRange p r.1 r.2 == .none) ||
      rest.any (fun x => overlap (r.1, r.1 + r.2) (x.1, x.1 + x.2)) || s.rangesBad p rest
/-- The object table of a schedule cocoon: a DVA for each window; none where its range is no memory object's (15 R402). -/
def State.objTable (s : State) (p dva : Nat) : Option (List Nat) :=
  let k := (s.partSecs p).length
  (s.cmdBytes p dva (8 * k)).map (fun l => (List.range k).map (fun o => field l (8 * o) 8))
/-- Each entry of an object table is the base of a live object of at least 224 MiB in its window (15 R402). -/
def State.objsOk (s : State) (p : Nat) (objs : List Nat) : Bool :=
  (s.partSecs p).zipIdx.all (fun (n, o) => match s.blockBase p (objs.getD o 0) with
    | some (m, b) => m == n && decide (schedPart ≤ b.n * 65536)
    | none => false)
/-- The wrapping rules of 14 R389: outside a compact a WRAP slot of the partition, in one the compact's keys. -/
def State.wrapOk (s : State) (p wrap : Nat) : Bool :=
  (s.part p).member.isSome || (wrap != 0xFF && s.slotServes (tenantSlot p wrap) Usage.wrap p (s.part p).cid)

/-- Bytes of a cocoon image (15 R404). -/
def imageLen (full : Bool) (secs tbytes : Nat) : Nat := 4096 + secs * schedPart + (if full then tbytes + 4096 else 0)
/-- The predicted stop in µs (15 R401; 17 R449 for a narrower host port). -/
def State.stopPred (s : State) (full : Bool) (secs tbytes : Nat) : Nat :=
  let rate := secs * (11000 / 2 ^ s.mon.width)
  1200 + (if full then (tbytes + rate - 1) / rate else 0)

/-- The argument checks of a cocoon request (15 R402): a status where one fails, BOUNDS before DENIED (12 R347). -/
def State.cocCheck (s : State) (p : Nat) (m : Option Mapping) (r : CocReq) : Option Nat :=
  let space := if r.full then (match m with
      | none => true
      | some m => decide (m.len < r.place + imageLen true (s.partSecs p).length r.tbytes))
    else !s.objsOk p r.objs
  firstFail [
    (s.rangesBad p r.ranges || space, Status.bounds),
    (r.ranges.any (fun x => touchesAq x.1 x.2) || (r.full && (!(m.map (·.wr)).getD false || !s.wrapOk p r.wrap)), Status.denied)]
/-- The bytes in device memory that a cocoon request names: its range list, and a schedule cocoon's object table. -/
def State.cocReads (s : State) (p list n : Nat) (full : Bool) (place : Nat) : List (Nat × Nat) :=
  (if n = 0 then [] else [(list, 16 * n)]) ++ (if full then [] else [(place, 8 * (s.partSecs p).length)])

/-- COC_PREPARE: the ticket that it returns is the one after the last (15 R401, R402; assumption 39). -/
def execCocPrepare (f q : Nat) (s : State) : Out :=
  onVf 0x60 f q s (fun p c =>
    let n := c.arg 28 4
    let list := c.arg 32 8
    let full := c.arg 24 1 = 1
    match (if n = 0 then some [] else s.cmdBytes p list (16 * n)), (if full then some [] else s.objTable p (c.arg 40 8)) with
    | some l, some objs =>
      let ranges := parseRanges n l
      let tb := (ranges.map Prod.snd).sum
      let r : CocReq := { full, wrap := c.arg 25 1, handle := c.arg 26 2, ranges, place := c.arg 40 8, tbytes := tb, fn := f, q, objs }
      match s.cocCheck p (s.mapping f q r.handle) r with
      | some st => .fail s st
      | none =>
        let x := s.part p
        if x.cocBusy then .fail s Status.state else
        match s.readDva (.host f q) p ((s.partSecs p).headD 0) (s.cocReads p list n full r.place) with
        | (t, .wait) => .waits t
        | (t, .done st) =>
          if st ≠ Status.ok then .done t st 0 0 else
          let k := (s.partSecs p).length
          let tk := (x.ticket + 1) % 65536
          let pred := s.stopPred full k tb
          let t := t.setPart p { t.part p with coc := .prepared, cocReq := some r, ticket := tk, ticketAt := s.tim.up, cocPred := pred }
          .done t Status.ok pred (tk + place 16 (imageLen full k tb / 4096))
    | _, _ => .fail s Status.bounds)

/-- COC_TICKET_EXPIRY: a ticket 1 s old expires (15 R402, R406). -/
def execCocTicketExpiry (part : Nat) (s : State) : Out :=
  onPart part <|
    let x := s.part part
    if x.coc = .prepared ∧ x.ticketAt + 1000000000 ≤ s.tim.up then s.setPart part { x with coc := .idle, cocReq := none } else s

/-! ### Taking (15 R403, R404) -/

/-- The lowest slot of a partition that holds no key. -/
def State.freeSlot (s : State) (p : Nat) : Option Nat := ((List.range tenantSlots).map (tenantSlot p)).find? (fun i => !(s.vslot i).valid)

/-- COC_TAKE: the range checks once more, on the object table as it is now, then the partition stops (15 R402, R403). A full cocoon takes a
fresh CK in a slot of the partition; QUOTA where every slot holds a key, TRNG_FAIL once no further key is made (14 R385; assumption 39). -/
def execCocTake (f q : Nat) (s : State) : Out :=
  onVf 0x61 f q s (fun p c =>
    let x := s.part p
    match x.cocReq with
    | none => .fail s Status.state
    | some r =>
      if x.coc ≠ .prepared ∨ c.arg 24 2 ≠ x.ticket ∨ x.ticketAt + 1000000000 ≤ s.tim.up then .fail s Status.state
      else
      let r : CocReq := if r.full then r else { r with objs := (s.objTable p r.place).getD [] }
      match s.cocCheck p (s.mapping r.fn r.q r.handle) r with
      | some st => .fail s st
      | none =>
        if r.full ∧ s.chr.trngFailed then .fail s Status.trngFail else
        match s.readDva (.host f q) p ((s.partSecs p).headD 0) (s.cocReads p 0 0 r.full r.place) with
        | (t, .wait) => .waits t
        | (t, .done st) =>
          if st ≠ Status.ok then .done t st 0 0 else
          let go (s : State) (slot : Option Nat) : State :=
            let s := s.freeze p
            s.setPart p { s.part p with coc := .stopped, cocReq := some r, cocCmd := some (f, q), ckSlot := slot }
          if !r.full then .runs (go t none)
          else match t.freeSlot p with
          | none => .fail s Status.quota
          | some i =>
            let (k, t) := t.trng
            .runs (go (t.putKey i k { usage := Usage.xts, exportable := true, owner := p, cid := x.cid }) (some i)))

/-- The header of an image (15 R404). -/
def State.cocHeader (s : State) (p : Nat) (r : CocReq) (nsh : Nat) : List Byte :=
  let x := s.part p
  leBytes 4 0x434F4357 ++ leBytes 2 1 ++ leBytes 1 (b2n r.full) ++ leBytes 1 nsh ++ leBytes 1 (s.partSecs p).length ++ leBytes 1 p ++
    leBytes 2 x.cid ++ leBytes 1 (x.member.getD 0xFF) ++ leBytes 1 (b2n x.pooled + 2 * b2n x.d12 + 4 * b2n x.census) ++ leBytes 2 x.catchC ++
    leBytes 4 ((x.ledger.getLast?.map (·.step)).getD 0xFFFFFFFF) ++ leBytes 4 r.ranges.length ++ leBytes 8 r.tbytes ++
    leBytes 8 Config.uid.toNat ++ leBytes 2 s.coord ++ List.replicate 6 0 ++ digestBytes x.meas ++
    digestBytes (sha384 (rangeBytes r.ranges)) ++ List.replicate 112 0
/-- A share record: member index, TPUB, the wrapped share (15 R404). -/
def shareRecord (idx : Nat) (tpub blob : List Byte) : List Byte := leBytes 1 idx ++ List.replicate 7 0 ++ tpub ++ blob
/-- One share of CK wrapped to a member's key with a fresh ephemeral pair (14 R389). -/
def State.wrapShare (s : State) (p idx : Nat) (key : List Byte) (share : BitVec 256) : List Byte × State :=
  let (d, s) := s.randPriv
  let pub := p384Pub d
  (shareRecord idx pub (kwWrap (s.kek p d key "D20 CCK" pub) share), s)
/-- CK split into shares whose XOR it is, each wrapped to its member (14 R389). -/
def State.wrapAll (s : State) (p : Nat) (rest : BitVec 256) : List (Nat × Member) → List Byte × State
  | [] => ([], s)
  | [(i, m)] => s.wrapShare p i m.key rest
  | (i, m) :: r =>
    let (v, s) := s.trng
    let (a, s) := s.wrapShare p i m.key v
    let (b, s) := s.wrapAll p (rest ^^^ v) r
    (a ++ b, s)
/-- The share records of a full cocoon, and their number (14 R389). -/
def State.wrapCk (s : State) (p : Nat) (r : CocReq) (ck : BitVec 256) : List Byte × Nat × State :=
  match (s.part p).member, sget none s.chr.compacts (s.part p).cid with
  | some _, some k =>
    let ms := (k.members.zipIdx.map (fun x => (x.2, x.1))).filter (fun x => k.keypol || x.2.role == 1)
    let (b, s) := s.wrapAll p ck ms
    (b, ms.length, s)
  | _, _ => (shareRecord 0xFF (List.replicate 96 0) (kwWrap (s.vaultKey (tenantSlot p r.wrap)) ck), 1, s)

/-- Blocks of 4 KiB written to host memory, encrypted under CK with the block's index as tweak (15 R404). -/
def State.putBlocks (s : State) (ck : BitVec 256) (base : Nat) : Nat → List (List Byte) → State
  | _, [] => s
  | i, b :: r => (s.hostPut (base + 4096 * i) (xtsEnc ck ck (BitVec.ofNat 128 i) b)).putBlocks ck base (i + 1) r
/-- Blocks of the schedule part of an image. -/
def schedBlocks (secs : Nat) : Nat := secs * schedPart / 4096
/-- Blocks of an image decrypted under CK, the first of them block i (15 R404). -/
def openBlocks (ck : BitVec 256) (i : Nat) (l : List Byte) : List Byte :=
  ((chunks 4096 (l.length / 4096) l).zipIdx.map (fun b => xtsDec ck ck (BitVec.ofNat 128 (i + b.2)) b.1)).flatten
/-- The MAC of an image: over every byte before the trailer, under a key of CK and the header (15 R404). -/
def imageMac (ck : BitVec 256) (image : List Byte) : List Byte :=
  digestBytes (hmac384 (kdf (beBytes 32 ck.toNat) (ascii "D20 COC MAC") (image.take 256) 384) image)
/-- A header block: the header and what follows it, filled with zeros to 4 KiB (15 R404). -/
def headBlock (head : List Byte) : List Byte := head ++ List.replicate (4096 - head.length) 0
/-- A schedule image as the objects hold it: the header block, then the schedule part, which the last object's end cuts (15 R404; assumption
38). -/
def objImage (head : List Byte) (x : Saved) (k : Nat) : List Byte := (headBlock head ++ schedImage x k).take (k * schedPart)
/-- The objects of a schedule cocoon, each with its share of the image (15 R402-R404). -/
def schedRuns (p : Nat) (objs : List Nat) (head : List Byte) (img : Saved) : List (Nat × Nat × List Byte) :=
  let b := objImage head img objs.length
  objs.zipIdx.map (fun e => (p, e.1, slice b (e.2 * schedPart) schedPart))
/-- What keeps CK from leaving at the end of a stop: the vault refuses the wrapping slot or CK itself, or no share can be made (14 R383, R385,
R389). -/
def State.wrapFails (s : State) (p : Nat) (r : CocReq) : Option Nat :=
  firstFail [
    (!s.wrapOk p r.wrap || !(s.part p).ckSlot.any (fun i => s.slotServes i Usage.xts p (s.part p).cid), Status.denied),
    ((s.part p).member.isSome && s.chr.trngFailed, Status.trngFail)]

/-- The actual stop in µs: a free value within the prediction (15 R401). -/
def State.stopTime (s : State) (pred : Nat) : Nat × State := let (v, s) := s.fresh; (v.toNat % (pred + 1), s)

/-- COC_STOP_END: the stop phase ends (15 R403). A schedule cocoon's image is in the named objects, and the partition goes on; a full one's
header and tensor part are in host memory first, and its schedule part and trailer follow. A line that cannot be read or written, or a key
that the vault refuses, ends the cocoon with its status. -/
def execCocStopEnd (part : Nat) (s : State) : Out :=
  onPart part <|
    let x := s.part part
    match x.cocReq, x.saved with
    | some r, some img =>
      if x.coc ≠ .stopped ∨ s.join.held.contains part then s else
      let k := (s.partSecs part).length
      let keep (s : State) : State := s.setPart part { s.part part with images := (s.part part).images ++ [(x.images.length, img)] }
      if !r.full then
        match putRuns (schedRuns part r.objs (s.cocHeader part r 0) img) s with
        | none => s
        | some (t, st) =>
          if st ≠ Status.ok then t.cocEnd part st else
          let (v, t) := t.stopTime x.cocPred
          (keep t).cocEnd part Status.ok v (imageLen false k r.tbytes)
      else match s.mapping r.fn r.q r.handle with
      | none => s.cocEnd part Status.bounds
      | some m => match s.readDva (.host r.fn r.q) part ((s.partSecs part).headD 0) r.ranges with
        | (t, .wait) => t
        | (t, .done st) =>
          if st ≠ Status.ok then t.cocEnd part st else
          match t.wrapFails part r with
          | some st => t.cocEnd part st
          | none =>
          let ck := s.vaultKey (x.ckSlot.getD 0)
          let base := m.addr + r.place
          let (shares, nsh, t) := t.wrapCk part r ck
          let head := t.cocHeader part r nsh ++ shares
          let tensor := (r.ranges.map (fun y => s.dvaBytes part ((s.partSecs part).headD 0) y.1 y.2)).flatten
          let t := t.hostPut base (headBlock head)
          let t := t.putBlocks ck base (1 + schedBlocks k) (chunks 4096 (r.tbytes / 4096) tensor)
          let t := (keep t).thaw part
          t.setPart part { t.part part with coc := .emptying }
    | _, _ => s

/-- COC_IMAGE_COMPLETE: the schedule part is copied from the save areas, the trailer with the MAC is written, and COC_TAKE
completes (15 R403, R404). -/
def execCocImageComplete (part : Nat) (s : State) : Out :=
  onPart part <|
    let x := s.part part
    match x.cocReq, x.images.getLast? with
    | none, _ | _, none => s
    | some r, some img =>
      if x.coc ≠ .emptying then s
      else match s.mapping r.fn r.q r.handle with
      | none => s.cocEnd part Status.bounds
      | some m =>
        if !x.ckSlot.any (fun i => s.slotServes i Usage.xts part x.cid) then s.cocEnd part Status.denied else
        let k := (s.partSecs part).length
        let base := m.addr + r.place
        let len := imageLen true k r.tbytes
        let ck := s.vaultKey (x.ckSlot.getD 0)
        let t := s.putBlocks ck base 1 (chunks 4096 (schedBlocks k) (schedImage img.2 k))
        let t := t.hostPut (base + len - 4096) (imageMac ck (t.hostGet base (len - 4096)) ++ List.replicate 4048 0)
        let (v, t) := t.stopTime x.cocPred
        t.cocEnd part Status.ok v len

/-! ### Restoring (15 R405, R406, R416) -/

/-- The shares of CK, each unwrapped under IK(p); the status of the first that fails (15 R405). -/
def State.unwrapAll (s : State) (p : Nat) : List (List Byte) → Except Nat (BitVec 256)
  | [] => .ok 0
  | b :: r => match s.unwrapIk p "D20 CCK" (slice b 8 96) (slice b 104 40), s.unwrapAll p r with
    | .ok k, .ok k' => .ok (k ^^^ k')
    | .error st, _ => .error st
    | _, .error st => .error st

/-- Core numbers of an image moved onto the partition's sections by ordinal. -/
def moveCore (old new : List Nat) (c : Nat) : Nat := new.getD (old.idxOf (coreSec c)) (coreSec c) * 256 + c % 256
/-- A core of an image as it is restored: halted, its waits withdrawn until the next launch (15 R405; assumption 40). -/
def Core.restored (k : Core) (mv : Nat → Nat) (mo : Nat → Nat) : Core :=
  { k with
    run := false, halt := true, stop := none, launch := none, queues := [], waits := [], syPend := none
    handles := k.handles.map (fun e => (e.1, if e.2.kind = .canal then { e.2 with peer := mv e.2.peer } else e.2))
    reqs := k.reqs.map (fun r => { r with prodCore := mv r.prodCore, consCore := mv r.consCore })
    weirPhase := k.weirPhase.foldl (fun m e => sset 0 m (mo e.1) e.2) [] }
/-- A canal message of an image. -/
def CanalMsg.moved (p : Nat) (mv : Nat → Nat) : CanalMsg → CanalMsg
  | .openReq _ r => .openReq p { r with prodCore := mv r.prodCore, consCore := mv r.consCore }
  | .openAck _ rid c q pq d => .openAck p rid (mv c) q pq d
  | .item _ rid c q x => .item p rid (mv c) q x
  | .credit _ rid c q n => .credit p rid (mv c) q n
  | .closeAck _ rid c q => .closeAck p rid (mv c) q
/-- A sync object of an image: private, its waits withdrawn (15 R405; assumption 40). -/
def SynObj.restored (o : SynObj) (p : Nat) (ctx : Option Nat) (old new : List Nat) : SynObj :=
  let mv := moveCore old new
  { o with
    owner := p, ctx, life := .live, shared := false, mask := o.mask.map mv, arrived := o.arrived.map mv, held := o.held.map mv
    waiters := [] }
/-- The waits of siphon schedules of an image, which are issued again when the next launch starts (15 R405; assumption 40). -/
def Saved.siphonWaits (x : Saved) (p : Nat) (new : List Nat) : List Waiter :=
  let old := x.scheds.map Prod.fst
  x.objs.flatMap (fun e => match e.2 with
    | some o => o.waiters.filterMap (fun w => match w.who with
      | .siphon n k => some { w with who := .siphon (new.getD (old.idxOf n) n) k, part := p, parked := false }
      | _ => none)
    | none => [])

/-- The image's schedule state installed in a partition (15 R405): cores, schedules, canal, sync objects under fresh entries, the
next steps of its groups, and the ledger; a full restore keeps the entries of the steps after the image's last one, and those that it still
expected, as expected ones (15 R416). -/
def State.install (s : State) (p : Nat) (x : Saved) (ctx : Option Nat) (full : Bool) : State :=
  let old := x.scheds.map Prod.fst
  let new := s.partSecs p
  let mv := moveCore old new
  let base := s.syn.nextId
  let keys := x.objs.map Prod.fst
  let mo (k : Nat) : Nat := base + keys.idxOf k
  let gone := s.syn.objs.filterMap (fun e => match e.2 with | some o => if o.privOf p then some e.1 else none | none => none)
  let bound := (s.synPart p).ids.map Prod.snd
  let s := s.setSynPart p { s.synPart p with ids := [] }
  let s := gone.foldl State.abandon s
  let s := bound.foldl State.reap s
  let s := x.objs.foldl (fun s e => match e.2 with
    | some o => s.setObj (mo e.1) (some (o.restored p ctx old new))
    | none => s) s
  let s : State := { s with syn := { s.syn with nextId := base + keys.length } }
  let s := s.setSynPart p { s.synPart p with
    ids := x.ids.foldl (fun m e => if keys.contains e.2 then sset 0 m e.1 (mo e.2) else m) [] }
  let s := x.cores.foldl (fun s e => s.setCore (mv e.1) ((e.2.restored mv mo).withCounters (s.core (mv e.1)))) s
  let s := x.scheds.zipIdx.foldl (fun s e => match new[e.2]? with
    | some n => s.setSec n { s.sec n with scheds := e.1.2.map (fun h => (h.1, { h.2 with ctx := if h.2.state = .idle then none else ctx })) }
    | none => s) s
  let s : State := { s with canal := s.canal.filter (fun m => m.key.1 ≠ p) ++ x.canal.map (CanalMsg.moved p mv) }
  let s := (s.dropRings p).putRings (x.rings.map (fun e => (mv (ringCore e.1) * 512 + e.1 % 512, e.2)))
  let y := s.part p
  let last := (x.ledger.getLast?.map (·.step))
  let later := y.ledger.filter (fun e => match last with | some k => decide (k < e.step) | none => true)
  let still := y.expectL.filter (fun e => match last with | some k => decide (k < e.step) | none => true)
  s.setPart p { y with
    steps := x.steps, streams := x.streams, ledger := x.ledger, expectL := if full then later ++ still else y.expectL
    rewaits := x.siphonWaits p new }

/-- Allocator state of a partition, by ordinal: live objects and blocks under scrub (07 R189). -/
def State.allocs (s : State) (p : Nat) : List (List Block × List (Nat × Nat)) :=
  (s.partSecs p).map (fun n => ((s.sec n).live, (s.sec n).scrub))

/-- CK of a full image, from its share records; 0 where a share does not unwrap. -/
def State.restoreCk (s : State) (p : Nat) (shares : List (List Byte)) : BitVec 256 :=
  match s.unwrapAll p shares with
  | .ok k => k
  | .error _ => 0
/-- The status of the share records. -/
def State.sharesBad (s : State) (p : Nat) (shares : List (List Byte)) : Option Nat :=
  match s.unwrapAll p shares with
  | .ok _ => none
  | .error st => some st
/-- The bytes of a full image before its trailer: the header block, the schedule part encrypted under CK, and the tensor part as it is stored
(15 R404). -/
def imageBytes (ck : BitVec 256) (img : CocRead) (k : Nat) : List Byte :=
  img.header ++ ((chunks 4096 (schedBlocks k) (schedImage img.sched k)).zipIdx.map (fun e =>
    xtsEnc ck ck (BitVec.ofNat 128 (1 + e.2)) e.1)).flatten ++ img.tensor
/-- The bytes of a schedule image that the objects of a table hold. -/
def State.objBytes (s : State) (p : Nat) (objs : List Nat) : List Byte :=
  objs.flatMap (fun a => s.dvaBytes p ((s.partSecs p).headD 0) a schedPart)
/-- The checks of 15 R405, in their order. `h` is the image's header, `held` what the objects of a schedule image hold: a schedule part that
is not that of the image's schedule state is one whose allocator state is not the partition's (assumption 40). -/
def State.restoreCheck (s : State) (p : Nat) (f q : Nat) (full : Bool) (img : CocRead) (held : List Byte) (shares : List (List Byte)) :
    Option Nat :=
  let x := s.part p
  let k := (s.partSecs p).length
  let h := if full then img.header else held.take 256
  let ck := s.restoreCk p shares
  let idle := (List.range 64).all (fun k => k == q || (let y := s.queue f k; y.state == .absent || (y.cur.isNone && y.waiting == 0)))
  let live := (s.partSecs p).any (fun n => (s.sec n).live.any (fun b => b.role = .priv))
  let same : Bool := held == objImage h img.sched k && s.allocs p == img.sched.byBase.allocs.map (fun a => (a.2.1, a.2.2))
  let hdr := field h 8 1 = k ∧ field h 14 2 = x.catchC ∧ field h 10 2 = x.cid ∧ field h 12 1 = x.member.getD 0xFF ∧
    field h 13 1 = b2n x.pooled + 2 * b2n x.d12 + 4 * b2n x.census
  let mac : Bool := !full || img.mac == imageMac ck (imageBytes ck img k)
  firstFail [
    ((s.partCores p).any (fun e => !e.2.halt) || !idle || (if full then live else !same), Status.state),
    (!decide hdr, Status.state),
    (slice h 48 48 != digestBytes x.meas, Status.denied),
    (full && (s.sharesBad p shares).isSome, (s.sharesBad p shares).getD 0),
    (!mac || slice h 96 48 != digestBytes (sha384 (rangeBytes img.ranges)) || field h 0 4 != 0x434F4357 || field h 6 1 != b2n full,
      Status.integrity)]
/-- The tensor ranges of a full image with their bytes, in list order (15 R404). -/
def tensorRuns (p : Nat) : List (Nat × Nat) → List Byte → List (Nat × Nat × List Byte)
  | [], _ => []
  | r :: rest, l => (p, r.1, l.take r.2) :: tensorRuns p rest (l.drop r.2)

/-- COC_RESTORE: checked by 15 R405, then installed; it completes with COC_RESTORE_COMPLETE. `img` is the image as it is read (assumption
40); a schedule image lies in the objects of the table. -/
def execCocRestore (f q : Nat) (img : CocRead) (s : State) : Out :=
  onVf 0x62 f q s (fun p c =>
    let full := c.arg 24 1 = 1
    let nsh := c.arg 25 1
    let place := c.arg 32 8
    let x := s.part p
    let k := (s.partSecs p).length
    let shareBytes := if full then s.cmdBytes p (c.arg 40 8) (144 * nsh) else some []
    let objs := if full then some [] else s.objTable p place
    let m := s.mapping f q (c.arg 26 2)
    let tb := (img.ranges.map Prod.snd).sum
    let spaceBad : Option Nat :=
      if full then match m with
        | none => some Status.bounds
        | some m => if m.len < place + imageLen true k tb then some Status.bounds else if !m.rd then some Status.denied else none
      else if s.objsOk p (objs.getD []) then none else some Status.bounds
    match shareBytes, objs, spaceBad with
    | none, _, _ | _, none, _ => .fail s Status.bounds
    | some _, some _, some st => .fail s st
    | some sb, some objs, none =>
      if x.cocBusy then .fail s Status.state
      else match s.readDva (.host f q) p ((s.partSecs p).headD 0)
          (if full then [(c.arg 40 8, 144 * nsh)] else (place, 8 * k) :: objs.map (fun a => (a, schedPart))) with
      | (t, .wait) => .waits t
      | (t, .done st) =>
        if st ≠ Status.ok then .done t st 0 0 else
        let shares := chunks 144 nsh sb
        match t.restoreCheck p f q full img (t.objBytes p objs) shares with
        | some st => .done t st 0 0
        | none =>
          let ck := t.restoreCk p shares
          let y := img.sched.byBase
          let ctx := (t.queue f q).ctx
          let t := if full then ((t.partSecs p).zip y.allocs).foldl (fun s e => s.setSec e.1 ((s.sec e.1).putBlocks
              (e.2.2.1.map (fun b => if b.role = .priv then { b with ctx } else b)) e.2.2.2)) t else t
          match putRuns (if full then tensorRuns p img.ranges (openBlocks ck (1 + schedBlocks k) img.tensor) else []) t with
          | none => .waits s
          | some (t, st) =>
            if st ≠ Status.ok then .done t st 0 0 else
            let t := t.install p y ctx full
            .runs (t.setPart p { t.part p with coc := .restoring, cocReq := none, cocCmd := some (f, q) }))

/-- COC_RESTORE_COMPLETE: the restore finishes with the last ledger step (15 R400, R406). -/
def execCocRestoreComplete (part : Nat) (s : State) : Out :=
  onPart part <|
    let x := s.part part
    if x.coc ≠ .restoring then s
    else s.cocEnd part Status.ok ((x.ledger.getLast?.map (·.step)).getD 0xFFFFFFFF)

end Sys2Proof.Machine
end

