-- ==== Sys2Proof/Machine/Ledger.lean ====
section
/-! DEFINITION. The step ledger, its mirror on the twin, and the join of a spare (15 R407-R418): STEP_MARK, LEDGER_READ, TWIN_POLICY,
LEDGER_MIRROR, SPARE_PARTITIONS_READY, SPARE_REGION_TIMEOUT, TWIN_TRANSFER_COMPLETE. -/

namespace Sys2Proof.Machine

/-! ### Entries (15 R408, R409) -/

/-- The 64 bytes of a ledger entry. -/
def LedgerEntry.bytes (e : LedgerEntry) : List Byte :=
  leBytes 4 e.step ++ leBytes 1 e.status ++ leBytes 1 (b2n e.d12 + 2 * b2n e.sign1) ++ leBytes 2 e.gid ++ leBytes 4 e.cnt ++
    leBytes 4 e.expected ++ beBytes 32 e.ldig.toNat ++ List.replicate 16 0
/-- LDIG of a step and its loss bytes. -/
def lossDigest (step : Nat) (loss : List Byte) : BitVec 256 := (sha384 (leBytes 4 step ++ loss)).extractLsb' 128 256
/-- The last 65,536 entries of a ledger. -/
def keepLast {α : Type} (n : Nat) (l : List α) : List α := l.drop (l.length - n)
/-- A committed or dropped step of a group under a tenancy, with the group's wire form. -/
def State.stepResult (s : State) (cid gid step : Nat) : Option (Bool × StepResult) :=
  (List.range 64).findSome? (fun e =>
    let g := s.rg e
    if g.gid = gid ∧ g.tenancy = cid then (g.results.find? (fun r => r.step = step)).map (fun r => (g.sign1, r)) else none)
/-- The payload of a mirror packet: the partition, then the entry (assumption 36). -/
def mirrorPayload (p : Nat) (e : LedgerEntry) : List Byte := leBytes 32 p ++ LedgerEntry.bytes e
/-- A new entry is sent to the twin's Monarch. -/
def State.sendMirror (s : State) (p : Nat) (e : LedgerEntry) : State :=
  s.sendPacket { noPacket with typ := 6, dst := twinOf s.coord, dep := 0x11, sep := 0x11, arg := 2, payload := mirrorPayload p e }

/-! ### The spare (15 R410, R418) -/

/-- A spare that prepares, receives or replays goes to Failed. -/
def State.spareFail (s : State) (status : Nat) : State :=
  match s.join.phase with
  | .preparing | .receiving | .replaying => { s with join := { s.join with phase := .failed, fstat := status } }
  | _ => s
/-- Every partition of a replaying spare has marked step k. -/
def State.allReplayed (s : State) : Bool :=
  (List.range 10).all (fun p => (s.part p).state == .free ||
    ((s.part p).ledger.getLast?.map (fun e => decide (s.join.replayStep ≤ e.step))).getD false)
/-- The spare joins once every partition has matched; it contributes from the first step that opens after it (10 R295). -/
def State.joinSpare (s : State) : State :=
  if s.join.phase = .replaying ∧ s.allReplayed then
    let s := s.join.groups.foldl (fun s e => s.setRg e.1 { s.rg e.1 with back := (s.rg e.1).outs, backCnt := (s.rg e.1).outs.length }) s
    { s with join := { s.join with phase := .notSpare, groups := [] }, hwk := { s.hwk with role := .active } }
  else s

/-! ### STEP_MARK (15 R407-R416) -/

/-- The entry of a step whose loss bytes are read. MODES records the numerics mode in which the partition stands at the STEP_MARK: 15 R408
names no moment, and PART_MODE may have changed it since the step's launches. DESIGN CHOICE (log entry 117). -/
def State.ledgerEntry (s : State) (p gid step : Nat) (sign1 : Bool) (r : StepResult) (loss : List Byte) : LedgerEntry :=
  { step, status := r.status, d12 := (s.part p).d12, sign1, gid, cnt := r.cnt, expected := r.expected, ldig := lossDigest step loss }
/-- A re-run step differs from its expected entry under the same contributor counts (15 R416). -/
def Part.unlike (x : Part) (e : LedgerEntry) : Bool :=
  match x.expectL.find? (fun y => y.step = e.step) with
  | some y => y.cnt == e.cnt && y.expected == e.expected && y != e
  | none => false
/-- An entry appended, and sent to the twin. -/
def State.appendEntry (s : State) (p : Nat) (e : LedgerEntry) : State :=
  let x := s.part p
  (s.setPart p { x with ledger := keepLast 65536 (x.ledger ++ [e]), expectL := x.expectL.filter (fun y => y.step ≠ e.step) }).sendMirror p e

/-- STEP_MARK: RESULT0 is the entry's place in the ledger. A replaying spare waits for the twin's mirrored entry of step k and
compares with it. -/
def execStepMark (f q : Nat) (s : State) : Out :=
  onVf 0x63 f q s (fun p c =>
    let gid := c.arg 24 2
    let dva := c.arg 32 8
    let n := c.arg 28 4
    let step := c.arg 40 4
    let x := s.part p
    let replay := s.join.phase = .replaying ∧ step = s.join.replayStep
    let twin := x.mirror.find? (fun y => y.step = step)
    match s.cmdBytes p dva n, s.stepResult x.cid gid step with
    | none, _ => .fail s Status.bounds
    | some _, none => .fail s Status.state
    | some loss, some (sign1, r) =>
      let out : Bool := match x.ledger.getLast? with
        | some y => step != y.step + 1
        | none => false
      if out then .fail s Status.state
      else if replay ∧ twin.isNone then .later
      else match s.readDva (.host f q) p ((s.partSecs p).headD 0) [(dva, n)] with
      | (t, .wait) => .waits t
      | (t, .done st) =>
        if st ≠ Status.ok then .done t st 0 0 else
        let e := s.ledgerEntry p gid step sign1 r loss
        if (t.part p).unlike e then .done t Status.integrity 0 0
        else if replay ∧ twin ≠ some e then
          .done ((t.report (Rec.mk' Status.integrity Sev.devFatal Blk.mon 0)).spareFail Status.integrity) Status.integrity 0 0
        else
          let t := t.appendEntry p e
          .done t.joinSpare Status.ok ((t.part p).ledger.length - 1) 0)

/-- LEDGER_READ: the entries from a first step on, written to a mapping with WR. -/
def execLedgerRead (f q : Nat) (s : State) : Out :=
  onVf 0x64 f q s (fun p c =>
    let off := c.arg 32 8
    let first := c.arg 40 4
    let count := c.arg 44 4
    let l := (s.part p).ledger
    match s.mapping f q (c.arg 24 2) with
    | none => .fail s Status.bounds
    | some m =>
      if m.len < off + 64 * count then .fail s Status.bounds
      else if !m.wr then .fail s Status.denied
      else
        let gone : Bool := match l.head? with
          | some y => decide (first < y.step)
          | none => false
        if gone then .fail s Status.bounds
        else
          let es := (l.filter (fun y => first ≤ y.step)).take count
          .done (s.hostPut (m.addr + off) (es.map LedgerEntry.bytes).flatten) Status.ok es.length 0)

/-- TWIN_POLICY. A tenant that takes its consent back ends the readiness of this module's spare. -/
def execTwinPolicy (f q : Nat) (s : State) : Out :=
  onVf 0x65 f q s (fun p c =>
    let ok := c.arg 24 1 = 1
    let t := s.setPart p { s.part p with twinAllow := ok }
    .done (if ok then t else { t with join := { t.join with twinReady := false } }) Status.ok 0 0)

/-- LEDGER_MIRROR: a new entry of the twin's, kept among the last 16 of its partition. -/
def execLedgerMirror (part : Nat) (entry : LedgerEntry) (s : State) : Out :=
  onPart part <|
    let s := match s.hwk.inbox.find? (fun p => p.typ = 6 ∧ p.payload = mirrorPayload part entry) with
      | some p => s.takeInbox p
      | none => s
    s.setPart part { s.part part with mirror := keepLast 16 ((s.part part).mirror ++ [entry]) }

/-! ### The join (15 R410-R414) -/

/-- What an IDN_PART value asks of the spare's partition (13 R374; 15 R411). -/
def reqOfIdn (v : Nat) : PartReq :=
  { mask := bits v 3 10, pooled := bit v 13, d12 := bit v 14, census := bit v 15, rg := bits v 41 7, cc := bits v 48 12, cid := bits v 16 16,
    member := if bits v 36 4 = 15 then none else some (bits v 36 4) }
/-- One of the twin's partitions created on the spare. -/
def sparePart (a : Except Nat State) (e : Nat × Nat) : Except Nat State :=
  match a with
  | .error st => .error st
  | .ok s =>
    if bits e.2 0 3 = 0 then .ok s
    else if 10 ≤ e.1 then .error Status.bounds
    else match s.createCheck e.1 (reqOfIdn e.2), s.memberSecs (reqOfIdn e.2) with
    | some st, _ => .error st
    | none, .error _ => .error Status.quota
    | none, .ok cs => .ok (s.makePart e.1 (reqOfIdn e.2) cs)

/-- The regions that the twin has sealed, as partition, region, base and length, are sealed here at the same DVAs (15 R411). -/
def State.regionsReady (s : State) (l : List (Nat × Nat × Nat × Nat)) : Bool :=
  l.all (fun e => (s.part e.1).regions.any (fun r => r.2.state == .sealed && r.2.base == e.2.2.1 && r.2.size == e.2.2.2))
/-- Preparing, on the spare: the partitions are created once, and it waits for the regions; with both it is ready, and the start of the
twin's hold takes it to Receiving (15 R410, R411). -/
def State.prepare (s : State) (parts : List (Nat × Nat)) (regions : List (Nat × Nat × Nat × Nat)) (hold : Bool) : State :=
  match (if s.join.created then .ok s else parts.foldl sparePart (.ok s)) with
  | .error st => s.spareFail st
  | .ok t =>
    let ready := t.regionsReady regions
    { t with join := { t.join with created := true, ready, phase := if ready && hold then .receiving else .preparing, prog := 0 } }

/-- SPARE_PARTITIONS_READY, on the spare: the partitions that the twin's IDN_PART entries give are created, the regions that the twin has
sealed are waited for, and `hold` is the start of the twin's hold; a policy that refuses, or a partition that cannot be created, leads
to Failed. On the twin: the spare is ready, where every partition allows it (15 R410, R411; assumption 41). -/
def execSparePartitionsReady (allowed : Bool) (parts : List (Nat × Nat)) (regions : List (Nat × Nat × Nat × Nat)) (hold : Bool)
    (s : State) : Out :=
  .next <|
    match s.join.phase with
    | .preparing => if allowed then s.prepare parts regions hold else s.spareFail Status.denied
    | .receiving | .replaying => if allowed then s else s.spareFail Status.denied
    | _ =>
      let ok := allowed && (List.range 10).all (fun p => (s.part p).state == .free || (s.part p).twinAllow)
      { s with join := { s.join with twinReady := ok } }

/-- SPARE_REGION_TIMEOUT: regions not sealed within 60 s of Preparing (15 R411). -/
def execSpareRegionTimeout (s : State) : Out :=
  .next (if s.join.phase = .preparing ∧ !s.join.ready ∧ s.join.prepAt + 60000000000 ≤ s.tim.up then s.spareFail Status.timeout else s)

/-- The allocators of a partition as an image has them, by ordinal. -/
def State.putAllocs (s : State) (p : Nat) (x : Saved) : State :=
  ((s.partSecs p).zip x.allocs).foldl (fun s e => s.setSec e.1 ((s.sec e.1).putBlocks e.2.2.1 e.2.2.2)) s
/-- The schedule state of a partition that a transfer has brought, M included (15 R413). -/
def State.takeImage (s : State) (e : Nat × Saved) : State :=
  let s := s.install e.1 e.2 none false
  s.setPart e.1 { s.part e.1 with meas := e.2.meas }
/-- In Replaying the spare owns its shard and holds its gather map, and its contributions are discarded (10 R293; 15 R414). -/
def State.ownShard (s : State) (e : Nat × RGroup) : State :=
  let g := s.rg e.1
  if g.state = .none ∨ g.gid ≠ e.2.gid then s
  else s.setRg e.1 { g with
    srcs := e.2.srcs, owner := e.2.owner, resDva := e.2.resDva, resFence := e.2.resFence, gather := e.2.gather, gPart := e.2.gPart
    gFence := e.2.gFence, outs := (e.2.srcs.map (·.part)).dedup }
/-- A key that has moved from the twin's Chrysalis, unwrapped: partition, slot, USAGE byte and blob (15 R413). -/
def State.takeKey (s : State) (e : Nat × Nat × Nat × List Byte) : State :=
  match kwUnwrap (s.twinKek false) e.2.2.2 with
  | some k =>
    if tenantSlots ≤ e.2.1 then s
    else s.putKey (tenantSlot e.1 e.2.1) k { usage := e.2.2.1, exportable := true, owner := e.1, cid := (s.part e.1).cid }
  | none => s
/-- An entry of the route master's epoch table, where this module has not learnt of a later epoch (13 R373). -/
def State.takeEpoch (s : State) (e : Nat × Nat) : State :=
  let (v, cur) := sget (false, 0) s.hwk.epochs e.1
  if v ∧ 8 < (e.2 + 16 - cur) % 16 then s else s.setEpoch e.1 (e.2 % 16)
/-- The transfer ends on the spare, its packets taken: the epoch table of the route master (13 R373), allocators, lines, schedule states,
keys and its share of the groups (15 R410, R413, R414). -/
def State.received (rx : Transfer) (s : State) : State :=
  let s := rx.epochs.foldl State.takeEpoch s
  let j := s.join
  let s : State := { s with hwk := { s.hwk with inbox := s.hwk.inbox.filter (fun p => !(p.typ == 1 && p.dep == 0x11)) } }
  let imgs := rx.scheds.map (fun e => (e.1, e.2.byBase))
  let s := imgs.foldl (fun s e => s.putAllocs e.1 e.2) s
  match putRuns rx.lines s with
  | none => s
  | some (t, st) =>
    if st ≠ Status.ok then t.spareFail st
    else if rx.keys.any (fun e => (kwUnwrap (t.twinKek false) e.2.2.2).isNone) then t.spareFail Status.unwrapFailed
    else
    let t := rx.keys.foldl State.takeKey (imgs.foldl State.takeImage t)
    let k := (imgs.map (fun e => (e.2.ledger.getLast?.map (fun y => y.step + 1)).getD 0)).headD 0
    let t := j.groups.foldl State.ownShard t
    { t with join := { j with phase := .replaying, prog := 1000, replayStep := k, ready := false } }

/-- TWIN_TRANSFER_COMPLETE: the twin's partitions go on, and the spare enters Replaying with what it has received, or Failed where the
transfer broke (15 R410, R412, R418). -/
def execTwinTransferComplete (ok : Bool) (rx : Transfer) (s : State) : Out :=
  .next <|
    let s := s.join.held.foldl State.holdEnd s
    if s.join.phase ≠ .receiving then s
    else if ok then s.received rx else s.spareFail Status.linkDown

end Sys2Proof.Machine
end

