-- ==== Sys2Proof/Machine/Packets.lean ====
section
/-! DEFINITION. Packets at a headworks (09 R240, R250, R254-R257, R261, R264, R265): bytes and flits, the checks of format, tenancy and
age, the directions, and the port that a flow takes. -/

namespace Sys2Proof.Machine

/-! ### Packets as bytes and flits (09 R254, R256) -/

/-- The bytes of a packet. -/
def Packet.bytes (p : Packet) : List Byte :=
  leBytes 1 p.typ ++ leBytes 1 p.vc ++ leBytes 3 p.tag ++ leBytes 1 p.hops ++ leBytes 2 p.dst ++ leBytes 2 p.src ++ leBytes 1 p.dep ++
    leBytes 1 p.sep ++ leBytes 4 p.birth ++ leBytes 2 p.payload.length ++ leBytes 2 p.flow ++ leBytes 4 p.pos ++ leBytes 3 p.cnt ++
    leBytes 1 p.rsv27 ++ leBytes 4 p.arg ++ p.payload
/-- Flits of a packet. -/
def pktFlits (p : Packet) : Nat := (32 + p.payload.length + 231) / 232
/-- Flits of a port's receive pool for a virtual channel. -/
def vcPool (vc : Nat) : Nat := if vc < 4 then 768 else 32
/-! ### Fabric runnels (09 R262) -/

/-- The end of a fabric runnel in a section, under an identifier. -/
def State.findFabric (s : State) (sec rid cid : Nat) (consumer : Bool) : Option (Nat × Nat) :=
  (s.cores.map (fun (c, k) =>
    if coreSec c = sec ∧ (s.part (s.partOf c)).cid = cid then
      (k.handles.filter (fun (_, h) => h.state ≠ .unbound ∧ h.consumer = consumer ∧ h.rid = rid ∧ h.kind = .fabric)).map (fun (q, _) => (c, q))
    else [])).flatten.head?
/-! ### Format, tenancy and age (09 R254, R255, R264, R265) -/

/-- A defined endpoint. -/
def endpointOk (e : Nat) : Bool := decide (e ≤ 9) || e == 0x10 || e == 0x11 || e == 0x12
/-- A packet has one of the faults of 09 R255. -/
def pktMalformed (p : Packet) : Bool :=
  !(decide (1 ≤ p.typ ∧ p.typ ≤ 8 ∧ p.vc < 8 ∧ p.tag < 2 ^ 20 ∧ p.dst < 2 ^ 13 ∧ p.src < 2 ^ 13) && endpointOk p.dep && endpointOk p.sep &&
    decide (p.rsv27 = 0 ∧ p.payload.length ≤ 6144 ∧ p.payload.length % 32 = 0 ∧ p.hops ≠ 0) &&
    (p.typ == 2 || p.typ == 3 || p.cnt == 0) && (decide (6 ≤ p.typ) || decide (p.tag % 65536 ≠ 0)))
/-- A packet is stale (09 R264); device traffic under identifier 0 is not checked. -/
def State.pktStale (s : State) (p : Packet) : Bool := !(p.tag % 65536 == 0 && decide (6 ≤ p.typ)) && !s.tagCurrent p.tag
/-- A packet is more than 4,000 units old (09 R265). -/
def State.pktAged (s : State) (p : Packet) : Bool :=
  let a := (s.birth + 2 ^ 32 - p.birth % 2 ^ 32) % 2 ^ 32
  decide (4000 < a ∧ a < 2 ^ 31)

/-- The counters of HWK_DROP (09 R273). -/
inductive Drop where
  | stale | aged | notReady | malformed
  deriving DecidableEq, Repr
def Link.drop (l : Link) : Drop → Link
  | .stale => { l with stale := satAdd 16 l.stale 1 }
  | .aged => { l with aged := satAdd 16 l.aged 1 }
  | .notReady => { l with notready := satAdd 16 l.notready 1 }
  | .malformed => { l with malformed := satAdd 16 l.malformed 1 }
/-- A packet leaves its receive buffer: its flits of the virtual channel that carried it are freed (09 R255, R257). -/
def State.freeFlits (s : State) (b : Buffered) : State :=
  if b.port < 48 ∧ !b.again then
    let l := s.link b.port
    let n := pktFlits b.pkt
    let v := b.pkt.vc % 8
    s.setLink b.port { l with freed := sset 0 l.freed v ((sget 0 l.freed v + n) % 65536), occ := sset 0 l.occ v (sget 0 l.occ v - n) }
  else s
/-- A packet discarded: its credits are returned, and it is counted at the port it entered through. -/
def State.dropPkt (s : State) (b : Buffered) (d : Drop) : State :=
  let s := s.freeFlits b
  if b.port < 48 then s.setLink b.port ((s.link b.port).drop d) else s
/-- Partition-fatal records against the partitions of a tenancy; one without a partition where the identifier is valid but no
partition here has it; `none` decides what a tag that names no live tenancy gives. -/
def State.tenancyRecord (s : State) (p : Packet) (status : Nat) (none : State → State) : State :=
  let cid := p.tag % 65536
  let ps := (List.range 10).filter (fun q => (s.part q).state ≠ .free ∧ (s.part q).cid = cid)
  if cid = 0 then none s
  else if !ps.isEmpty then ps.foldl (fun s q => s.report (Rec.mk' status Sev.partFatal Blk.hwk 0 q p.vc)) s
  else if (sget (false, 0) s.hwk.epochs cid).1 then s.report { Rec.mk' status Sev.partFatal Blk.hwk 0 0xFF p.vc with cid }
  else none s
/-- The record of a malformed packet (09 R255). -/
def State.malformedRecord (s : State) (p : Packet) : State :=
  s.tenancyRecord p Status.bounds (fun s => s.report (Rec.mk' Status.bounds Sev.devFatal Blk.hwk 0 0xFF p.vc))
/-- The record of an aged packet (09 R265). -/
def State.agedRecord (s : State) (p : Packet) : State :=
  s.tenancyRecord p Status.timeout (fun s => s.report (Rec.mk' Status.timeout Sev.corrected Blk.hwk 0 0xFF p.vc))
/-- An acknowledgement of a ROUTE or MGMT packet. -/
def pktIsAck (p : Packet) : Bool := p.typ == 6 && p.arg == ackArg
/-- Two sends of one packet. -/
def sameSend (a b : Packet) : Bool := a.typ == b.typ && a.dst == b.dst && a.arg == b.arg && a.pos == b.pos && a.payload == b.payload
/-- A ROUTE or MGMT packet of this module's own that is not acknowledged yet is noted, to be sent again (09 R265). -/
def State.noteUnacked (s : State) (b : Buffered) : State :=
  if 48 ≤ b.port ∧ (b.pkt.typ = 6 ∨ b.pkt.typ = 7) ∧ !pktIsAck b.pkt ∧ !s.hwk.unacked.any (fun u => sameSend u.pkt b.pkt) then
    { s with hwk := { s.hwk with unacked := s.hwk.unacked ++ [⟨b.pkt, b.port, 1⟩] } }
  else s
/-- The gather end of a section, under an identifier, whose group sent a packet. -/
def State.findGather (s : State) (sec cid gid : Nat) : Option (Nat × Nat) :=
  (s.cores.map (fun (c, k) =>
    if coreSec c = sec ∧ (s.part (s.partOf c)).cid = cid then
      (k.handles.filter (fun (_, h) => h.state ≠ .unbound ∧ h.kind = .gather gid)).map (fun (q, _) => (c, q))
    else [])).flatten.head?
/-- A tile that a core of this module sent, on a fabric end or a gather end, and its own headworks discards as stale: the send completes with
REVOKED, which stops the core (09 R264; 00 R19; assumption 107). -/
def State.sendLost (s : State) (b : Buffered) : State :=
  if 48 ≤ b.port ∧ b.port < 58 ∧ !b.pkt.payload.isEmpty then
    match (if b.pkt.typ = 1 then s.findFabric (b.port - 48) b.pkt.flow (b.pkt.tag % 65536) false
      else if b.pkt.typ = 3 then s.findGather (b.port - 48) (b.pkt.tag % 65536) (b.pkt.flow / 7) else none) with
    | some (c, q) =>
      let h := (s.core c).handle q
      s.setCore c ((s.core c).fault Status.revoked h.stn h.spc h.sseq)
    | none => s
  else s
/-- A packet that fails the checks of 09 R264 and R265 is discarded; none where it passes. -/
def State.checkPkt (s : State) (b : Buffered) : Option State :=
  if s.pktStale b.pkt then some ((s.dropPkt b .stale).sendLost b)
  else if s.pktAged b.pkt then some (((s.dropPkt b .aged).agedRecord b.pkt).noteUnacked b)
  else none

/-! ### Directions, ports and flows (09 R240, R250, R261) -/

/-- Directions: X+, X-, Y+, Y-, Z+, Z-, twin, bypass up, bypass down. -/
abbrev Dir := Nat
/-- Ports of a direction (09 R240). -/
def dirPorts (d : Dir) : List Nat :=
  if d < 6 then (List.range 7).map (7 * d + ·) else if d = 6 then [42, 43, 44, 45] else if d = 7 then [46] else [47]
/-- Dimension of a direction: X, Y, Z, twin. -/
def dirDim (d : Dir) : Nat := if d < 6 then d / 2 else if d = 6 then 3 else 2
/-- Direction of a port. -/
def portDir (n : Nat) : Dir := if n < 42 then n / 7 else if n < 46 then 6 else n - 39
/-- A port takes new packets: it is Up and not told to leave (09 R250). -/
def Link.takes (l : Link) : Bool := l.state == .up && l.target.isNone
/-- The first port of a direction from offset k on, wrapping, that takes packets. -/
def State.portFrom (s : State) (ports : List Nat) (k : Nat) : Option Nat :=
  ((ports.drop k) ++ ports.take k).find? (fun n => (s.link n).takes)
/-- Offset in its direction that a packet's flow is given (09 R261). -/
def flowOffset (p : Packet) (n : Nat) : Nat := if 6 ≤ p.typ then 0 else (if p.typ = 4 then p.sep else p.flow) % n
/-- Key of a flow in a direction (09 R261). -/
def flowKey (d : Dir) (p : Packet) : Nat := d * 2 ^ 20 + (if p.typ = 4 then 65536 + p.sep else p.flow)
/-- The port a packet leaves through, and whether its flow is bound to it from now on (09 R250, R261). A flow that a port served when it
left Up waits for it, as does one whose port drains. None where it waits. -/
def State.portFor (s : State) (d : Dir) (p : Packet) : Option (Nat × Bool) :=
  let ports := dirPorts d
  let fresh := (s.portFrom ports (flowOffset p ports.length)).map (fun n => (n, decide (p.typ < 6)))
  if 6 ≤ p.typ then fresh
  else match sget 0 s.hwk.flows (flowKey d p) with
  | 0 => fresh
  | b + 1 =>
    let l := s.link b
    if l.target.isSome ∨ (l.leftUpAt ≠ 0 ∧ l.waitFlows.contains (flowKey d p)) then none
    else if l.takes then some (b, true)
    else fresh

end Sys2Proof.Machine
end

