-- ==== Sys2Proof/Machine/Link.lean ====
section
/-! DEFINITION. Link ports (09 R242-R258; 18 R474): LNK_ENABLE, LNK_DISABLE, LNK_RETRAIN, LNK_FENCE, LNK_UNFENCE,
PORT_DRAIN_COMPLETE, EQUALISATION_AND_FEC_LOCK, LINK_KEYING, KEYS_INSTALLED, TRAINING_TIMEOUT, ENABLE_RETRY, LOSS_OF_SIGNAL,
LANE_LOSS_OF_LOCK, NO_FLIT_TIMEOUT, FLIT_RECEIVE, FLIT_TRANSMIT, TX_TAP_STEP, LINK_MARGIN, CABLE_PRESENT. -/

namespace Sys2Proof.Machine

/-! ### Flits on the wire (09 R242, R244, R248) -/

/-- The control word of a flit. -/
def flitWord (x : Flit) : Nat :=
  x.seq + place 16 x.ack + place 32 x.cvc + place 35 (b2n x.sop) + place 36 (b2n x.nak) + place 37 (b2n x.idle) + place 40 x.cred + place 56 x.eq
/-- A flit by its control word and its body. -/
def flitOf (w : Nat) (body : List Byte) : Flit :=
  { seq := bits w 0 16, ack := bits w 16 16, cvc := bits w 32 3, sop := bit w 35, nak := bit w 36, idle := bit w 37, cred := bits w 40 16,
    eq := bits w 56 8, body }
/-- The IV of a flit: the salt, its top bit inverted for an idle flit, and the extended sequence number. -/
def flitIv (salt : BitVec 32) (idle : Bool) (seq : Nat) : List Byte :=
  beBytes 4 (if idle then salt ^^^ 0x80000000 else salt).toNat ++ beBytes 8 seq
/-- The 256 bytes of a flit: the control field in clear, the body encrypted, the tag over both. -/
def Link.seal (l : Link) (x : Flit) (seq : Nat) : List Byte :=
  let head := leBytes 8 (flitWord x)
  let c := gcmSeal l.txKey.key (flitIv l.txSalt x.idle seq) head x.body
  head ++ c.1 ++ c.2
/-- The extended sequence number that a receiver takes a SEQ for: the one nearest to what it expects. -/
def extSeq (expected seq : Nat) : Nat :=
  let d := (seq + 65536 - expected % 65536) % 65536
  if d < 32768 then expected + d else expected + d - 65536
/-- A received flit authenticated and decrypted, with its idle count where it is idle; none where it fails. The receiver tries the idle
counts that the flits lost since the last one leave possible (assumption 106). -/
def Link.openFlit (l : Link) (bytes : List Byte) : Option (Flit × Nat) :=
  let head := bytes.take 8
  let w := leNat head
  let tryAt (seq : Nat) : Option (Flit × Nat) :=
    (gcmOpen l.rxKey.key (flitIv l.rxSalt (bit w 37) seq) head (slice bytes 8 232) (slice bytes 240 16)).map (fun b => (flitOf w b, seq))
  if bit w 37 then (List.range (l.idleGap + 1)).findSome? (fun j => tryAt (l.rxIdle + j))
  else tryAt (extSeq l.rxNext (bits w 0 16))
/-- The bits of a flit put into the stream of codewords: what the lanes send of a codeword that is full now, and the port after it. Tap
steps that the peer has asked for take effect after it (09 R252). -/
def Link.code (l : Link) (bytes : List Byte) : List (List Nat) × Link :=
  let acc := l.fecAcc + leNat bytes * 2 ^ l.fecBits
  let n := l.fecBits + 2048
  if n < 10 * rsMsg then ([], { l with fecAcc := acc, fecBits := n })
  else
    (dealLanes (rsEncode ((List.range rsMsg).map (fun i => acc / 2 ^ (10 * i) % 1024))),
     { l with
       fecAcc := acc / 2 ^ (10 * rsMsg), fecBits := n - 10 * rsMsg
       txTaps := l.eqIn.foldl (fun t e => Config.tapStep e t) l.txTaps, eqIn := [] })

/-! ### Port states (09 R249, R250) -/

/-- Ports P42 to P45 lead to the twin. -/
def isTwinPort (n : Nat) : Bool := decide (42 ≤ n ∧ n ≤ 45)
/-- No twin port is Up. -/
def State.twinCut (s : State) : Bool := [42, 43, 44, 45].all (fun n => (s.link n).state ≠ .up)
/-- The ephemeral key of a keying is destroyed at its end (14 R381). -/
def State.dropEph (s : State) (n : Nat) : State :=
  match (s.link n).eph with
  | some i => (s.dropKeys [i, i + 1]).setLink n { s.link n with eph := none }
  | none => s
/-- A port enters a state. A port that leaves Up notes when, and its flows wait (09 R250); a spare that loses its twin ports fails
(15 R410). The session's keys end (14 R381). -/
def State.enter (s : State) (n : Nat) (t : LinkState) : State :=
  let s := s.dropEph n
  let l := s.link n
  let s := s.setLink n { l with
    state := t, target := none, accepted := false, akOld := false, txKey := {}, rxKey := {}, txSalt := 0, rxSalt := 0
    leftUpAt := if l.state = .up then s.tim.up + 1 else l.leftUpAt
    waitFlows := if l.state = .up then (s.hwk.flows.filter (fun e => e.2 = n + 1)).map Prod.fst else l.waitFlows
    retrains := if t = .retraining then satAdd 16 l.retrains 1 else l.retrains }
  if l.state = .up ∧ isTwinPort n ∧ s.twinCut then s.spareFail Status.linkDown else s
def State.setCstat (s : State) (n status : Nat) : State := s.setLink n { s.link n with cstat := status }
/-- A failed attempt: the port goes to Off; after the tenth it is fenced, with a record (09 R249). -/
def State.attemptFailed (s : State) (n : Nat) : State :=
  let k := (s.link n).attempts + 1
  let s := s.setLink n { s.link n with attempts := k }
  if k < 10 then s.enter n .off
  else (s.enter n .fenced).report (Rec.mk' Status.linkDown Sev.corrected Blk.lnk n)
/-- The power in mW to which the cable supply is limited, 0 for a cable that the port does not accept: one of another kind, or longer than
5 m, at a twin port 100 m (18 R474). -/
def cablePower (n : Nat) : Cable → Nat
  | .activeOptical cm => if isTwinPort n then (if cm ≤ 10000 then 4000 else 0) else if cm ≤ 500 then 1500 else 0
  | .passive cm => if !isTwinPort n ∧ cm ≤ 500 then 500 else 0
  | _ => 0
/-- An attempt to enable a port in Off: it reads its cable, and trains from nothing where the cable is allowed. -/
def State.tryEnable (s : State) (n : Nat) : State :=
  let mw := cablePower n (s.link n).cable
  let s := s.setLink n { s.link n with cv33 := mw, laneRev := false, laneInv := 0, rxTaps := [], txTaps := [] }
  if mw ≠ 0 then s.enter n .training else s.attemptFailed n

/-! ### Commands (09 R249, R272; 17 R461) -/

/-- A LNK_CTRL command: STATE outside Ready or without fabric service, else by the port's state. -/
def lnkCmd (n : Nat) (s : State) (f : Link → State) : State :=
  if s.mon.phase = .ready ∧ s.mon.fabric then f (s.link n) else s.setCstat n Status.state
/-- The port drains for a state. A command that asks for less than the drain under way leads to is STATE (09 R272; assumption
42). -/
def State.drainFor (s : State) (n : Nat) (t : LinkState) : State :=
  let rank : LinkState → Nat
    | .fenced => 2
    | .off => 1
    | _ => 0
  match (s.link n).target with
  | none => s.setLink n { s.link n with target := some t, cstat := Status.ok }
  | some u => if rank t < rank u then s.setCstat n Status.state else s.setLink n { s.link n with target := some t, cstat := Status.ok }
/-- A port that may leave Fenced: the straps are sound and its start-up test passed (17 R450; 18 R467). -/
def State.held (s : State) (n : Nat) : Bool := !s.mon.strapsOk || s.mon.fails.contains (.port n)

/-- The Enable command of LNK_CTRL. -/
def lnkEnable (port : Nat) (s : State) : State :=
  lnkCmd port s (fun l => match l.state with
    | .off => (s.setLink port { l with enabled := true, cstat := Status.ok }).tryEnable port
    | _ => s.setCstat port Status.state)
/-- LNK_ENABLE. -/
def execLnkEnable (port : Nat) (s : State) : Out := onLink port (lnkEnable port s)
/-- The Disable command of LNK_CTRL. -/
def lnkDisable (port : Nat) (s : State) : State :=
  lnkCmd port s (fun l => match l.state with
    | .fenced => s.setCstat port Status.state
    | .off => s.setLink port { l with enabled := false, cstat := Status.ok }
    | .up => (s.setLink port { l with enabled := false }).drainFor port .off
    | _ => (s.setLink port { l with enabled := false, cstat := Status.ok }).enter port .off)
/-- LNK_DISABLE. -/
def execLnkDisable (port : Nat) (s : State) : Out := onLink port (lnkDisable port s)
/-- The Retrain command of LNK_CTRL. -/
def lnkRetrain (port : Nat) (s : State) : State :=
  lnkCmd port s (fun l => match l.state with
    | .up => s.drainFor port .retraining
    | _ => s.setCstat port Status.state)
/-- LNK_RETRAIN. -/
def execLnkRetrain (port : Nat) (s : State) : Out := onLink port (lnkRetrain port s)
/-- The Fence command of LNK_CTRL. -/
def lnkFence (port : Nat) (s : State) : State :=
  lnkCmd port s (fun l => match l.state with
    | .fenced => s.setCstat port Status.ok
    | .up => s.drainFor port .fenced
    | _ => (s.setCstat port Status.ok).enter port .fenced)
/-- LNK_FENCE. -/
def execLnkFence (port : Nat) (s : State) : Out := onLink port (lnkFence port s)
/-- The Unfence command of LNK_CTRL. -/
def lnkUnfence (port : Nat) (s : State) : State :=
  lnkCmd port s (fun l => match l.state with
    | .fenced => if s.held port then s.setCstat port Status.state
      else (s.setLink port { l with attempts := 0, cstat := Status.ok }).enter port .off
    | _ => s.setCstat port Status.state)
/-- LNK_UNFENCE. -/
def execLnkUnfence (port : Nat) (s : State) : Out := onLink port (lnkUnfence port s)

/-! ### Training and keying (09 R243, R247, R249, R251, R258; 14 R378, R381, R393) -/

/-- PORT_DRAIN_COMPLETE: a port told to leave Up takes its target state (09 R250). -/
def execPortDrainComplete (port : Nat) (s : State) : Out :=
  onLink port (match (s.link port).target with
    | some t => s.enter port t
    | none => s)

/-- EQUALISATION_AND_FEC_LOCK. A full training finds the lane order and the inverted lanes (one bit each), which the receiver corrects
from then on, and sets the equalisers of both ends; a retraining keeps all of them (09 R243, R251). -/
def execEqualisationAndFecLock (port : Nat) (rev : Bool) (inv : Nat) (rx tx : List Int) (s : State) : Out :=
  onLink port <|
    match (s.link port).state with
    | .training =>
      (s.setLink port { s.link port with laneRev := rev, laneInv := inv % 256, rxTaps := rx, txTaps := tx }).enter port .keying
    | .retraining => s.enter port .keying
    | _ => s

/-- The policy set accepts a peer's firmware: one manifest holds its four digests, and its versions reach the floors (14 R393). -/
def Chr.accepts (c : Chr) (ev : PeerEvidence) : Bool :=
  (c.digests :: c.policy.map (·.digests)).contains ev.digests &&
    (List.range 3).all (fun i => decide (c.otp.svnmin.getD i 0 ≤ ev.svns.getD (i + 1) 0))
/-- The lowest free pair of slots for an ephemeral key (14 R381). -/
def State.ephFree (s : State) : Option Nat := ((List.range 8).map (fun i => 6 + 2 * i)).find? (fun i => !(s.vslot i).valid)

/-- Two values of the ends of a link, the end of the lower UID first (14 R380). -/
def byUid (mine peer : Nat) (a b : List Byte) : List Byte := if mine ≤ peer then a ++ b else b ++ a
/-- The hash of the transcript of a keying: the identity, port, public key and nonce of each end (assumption 105). -/
def transcript (port : Nat) (ev : PeerEvidence) (pub nonce : List Byte) : Digest :=
  let part (uid port : Nat) (pub nonce : List Byte) : List Byte := beBytes 8 uid ++ beBytes 1 port ++ pub ++ nonce
  sha384 (byUid Config.uid.toNat ev.uid (part Config.uid.toNat port pub nonce) (part ev.uid ev.port ev.pub ev.nonce))
/-- Chrysalis accepts a peer (09 R247): its chain, its signature of the transcript by its identity key, its lifecycle and debug state and
its firmware. -/
def State.peerOk (s : State) (h : Digest) (ev : PeerEvidence) : Bool :=
  ev.chainOk && ecOn (ecPoint ev.pub) && ecdsaVerify ev.key h ev.sig && ev.lcs == 2 && !ev.debug && s.chr.accepts ev

/-- LINK_KEYING: this end makes its ephemeral pair and its nonce, and signs the transcript with the AK; `rsp` shows its public key, nonce,
signature and certificates (assumption 3). The peer's evidence is checked: a rejected peer fences the port; an accepted one waits for its
keys. Without a DIK the keying is STATE; with a failed TRNG, or every slot for ephemeral keys taken, it does not begin. -/
def execLinkKeying (port : Nat) (ev : PeerEvidence) (s : State) : Out :=
  onLink port <|
    let l := s.link port
    if l.state ≠ .keying ∨ l.accepted ∨ s.chr.trngFailed then s
    else if !s.deviceServes akSlot Usage.sign then (s.attemptFailed port).setCstat port Status.denied
    else if s.chr.lcs = .blank ∨ s.chr.lcs = .endOfLife then s.setCstat port Status.state
    else match s.ephFree with
    | none => s
    | some i =>
      let (d, s) := s.randPriv
      let (r, s) := s.trng
      let s := s.putPriv i d Usage.ecdh
      let pub := p384Pub d
      let nonce := beBytes 32 r.toNat
      let h := transcript port ev pub nonce
      let ok := s.peerOk h ev
      let s := s.answer Status.ok [] (pub ++ nonce ++ ecdsaSign (s.privKey akSlot) h ++ Config.flashCerts ++
        leBytes 2 s.chr.akCert.length ++ s.chr.akCert)
      let s := s.setLink port { l with
        eph := some i, accepted := ok, thash := h, peerUid := ev.uid, peerPub := ev.pub
        peerPort := ev.port, px := ev.px, py := ev.py, pz := ev.pz, pdist := ev.dist }
      if ok then s else (s.enter port .fenced).setCstat port Status.peerRejected

/-- The key and salt of a direction of a link (09 R248; 14 R379, R380): 0 from the lower UID to the higher. The label is the model's
(assumption 105). -/
def State.linkKey (s : State) (port dir : Nat) : BitVec 256 × BitVec 32 :=
  let l := s.link port
  let me := Config.uid.toNat
  let ctx := digestBytes l.thash ++ byUid me l.peerUid (beBytes 8 me) (beBytes 8 l.peerUid) ++
    byUid me l.peerUid (beBytes 1 port) (beBytes 1 l.peerPort) ++ beBytes 1 dir
  let k := match l.eph with
    | some i => kdf (ecdh (s.privKey i) l.peerPub) (ascii "D20 LINK") ctx 288
    | none => []
  (BitVec.ofNat 256 (beNat (k.take 32)), BitVec.ofNat 32 (beNat (k.drop 32)))
/-- Unacknowledged flits up to an ACK leave the replay buffer; once it is empty, flows that waited go on (09 R245, R250). -/
def Link.ack (l : Link) (a : Nat) : Link :=
  if l.replay.any (fun x => x.seq % 65536 = a) then
    let k := (l.replay.takeWhile (fun x => x.seq % 65536 ≠ a)).length + 1
    let gone := (l.replay.take k).map (fun x => x.seq % 65536)
    let rest := l.replay.drop k
    { l with
      replay := rest, ackSeen := a, inFlight := l.inFlight.filter (fun x => !gone.contains x.1)
      leftUpAt := if rest.isEmpty then 0 else l.leftUpAt
      waitFlows := if rest.isEmpty then [] else l.waitFlows
      resendAt := if rest.isEmpty then none else l.resendAt.map (· - k) }
  else l
/-- The sender's credits at an Up transition, from the receiver's occupancy of each VC and, where it states them, its freed
counts (09 R258). -/
def Link.resynced (l : Link) (occ : List Nat) : Link :=
  let vcs := List.range 8
  let new (v : Nat) : Nat := vcPool v - occ.getD v 0
  let diff := (vcs.filter (fun v => l.keyed && sget 0 l.credits v != new v)).length
  { l with
    credits := vcs.foldl (fun m v => sset 0 m v (new v)) []
    credSeen := vcs.foldl (fun m v => sset 0 m v (occ.getD (8 + v) (sget 0 l.credSeen v))) []
    outst := vcs.foldl (fun m v => sset [] m v ((sget [] l.outst v).take (occ.getD v 0))) []
    resync := satAdd 8 l.resync diff }
/-- A port takes up its replay buffer under fresh keys: flits up to the peer's ACK leave it, the others are numbered anew from ACK + 1,
carry the control field of now, and spend a credit of the new ledger when they are sent again (09 R245, R251, R257, R258). -/
def Link.rearmed (l : Link) (a : Nat) : Link :=
  let l := l.ack a
  let base := match l.replay with
    | x :: _ => x.seq % 65536
    | [] => l.txSeq % 65536
  { l with
    replay := l.replay.zipIdx.map (fun e => { e.1 with
      seq := base + e.2, due := true
      flit := { e.1.flit with ack := (l.rxNext + 65535) % 65536, nak := false, eq := 0, cred := sget 0 l.freed e.1.flit.cvc } })
    txSeq := base + l.replay.length, rxNext := l.rxNext % 65536, idleSeq := 0, rxIdle := 0, idleGap := 0
    replaying := false, nakDue := false, nakAt := none, authTimes := [], replayTimes := [], fecAcc := 0, fecBits := 0, rxFec := [], eqIn := [], prioWait := 0
    leftUpAt := if l.replay.isEmpty then 0 else l.leftUpAt
    waitFlows := if l.replay.isEmpty then [] else l.waitFlows
    resendAt := if l.replay.isEmpty then none else some 0 }
/-- What this end states in its training frames: its occupancy and its freed count of each VC, and its ACK. -/
def Link.stated (l : Link) : List Nat :=
  (List.range 8).map (sget 0 l.occ) ++ (List.range 8).map (sget 0 l.freed) ++ [(l.rxNext + 65535) % 65536]
/-- KEYS_INSTALLED: the port goes Up under fresh keys, with its credits initialised from the peer's training frames (occupancy, freed counts
and ACK, as `Link.stated` lists them); what it held is replayed (09 R248, R251, R258). `rsp` shows what this end states (assumption 3). The
margin that LNK_STATUS shows from then on is a free value. -/
def execKeysInstalled (port : Nat) (occ : List Nat) (s : State) : Out :=
  onLink port <|
    let l := s.link port
    if l.state ≠ .keying ∨ !l.accepted then s
    else if l.akOld then (s.enter port .fenced).setCstat port Status.peerRejected
    else if !l.eph.any (fun i => s.deviceServes i Usage.ecdh) then (s.attemptFailed port).setCstat port Status.denied
    else
    let dir := b2n (decide (l.peerUid < Config.uid.toNat))
    let tx := s.linkKey port dir
    let rx := s.linkKey port (1 - dir)
    let s := s.dropEph port
    let (tk, s) := s.split tx.1
    let (rk, s) := s.split rx.1
    let (m, s) := s.fresh
    let l := s.link port
    let l' := l.resynced occ
    let s := s.setLink port { l'.rearmed (occ.getD 16 l.ackSeen) with
      state := .up, accepted := false, keyed := true, attempts := 0, margin := m.toNat % 17
      txKey := tk, txSalt := tx.2, rxKey := rk, rxSalt := rx.2, credSent := l.freed }
    let s := s.answer Status.ok (l.stated.map (BitVec.ofNat 64))
    if l.keyed ∧ (List.range 8).any (fun v => sget 0 l.credits v ≠ sget 0 l'.credits v) then
      s.report (Rec.mk' Status.creditResync Sev.corrected Blk.lnk port)
    else s

/-- TRAINING_TIMEOUT: training or keying not done within 100 ms. -/
def execTrainingTimeout (port : Nat) (s : State) : Out :=
  onLink port (match (s.link port).state with
    | .training | .keying => s.attemptFailed port
    | .retraining => s.enter port .off
    | _ => s)
/-- ENABLE_RETRY: a port in Off tries again, every 1 s until it is fenced. -/
def execEnableRetry (port : Nat) (s : State) : Out :=
  onLink port (if (s.link port).state = .off ∧ s.mon.phase = .ready ∧ s.mon.fabric then s.tryEnable port else s)
/-- What a dead channel does to a port (09 R249). -/
def State.signalLost (s : State) (n : Nat) : State :=
  match (s.link n).state with
  | .training | .keying => s.attemptFailed n
  | .retraining => s.enter n .off
  | .up => s.enter n .retraining
  | _ => s
/-- LOSS_OF_SIGNAL of a lane. -/
def execLossOfSignal (port lane : Nat) (s : State) : Out := onLink port (if lane < 8 then s.signalLost port else s)
/-- LANE_LOSS_OF_LOCK takes its port out of Up (09 R243). -/
def execLaneLossOfLock (port lane : Nat) (s : State) : Out :=
  onLink port (if lane < 8 ∧ (s.link port).state = .up then s.enter port .retraining else s)
/-- NO_FLIT_TIMEOUT: no flit for 1 ms. -/
def execNoFlitTimeout (port : Nat) (s : State) : Out := onLink port (s.signalLost port)

/-! ### Receiving flits (09 R244-R246, R248, R252, R257) -/

/-- The credits of a CRED report (09 R257); the flits that the peer freed are taken to be the oldest it held (assumption 108). -/
def Link.cred (l : Link) (vc c : Nat) : Link :=
  let k := (c + 65536 - sget 0 l.credSeen vc) % 65536
  { l with credits := sset 0 l.credits vc (sget 0 l.credits vc + k), credSeen := sset 0 l.credSeen vc c,
           outst := sset [] l.outst vc ((sget [] l.outst vc).drop k) }
/-- Events of the last 1 ms, this one included. -/
def recent (now : Nat) (l : List Nat) : List Nat := now :: l.filter (fun t => now < t + 1000000)
/-- A flit is discarded: later ones are too until the replay arrives, and NAK answers it (09 R245). -/
def Link.discardFlit (l : Link) : Link := { l with replaying := true, nakDue := true }
/-- The receiver's taps after the sign-sign LMS steps of a codeword's corrected symbols: tap d looks d symbols back (09 R252; assumption
109). They are in force from the next codeword on. -/
def Link.adapt (l : Link) (errs : List (List Int)) (cw : List Nat) : Link :=
  { l with rxTaps := l.rxTaps.zipIdx.map (fun e => e.1 + lmsStep errs (dealLanes cw) e.2) }
/-- The value of a codeword's message symbols, as `Link.code` takes them from the stream. -/
def symsValue (msg : List Nat) : Nat := msg.foldr (fun x a => x % 1024 + 1024 * a) 0
/-- A codeword received: its lanes put right, up to 15 symbols corrected, and its message held for the flits it carries (09 R242, R243). It is
counted once, as corrected or as uncorrectable (09 R273). -/
def Link.takeCodeword (l : Link) (rx : FlitRx) : Link :=
  match rsDecode (gatherLanes l.laneRev l.laneInv rx.lanes) with
  | none => { l with uncorr := satAdd 16 l.uncorr 1, rxFec := l.rxFec ++ [(false, 10 * rsMsg, 0)] }
  | some (cw, n) =>
    { l.adapt rx.errs cw with
      corr := if n = 0 then l.corr else satAdd 32 l.corr 1, rxFec := l.rxFec ++ [(true, 10 * rsMsg, symsValue (cw.take rsMsg))] }
/-- The next n bits that the codewords hold, with whether all of them could be corrected, and what is left; none where they do not hold so
many. -/
def takeBits : Nat → List (Bool × Nat × Nat) → Option (Bool × Nat × List (Bool × Nat × Nat))
  | _, [] => none
  | n, (ok, b, v) :: r =>
    if n ≤ b then some (ok, v % 2 ^ n, if n = b then r else (ok, b - n, v / 2 ^ n) :: r)
    else (takeBits (n - b) r).map (fun x => (ok && x.1, v + 2 ^ b * x.2.1, x.2.2))
/-- A step of the transmitter's taps that a received EQ field asks for: it waits for the end of the codeword that is being sent (09 R252;
assumption 109). -/
def Link.tapAsked (l : Link) (eq : Nat) : Link :=
  if eq = 0 then l else if l.fecBits = 0 then { l with txTaps := Config.tapStep eq l.txTaps } else { l with eqIn := l.eqIn ++ [eq] }
/-- The round trip that a replay takes at most, in ns (09 R245). -/
def replayTrip : Nat := 1500
/-- A NAK starts a replay from ACK + 1; one that repeats the request of the replay under way, within its round trip, does not
(assumption 106). -/
def Link.nakStarts (l : Link) (now ack : Nat) : Bool :=
  match l.nakAt with
  | some (a, t) => !(a == ack && decide (now < t + replayTrip))
  | none => true

/-- FLIT_RECEIVE: the codeword that completes the flit, where one was still to come, is decoded; a flit any of whose codewords was
uncorrectable, that fails authentication or is out of order is discarded; else its ACK, CRED, NAK and EQ take effect (09 R242-R246, R252, R257).
-/
def execFlitReceive (port : Nat) (rx : FlitRx) (s : State) : Out :=
  onLink port <|
    let l := s.link port
    if l.state ≠ .up then s else
    let l := if rx.lanes.isEmpty then l else l.takeCodeword rx
    match takeBits 2048 l.rxFec with
    | none => s.setLink port l
    | some (false, _, rest) => s.setLink port { l.discardFlit with rxFec := rest, idleGap := l.idleGap + 1 }
    | some (true, v, rest) =>
      let l := { l with rxFec := rest }
      match l.openFlit (leBytes 256 v) with
      | none =>
        let ts := recent s.tim.up l.authTimes
        let s := s.setLink port { l.discardFlit with authf := satAdd 8 l.authf 1, authTimes := ts, idleGap := l.idleGap + 1 }
        if ts.length < 16 then s
        else (s.enter port .retraining).report (Rec.mk' Status.linkAuth Sev.corrected Blk.lnk port)
      | some (x, seq) =>
        let l := if x.idle then { l with rxIdle := seq + 1, idleGap := 0 } else l
        if x.seq ≠ (if x.idle then (l.rxNext + 65535) % 65536 else l.rxNext % 65536) then s.setLink port l.discardFlit
        else
          let l := if x.idle then { l with replaying := false, nakDue := false } else
            { l with rxNext := l.rxNext + 1, replaying := false, nakDue := false, rxAckDue := true,
                     occ := sset 0 l.occ rx.vc (sget 0 l.occ rx.vc + 1) }
          let l := ((l.ack x.ack).cred x.cvc x.cred).tapAsked x.eq
          if !x.nak ∨ !l.nakStarts s.tim.up x.ack then s.setLink port l
          else
            let ts := recent s.tim.up l.replayTimes
            let s := s.setLink port { l with
              replays := satAdd 16 l.replays 1, replayTimes := ts, nakAt := some (x.ack, s.tim.up)
              resendAt := if l.replay.isEmpty then none else some 0 }
            if ts.length < 64 then s else s.enter port .retraining

/-! ### The egress schedule (09 R257, R266) -/

/-- The assignment of a slot of the cycle: a tenancy and SEALED. -/
def Link.slotAt (l : Link) (i : Nat) : Nat × Bool := sget (0, false) l.slots i
/-- The Sealed tenancy that a packet belongs to at a port, 0 for Pooled traffic. -/
def Link.ownerOf (l : Link) (p : Packet) : Nat :=
  let c := p.tag % 65536
  if (List.range 64).any (fun i => l.slotAt i = (c, true)) then c else 0
/-- Flits of each DATA and RED pool that an owner's slots own: 12 a slot. -/
def Link.share (l : Link) (owner : Nat) : Nat :=
  12 * ((List.range 64).filter (fun i => if owner = 0 then !(l.slotAt i).2 else l.slotAt i = (owner, true))).length
/-- The next flit of a packet has a credit, and one of its owner's share. -/
def Link.maySend (l : Link) (p : Packet) : Bool :=
  decide (0 < sget 0 l.credits p.vc) &&
    (decide (4 ≤ p.vc) || decide ((sget [] l.outst p.vc).count (l.ownerOf p) < l.share (l.ownerOf p)))
/-- The queued packets that may send their next flit: the oldest of a VC and owner. -/
def Link.ready (l : Link) : List Nat :=
  (List.range l.txq.length).filter (fun i => match l.txq[i]? with
    | some e => !(l.txq.take i).any (fun f => f.pkt.vc = e.pkt.vc ∧ l.ownerOf f.pkt = l.ownerOf e.pkt) && l.maySend e.pkt
    | none => false)
/-- The first ready packet that passes a test. -/
def Link.pick (l : Link) (f : Packet → Bool) : Option Nat :=
  l.ready.find? (fun i => match l.txq[i]? with
    | some e => f e.pkt
    | none => false)
/-- The packet whose flit takes the next flit time: SYNC or MGMT, at most one flit in eight; else what the slot is for, a Pooled slot in
round robin by VC. None where the slot stays idle. -/
def Link.nextOf (l : Link) : Option Nat :=
  let first := if l.prioWait = 0 then l.pick (fun p => decide (4 ≤ p.vc)) else none
  match first, l.slotAt l.slotNext with
  | some i, _ => some i
  | none, (t, true) => l.pick (fun p => decide (p.vc < 4) && l.ownerOf p == t)
  | none, (_, false) =>
    (List.range 4).findSome? (fun k => l.pick (fun p => p.vc == (l.rrNext + k) % 4 && l.ownerOf p == 0))
/-- The VC whose count the next control field carries: the next whose count has changed since it was reported, and where none has, the
next (09 R257). -/
def Link.credVc (l : Link) : Nat :=
  let vs := (List.range 8).map (fun k => (l.cvcNext + k) % 8)
  (vs.find? (fun v => sget 0 l.freed v != sget 0 l.credSent v)).getD (l.cvcNext % 8)
/-- The control field of the next flit but for its sequence number, and the port after it. -/
def Link.control (l : Link) : Flit × Link :=
  let v := l.credVc
  ({ seq := 0, ack := (l.rxNext + 65535) % 65536, cvc := v, sop := false, nak := l.nakDue, idle := false, cred := sget 0 l.freed v,
     eq := l.eqDue, body := [] },
   { l with cvcNext := (v + 1) % 8, credSent := sset 0 l.credSent v (sget 0 l.freed v), nakDue := false, rxAckDue := false, eqDue := 0 })
/-- A flit time passes in the cycle; `prio`: a SYNC or MGMT flit took it. -/
def Link.slotPast (l : Link) (prio : Bool) : Link := { l with slotNext := (l.slotNext + 1) % 64, prioWait := if prio then 7 else l.prioWait - 1 }
/-- A flit of a packet spends a credit (09 R257, R266). -/
def Link.spend (l : Link) (vc owner : Nat) : Link :=
  { l with credits := sset 0 l.credits vc (sget 0 l.credits vc - 1), outst := sset [] l.outst vc (sget [] l.outst vc ++ [owner]) }
/-- One data flit of the i-th queued packet. -/
def Link.sendFlit (l : Link) (i : Nat) (e : TxEnt) : Flit × Link :=
  let c := l.control
  let body := slice (Packet.bytes e.pkt) (232 * e.sent) 232
  let x := { c.1 with seq := l.txSeq % 65536, sop := e.sent == 0, body := body ++ List.replicate (232 - body.length) 0 }
  let last := decide (pktFlits e.pkt ≤ e.sent + 1)
  let l' := (c.2.slotPast (decide (4 ≤ e.pkt.vc))).spend e.pkt.vc (l.ownerOf e.pkt)
  (x, { l' with
    txSeq := l.txSeq + 1, replay := l.replay ++ [⟨l.txSeq, x, e.pkt.vc, l.ownerOf e.pkt, false⟩]
    rrNext := if e.pkt.vc < 4 ∧ !(l.slotAt l.slotNext).2 then (e.pkt.vc + 1) % 4 else l.rrNext
    txq := if last then l.txq.eraseIdx i else l.txq.set i { e with sent := e.sent + 1, holds := false }
    inFlight := if last then l.inFlight ++ [(l.txSeq % 65536, { e with sent := 0, holds := false })] else l.inFlight })
/-- An idle flit carries the last SEQ sent. -/
def Link.sendIdle (l : Link) : Flit × Link :=
  let c := l.control
  ({ c.1 with seq := (l.txSeq + 65535) % 65536, idle := true, body := List.replicate 232 0 },
   { c.2.slotPast false with idleSeq := l.idleSeq + 1 })
/-- A flit of the replay buffer is sent again as it was, and spends a credit where it is due (09 R245, R258). -/
def Link.sendAgain (l : Link) (i : Nat) (x : Sent) : Flit × Link :=
  let l' := if x.due then l.spend x.vc x.owner else l
  (x.flit, { l'.slotPast false with
    replay := l.replay.set i { x with due := false }, resendAt := if i + 1 < l.replay.length then some (i + 1) else none })
/-- The next flit of a port that is Up, with its extended sequence number: a replayed one, a flit of a packet, or an idle flit. A full
replay buffer stops new flits (09 R245). -/
def Link.transmit (l : Link) : (Flit × Nat) × Link :=
  let idle := ((l.sendIdle.1, l.idleSeq), l.sendIdle.2)
  match l.resendAt, l.resendAt.bind (fun i => l.replay[i]?) with
  | some i, some x =>
    if x.due ∧ sget 0 l.credits x.vc = 0 then idle
    else (((l.sendAgain i x).1, x.seq), (l.sendAgain i x).2)
  | _, _ =>
    let next := if l.replay.length < 1024 then l.nextOf else none
    match next, next.bind (fun i => l.txq[i]?) with
    | some i, some e => (((l.sendFlit i e).1, l.txSeq), (l.sendFlit i e).2)
    | _, _ => idle

/-- A packet that diapause discards: its credits are returned, and it is counted (16 R435). -/
def State.sleepDrop (s : State) (b : Buffered) : State :=
  { s.freeFlits b with pwr := { s.pwr with drops := satAdd 16 s.pwr.drops 1 } }
/-- The queued packets of a port that have sent nothing and that diapause does not forward, or that fail the checks of 09 R264 and R265 now,
are discarded. -/
def State.purgeTxq (s : State) (n : Nat) : State :=
  ((s.link n).txq.filter (fun e => e.sent = 0)).foldl (fun s e =>
    let gone (s : State) : State := s.setLink n { s.link n with txq := (s.link n).txq.erase e }
    if s.pwr.sleep = .diapause ∧ e.pkt.typ < 6 then gone (if e.holds then s.sleepDrop e.was else s)
    else if e.holds then (match s.checkPkt e.was with
      | some t => gone t
      | none => s)
    else if s.pktStale e.pkt ∨ s.pktAged e.pkt then gone s else s) s
/-- The buffer that the queued packet which sends its first flit holds. -/
def Link.freedBy (l l' : Link) : Option Buffered :=
  (l.txq.find? (fun e => e.sent = 0 ∧ e.holds ∧ !l'.txq.contains e)).map (·.was)

/-- FLIT_TRANSMIT: `rsp` shows the control word, the encrypted body and tag, and what the lanes send of the codeword that the flit fills
(assumption 3). A packet that sends its first flit leaves its receive buffer. Before a sequence count reaches 2^62 the port retrains
(09 R248, R249). -/
def execFlitTransmit (port : Nat) (s : State) : Out :=
  onLink port <|
    if (s.link port).state ≠ .up then s
    else if 2 ^ 62 ≤ (s.link port).txSeq + 2 ∨ 2 ^ 62 ≤ (s.link port).idleSeq + 2 then s.enter port .retraining
    else
      let s := s.purgeTxq port
      let l := s.link port
      let x := l.transmit
      let bytes := x.2.seal x.1.1 x.1.2
      let c := x.2.code bytes
      let s := s.setLink port c.2
      let s := match l.freedBy x.2 with
        | some b => s.freeFlits b
        | none => s
      { s with rsp := { status := 0, words := [BitVec.ofNat 64 (flitWord x.1.1)], bytes := bytes.drop 8, lanes := c.1 } }

/-! ### Flows and signals (09 R250, R252, R253; 18 R474) -/

/-- TX_TAP_STEP: at most one step request per 1 ms rides on the next flit (09 R252). -/
def execTxTapStep (port stp : Nat) (s : State) : Out :=
  onLink port <|
    let l := s.link port
    let ok : Bool := match l.tapAt with
      | some t => decide (t + 1000000 ≤ s.tim.up)
      | none => true
    if l.state = .up ∧ ok then s.setLink port { l with eqDue := stp % 256, tapAt := some s.tim.up } else s

/-- LINK_MARGIN: over 1 s, more than one codeword in 10^6 needed 8 or more corrections (09 R253). -/
def execLinkMargin (port heavy total : Nat) (s : State) : Out :=
  onLink port (if (s.link port).state = .up ∧ total < heavy * 1000000 then
    s.report (Rec.mk' Status.linkMargin Sev.corrected Blk.lnk port) else s)

/-- CABLE_PRESENT: the port reads the cable's identity and switches the cable supply, limited to what its kind may draw (18 R474). -/
def execCablePresent (port : Nat) (cable : Cable) (s : State) : Out :=
  onLink port (s.setLink port { s.link port with cable, cv33 := cablePower port cable })

end Sys2Proof.Machine
end

