-- ==== Sys2Proof/Machine/Headworks.lean ====
section
/-! DEFINITION. The headworks (09 R255-R270; 16 R435): PACKET_ARRIVAL, PACKET_EGRESS, FABRIC_TILE_ARRIVAL, RCRED_ARRIVAL,
FLOW_MOVE_TIMEOUT, FAILURE_REPORT, HEARTBEAT_MISS, ROUTE_TABLES_COMPUTED, ROUTE_PACKET, ROUTE_COMMIT, MGMT_RESEND. -/

namespace Sys2Proof.Machine

/-! ### Arrival (09 R255, R263; 16 R435) -/

/-- A packet is addressed to this module: a relay has no coordinate (09 R241, R267). -/
def State.isMine (s : State) (dst : Nat) : Bool :=
  match s.hwk.coord with
  | some c => dst == c
  | none => s.hwk.role != .spare && dst == coordOf s.hwk.pos
/-- Key of a pair of source and destination modules. -/
def pairKey (p : Packet) : Nat := p.src + 8192 * p.dst
/-- How far the POS of a SYNC packet lies ahead of the next that its pair passes on, modulo 2^32 (09 R263). -/
def State.syncAhead (s : State) (p : Packet) : Nat := (p.pos + 2 ^ 32 - sget 0 s.hwk.syncSeen (pairKey p)) % 2 ^ 32
/-- The copy of a SYNC packet has been passed on, or waits (09 R263). -/
def State.syncDup (s : State) (p : Packet) : Bool :=
  decide (2 ^ 31 ≤ s.syncAhead p) || s.hwk.bufs.any (fun b => b.pkt.typ == 4 && pairKey b.pkt == pairKey p && b.pkt.pos == p.pos)
/-- A POS of a pair has passed this headworks, or never will (09 R263). -/
def State.syncPast (s : State) (p : Packet) : State :=
  if p.typ = 4 ∧ s.syncAhead p < 2 ^ 31 then
    { s with hwk := { s.hwk with syncSeen := sset 0 s.hwk.syncSeen (pairKey p) ((p.pos + 1) % 2 ^ 32) } }
  else s
/-- Units of 4,096 ns that a SYNC packet waits at most for one before it: 10 ms (assumption 111). -/
def syncWait : Nat := 2442
/-- A SYNC packet waits for one before it, which is here or may still come (09 R263). -/
def State.syncEarly (s : State) (p : Packet) : Bool :=
  let a := (s.birth + 2 ^ 32 - p.birth % 2 ^ 32) % 2 ^ 32
  p.typ == 4 && decide (0 < s.syncAhead p ∧ s.syncAhead p < 2 ^ 31) &&
    (decide (a < syncWait ∨ 2 ^ 31 ≤ a) || s.hwk.bufs.any (fun c => c.pkt.typ == 4 && pairKey c.pkt == pairKey p &&
      decide (0 < (p.pos + 2 ^ 32 - c.pkt.pos) % 2 ^ 32 ∧ (p.pos + 2 ^ 32 - c.pkt.pos) % 2 ^ 32 < 2 ^ 31)))
/-- Diapause lets a packet through (16 R435). -/
def State.sleepPasses (s : State) (p : Packet) : Bool := decide (6 ≤ p.typ) || (p.typ == 4 && s.isMine p.dst)

/-- PACKET_ARRIVAL: a packet is taken whole at a port that is Up, checked, and buffered. -/
def execPacketArrival (port : Nat) (pkt : Packet) (s : State) : Out :=
  onLink port <|
    let b : Buffered := ⟨pkt, port, false⟩
    if (s.link port).state ≠ .up then s
    else if pktMalformed pkt then (s.dropPkt b .malformed).malformedRecord pkt
    else if s.pwr.sleep = .diapause ∧ !s.sleepPasses pkt then
      s.sleepDrop b
    else match s.checkPkt b with
    | some t => if pkt.typ = 4 ∧ s.syncAhead pkt = 0 then t.syncPast pkt else t
    | none =>
      if pkt.typ = 4 ∧ s.syncDup pkt then s.freeFlits b
      else { s with hwk := { s.hwk with bufs := s.hwk.bufs ++ [b] } }

/-! ### Routing (09 R240, R256, R260, R267, R270) -/

/-- What an unlisted coordinate of the route table holds: it is where it was assembled. -/
def noPos : Pos := ⟨0, 0, 31, 0⟩
/-- The key of a column's spare in the route table, for a position of the column (assumption 36). -/
def spareKey (p : Pos) : Nat := 8192 + p.x % 16 + p.y % 16 * 16 + p.d % 2 * 4096
/-- The spare of a position's column (09 R241). -/
def spareOf (p : Pos) : Pos := { p with z := 16 }
/-- The position at which a coordinate, or a column's spare, was assembled (09 R241). -/
def homeOf (c : Nat) : Pos :=
  if c < 8192 then ⟨c % 16, c / 16 % 16, c / 256 % 16, c / 4096 % 2⟩ else ⟨c % 16, c / 16 % 16, 16, c / 4096 % 2⟩
/-- The position that a table gives a coordinate that no module holds (assumption 36). -/
def deadPos (p : Pos) : Pos := { p with z := 30 }
/-- The physical position of a coordinate by a table. -/
def tablePos (tbl : Store Pos) (c : Nat) : Pos := let p := sget noPos tbl c; if p = noPos then homeOf c else p
/-- A table with one entry changed. -/
def putEntry (tbl : Store Pos) (e : RouteEntry) : Store Pos :=
  sset noPos tbl e.coord (if e.phys = homeOf e.coord then noPos else e.phys)
/-- The physical position of a coordinate by the table in force. -/
def State.physOf (s : State) (c : Nat) : Pos := tablePos s.hwk.table c
/-- A position whose module is out of service by a table: routes avoid it (09 R267). -/
def gapIn (tbl : Store Pos) (p : Pos) : Bool := tablePos tbl (if p.z < 16 then coordOf p else spareKey p) != p
/-- The crossing module of a coordinate in a District: the module that holds it, or the column's spare once either District's has moved
(09 R260, R267). -/
def crossIn (tbl : Store Pos) (dst d : Nat) : Pos :=
  let c := dst % 4096
  let home := homeOf (c + 4096 * d)
  if tablePos tbl c = homeOf c ∧ tablePos tbl (c + 4096) = homeOf (c + 4096) then home else spareOf home

/-- A position after a step in one dimension. -/
def posPut (p : Pos) (dim v : Nat) : Pos := if dim = 0 then { p with x := v } else if dim = 1 then { p with y := v } else { p with z := v }
def posGet (p : Pos) (dim : Nat) : Nat := if dim = 0 then p.x else if dim = 1 then p.y else p.z
/-- The way along one ring from a to b passes a gap, the turning point included, the destination not. -/
def blockedIn (tbl : Store Pos) (me dst : Pos) (dim : Nat) (plus : Bool) : Bool :=
  let a := posGet me dim
  let b := posGet dst dim
  let k := if plus then (b + 16 - a) % 16 else (a + 16 - b) % 16
  (List.range k).any (fun i =>
    let q := posPut me dim (if plus then (a + i + 1) % 16 else (a + 32 - (i + 1)) % 16)
    q != dst && gapIn tbl q)
/-- One hop in Z, over the bypass where the next position is a gap (09 R267). -/
def zHopIn (tbl : Store Pos) (me : Pos) (plus : Bool) : Dir :=
  let next := posPut me 2 (if plus then (me.z + 1) % 17 else (me.z + 16) % 17)
  if gapIn tbl next then (if plus then 7 else 8) else if plus then 4 else 5
/-- The Z ring's shorter way to a plane is the positive one. -/
def zPlus (me : Pos) (z : Nat) : Bool := decide ((z + 17 - me.z) % 17 ≤ (me.z + 17 - z) % 17)

/-- Where a packet goes from a module: nowhere, it is there; one hop in a direction, which a detour's hop is marked; or no way is left. -/
inductive Hop where
  | here
  | go (d : Dir) (detour : Bool)
  | stuck
  deriving DecidableEq, Repr

/-- One hop in the X or Y ring, the shorter way or the one that avoids the gap; a ring with no way left is left for the next plane, once
(09 R260, R267, R270). `away`: the packet is on its detour. -/
def ringHop (tbl : Store Pos) (me dst : Pos) (dim : Nat) (away : Bool) : Hop :=
  let a := posGet me dim
  let b := posGet dst dim
  let plus := decide ((b + 16 - a) % 16 ≤ (a + 16 - b) % 16)
  if !blockedIn tbl me dst dim plus then .go (2 * dim + b2n (!plus)) away
  else if !blockedIn tbl me dst dim (!plus) then .go (2 * dim + b2n plus) away
  else if away then .stuck
  else .go (zHopIn tbl me true) true
/-- A packet's next hop toward a position of this District (09 R260, R270). `plane` is the Z plane its X and Y hops belong to, `inDim` the
dimension it came in by. A packet in another plane that has completed a dimension there steps back. -/
def hopIn (tbl : Store Pos) (me : Pos) (plane : Nat) (dst : Pos) (inDim : Option Nat) : Hop :=
  let away := decide (me.z ≠ plane)
  let back := Hop.go (zHopIn tbl me (zPlus me plane)) true
  if me.x ≠ dst.x then ringHop tbl me dst 0 away
  else if me.y ≠ dst.y then (if away ∧ inDim = some 0 then back else ringHop tbl me dst 1 away)
  else if me.z = dst.z then .here
  else if away ∧ (inDim = some 0 ∨ inDim = some 1) then back
  else .go (zHopIn tbl me (zPlus me dst.z)) false
/-- A packet's next hop by a table: in its own District toward its destination, in the other toward the crossing module and over its twin
ports (09 R260). -/
def hopBy (tbl : Store Pos) (me : Pos) (src dst : Nat) (inDim : Option Nat) : Hop :=
  let plane := if src / 4096 % 2 = me.d then (tablePos tbl src).z else me.z
  if dst / 4096 % 2 = me.d then hopIn tbl me plane (tablePos tbl dst) inDim
  else match hopIn tbl me plane (crossIn tbl dst me.d) inDim with
    | .here => .go 6 false
    | h => h
/-- The dimension a packet came in by; none for one of this module. -/
def Buffered.inDim (b : Buffered) : Option Nat := if b.port < 48 then some (dirDim (portDir b.port)) else none
/-- The next hop of a buffered packet by the table in force. -/
def State.hop (s : State) (b : Buffered) : Hop := hopBy s.hwk.table s.hwk.pos b.pkt.src b.pkt.dst b.inDim
/-- A hop crosses its ring's dateline (09 R256). -/
def crosses (me : Pos) (d : Dir) : Bool :=
  match d with
  | 0 => me.x == 15
  | 1 => me.x == 0
  | 2 => me.y == 15
  | 3 => me.y == 0
  | 4 => me.z == 16
  | 5 => me.z == 0
  | 7 => decide (15 ≤ me.z)
  | 8 => decide (me.z ≤ 1)
  | _ => false
/-- A hop travels on the high VC of its class: a detour's, one over the dateline, and those after it in the dimension (09 R256, R270). -/
def highHop (me : Pos) (inDim : Option Nat) (hi : Bool) (d : Dir) (detour : Bool) : Bool :=
  detour || crosses me d || (inDim == some (dirDim d) && hi)
/-- The virtual channel of a packet's next hop (09 R256, R270). -/
def nextVc (me : Pos) (b : Buffered) (d : Dir) (detour : Bool) : Nat :=
  vcLow b.pkt.typ + b2n (highHop me b.inDim (b.pkt.vc == vcLow b.pkt.typ + 1) d detour)

/-! ### Egress (09 R260-R265, R269; 16 R435) -/

/-- The packet an acknowledgement is for: one to its sender with its type and POS. -/
def ackMatches (ack p : Packet) : Bool := p.dst == ack.src && p.typ == ack.flow && p.pos == ack.pos
/-- A packet for this module is handed to its endpoint; ROUTE and MGMT packets are acknowledged (09 R265, R269). -/
def State.handOver (s : State) (b : Buffered) : State :=
  let p := b.pkt
  if (p.dep ≤ 0x10) ∧ s.hwk.role ≠ .active then s.dropPkt b .notReady
  else
    let s := s.freeFlits b
    if pktIsAck p then { s with hwk := { s.hwk with unacked := s.hwk.unacked.filter (fun u => !ackMatches p u.pkt) } }
    else
      let s : State := if p.typ = 6 ∧ p.arg = holdBrokenArg then s.spareFail Status.revoked
        else { s with hwk := { s.hwk with inbox := s.hwk.inbox ++ [p] } }
      if (p.typ = 6 ∨ p.typ = 7) ∧ p.src ≠ s.coord then
        s.sendPacket { noPacket with typ := 6, dst := p.src, dep := 0x11, sep := 0x11, arg := ackArg, flow := p.typ, pos := p.pos }
      else s
/-- A packet queued at a port. -/
def State.queueAt (s : State) (n : Nat) (e : TxEnt) : State := s.setLink n { s.link n with txq := (s.link n).txq ++ [e] }
/-- A packet sent on toward its destination; a SYNC packet on two ports (09 R263). It holds its buffer until its first flit leaves. None
where it waits for a port. -/
def State.forward (s : State) (b : Buffered) (d : Dir) (detour : Bool) : Option State :=
  match s.portFor d b.pkt with
  | none => none
  | some (n, bind) =>
    let p := { b.pkt with vc := nextVc s.hwk.pos b d detour, hops := if b.port < 48 then b.pkt.hops - 1 else b.pkt.hops }
    let s : State := if bind then { s with hwk := { s.hwk with flows := sset 0 s.hwk.flows (flowKey d p) (n + 1) } } else s
    let s := s.queueAt n ⟨0, p, b, !b.again⟩
    let second := if p.typ = 4 ∧ !b.again then s.portFrom (dirPorts d) ((dirPorts d).idxOf n + 1) else none
    let s := match second with | some m => if m = n then s else s.queueAt m ⟨0, p, b, false⟩ | none => s
    some (s.noteUnacked b)
/-- The ARG of an epoch message (assumption 36). -/
def epochArg : Nat := 1
/-- A relay, which no DST names, takes a copy of the ROUTE packets and epoch messages that it sends on (09 R264, R268; assumption 110). -/
def State.relayCopy (s : State) (p : Packet) : State :=
  if s.hwk.role = .spare ∧ (p.typ = 7 ∨ (p.typ = 6 ∧ p.arg = epochArg)) then { s with hwk := { s.hwk with inbox := s.hwk.inbox ++ [p] } }
  else s

/-- PACKET_EGRESS: the packet in a buffer leaves by the table in force, its tag and age checked again; SYNC packets of a pair leave in
POS order (09 R260-R265). In diapause what it does not forward is discarded (16 R435). A packet with no way left stays (assumption 112),
and so does a partial sum that finds no token (10 R287). -/
def execPacketEgress (slot : Nat) (s : State) : Out :=
  .next <|
    match s.hwk.bufs[slot]? with
    | none => s
    | some b =>
      let p := b.pkt
      let out (s : State) : State := { s with hwk := { s.hwk with bufs := s.hwk.bufs.eraseIdx slot } }
      if s.pwr.sleep = .diapause ∧ !s.sleepPasses p then (out s).sleepDrop b else
      if s.syncEarly p then s else
      let t := State.syncPast (out s) p
      match t.checkPkt b with
      | some u => u
      | none =>
        if t.isMine p.dst then (if p.typ = 2 ∧ !t.redupRoom p then s else t.handOver b)
        else match t.hop b with
        | .here => t.dropPkt b .notReady
        | .stuck => s
        | .go d detour => ((t.forward b d detour).map (fun u => u.relayCopy p)).getD s

/-- A queued packet as it goes back to the buffers. -/
def TxEnt.back (e : TxEnt) : Buffered := if e.holds then e.was else { e.was with again := true }
/-- Ten milliseconds have passed since a port left Up with flits unacknowledged (09 R250). -/
def State.mayMove (s : State) (n : Nat) : Bool := (s.link n).leftUpAt != 0 && decide ((s.link n).leftUpAt + 10000000 ≤ s.tim.up + 1)
/-- A packet's next hop, by the table in force, is in another direction than a port's. -/
def State.offRoute (s : State) (n : Nat) (b : Buffered) : Bool :=
  match s.hop b with
  | .go d _ => d != portDir n
  | _ => false
/-- Ten milliseconds after a port left Up, its unacknowledged packets and those that wait at it go back to the buffers, to leave by the table
in force on the direction's other Up ports or in a new direction, and its flows are free to move there (09 R250, R261, R272). Where there is
neither they stay. -/
def State.sendElsewhere (s : State) (n : Nat) : State :=
  if !s.mayMove n then s else
  let l := s.link n
  let other := (dirPorts (portDir n)).any (fun m => m != n && (s.link m).takes)
  let goes (e : TxEnt) : Bool := other || s.offRoute n e.was
  let es := (l.inFlight.map Prod.snd ++ l.txq).filter goes
  let s := s.setLink n { l with
    leftUpAt := if other then 0 else l.leftUpAt, waitFlows := if other then [] else l.waitFlows
    inFlight := l.inFlight.filter (fun x => !s.offRoute n x.2.was), txq := l.txq.filter (fun e => e.sent ≠ 0 || !goes e) }
  { s with hwk := { s.hwk with
    flows := if other then s.hwk.flows.filter (fun e => e.2 ≠ n + 1) else s.hwk.flows
    bufs := s.hwk.bufs ++ es.map (fun e => if e.sent = 0 then e.back else { e.was with again := true }) } }
/-- FLOW_MOVE_TIMEOUT. -/
def execFlowMoveTimeout (port : Nat) (s : State) : Out := onLink port (s.sendElsewhere port)

/-- MGMT_RESEND: a ROUTE or MGMT packet not yet acknowledged is sent again (09 R265). -/
def execMgmtResend (idx : Nat) (s : State) : Out :=
  .next <|
    match s.hwk.unacked[idx]? with
    | none => s
    | some u => { s with hwk := { s.hwk with
        bufs := s.hwk.bufs ++ [⟨{ u.pkt with birth := s.birth }, u.port, false⟩]
        unacked := s.hwk.unacked.set idx { u with sends := u.sends + 1 } } }

/-! ### Fabric runnels (09 R262) -/

/-- The partition of a section is stopped with its image saved: packets for it wait. -/
def State.secFrozen (s : State) (n : Nat) : Bool := match s.secPart n with
  | some p => s.frozen p
  | none => false

/-- The peer value of the end that sent a packet: its module and section. -/
def sentFrom (p : Packet) : Nat := p.src + 65536 * p.sep
/-- A producer's open request at its consumer's headworks (02 R57-R59; 09 R262): it pairs with the Pending consumer end of its runnel,
is refused where the two do not agree, or is held. -/
def State.fabricOpen (s : State) (pkt : Packet) : State :=
  let cid := pkt.tag % 65536
  let r : FabReq := { sec := pkt.dep, cid, rid := pkt.flow, peer := sentFrom pkt, fmt := bits pkt.arg 8 8 }
  let hold : State := { s with hwk := { s.hwk with fopens := s.hwk.fopens ++ [r] } }
  match s.findFabric pkt.dep pkt.flow cid true with
  | none => hold
  | some (c, q) =>
    let h := (s.core c).handle q
    if h.state ≠ .pending then hold
    else if h.peer ≠ r.peer ∨ h.fmt ≠ r.fmt then
      s.sendPacket { noPacket with typ := 5, tag := pkt.tag, dst := pkt.src, dep := pkt.sep, sep := pkt.dep, flow := pkt.flow, arg := rcRefuse }
    else s.openFabricPair c q
/-- The end marker stands after the tiles before the packet's POS (02 R59). -/
def State.fabricMark (s : State) (pkt : Packet) : State :=
  match s.findFabric pkt.dep pkt.flow (pkt.tag % 65536) true with
  | some (c, q) =>
    let k := s.core c
    let h := k.handle q
    if h.state = .opened ∧ h.peer = sentFrom pkt then s.setCore c (k.setHandle q { h with mark := some pkt.pos }) else s
  | none => s
/-- A request withdrawn: one that is held goes; a consumer that is Open already meets an end marker (assumption 23). -/
def State.fabricWithdraw (s : State) (pkt : Packet) : State :=
  let cid := pkt.tag % 65536
  match takeFirst (fun r : FabReq => decide (r.sec = pkt.dep ∧ r.cid = cid ∧ r.rid = pkt.flow ∧ r.peer = sentFrom pkt)) s.hwk.fopens with
  | some (_, rest) => { s with hwk := { s.hwk with fopens := rest } }
  | none => s.fabricMark pkt

/-- FABRIC_TILE_ARRIVAL: a TILE lands in slot POS mod depth of its runnel's ring, and a second copy is discarded (09 R262); one without
payload is what the producer asks for (assumption 22). -/
def execFabricTileArrival (pkt : Packet) (s : State) : Out :=
  .next <|
    if s.secFrozen pkt.dep ∨ 9 < pkt.dep then s else
    let t := s.takeInbox pkt
    if pkt.payload.isEmpty then
      if pkt.arg % 256 = ctlOpen then t.fabricOpen pkt
      else if pkt.arg % 256 = ctlMark then t.fabricMark pkt
      else t.fabricWithdraw pkt
    else
    match s.findFabric pkt.dep pkt.flow (pkt.tag % 65536) true with
    | none => t
    | some (c, q) =>
      let h := (s.core c).handle q
      let key := ringKey c q (pkt.pos % h.depth)
      if h.state ≠ .opened ∨ 2 ^ 31 ≤ (pkt.pos + 2 ^ 32 - h.pos) % 2 ^ 32 ∨ (sget (0, noPacket) s.hwk.rings key).1 = 1 then t
      else { t with hwk := { t.hwk with rings := sset (0, noPacket) t.hwk.rings key (1, pkt) } }

/-- The consumer's end is unbound: the close of a Closing producer end has its acknowledgement, an Open one goes to Unbound (02 R59). The
ledger of a runnel that closes is audited: every credit has come back (09 R262, 02 R62). -/
def State.fabricGone (s : State) (c q : Nat) : State :=
  let k := s.core c
  let h := k.handle q
  let t := s.setCore c ((k.setHandle q {}).rcloseDone h.stn q)
  if h.state = .closing ∧ h.credits ≠ h.depth then
    t.report (Rec.mk' Status.integrity Sev.devFatal Blk.sec (coreSec c) (s.partOf c) (unitLoc c h.stn))
  else t

/-- RCRED_ARRIVAL: what the consumer's headworks tells the producer's end: a credit, the acknowledgement of its open, that the consumer
is unbound, or that its request does not pair (09 R262; 02 R57-R59; assumption 22). -/
def execRcredArrival (pkt : Packet) (s : State) : Out :=
  .next <|
    if s.secFrozen pkt.dep then s else
    let t := s.takeInbox pkt
    match s.findFabric pkt.dep pkt.flow (pkt.tag % 65536) false with
    | none => t
    | some (c, q) =>
      let k := s.core c
      let h := k.handle q
      let n := bits pkt.arg 8 24
      let kind := pkt.arg % 256
      if h.state = .pending then
        if kind = rcOpen then t.setCore c (k.setHandle q { h with state := .opened, credits := n, depth := n })
        else if kind = rcRefuse then t.setCore c ((k.setHandle q {}).fault Status.state .scalar h.opc h.oseq)
        else t
      else if kind = rcCredit then t.setCore c (k.setHandle q { h with credits := h.credits + n })
      else if kind = rcGone then t.fabricGone c q
      else t

/-! ### Failures and redraw (09 R267, R268; 15 R410; 17 R456; 18 R483) -/

/-- The position of this module's twin (09 R240). -/
def State.twinPos (s : State) : Pos := { s.hwk.pos with d := 1 - s.hwk.pos.d }
/-- The module that holds the twin of this module's coordinate: by the table in force, else the one at the same place of the other District (09
R240, R267). -/
def State.twinHolder (s : State) : Pos := match s.hwk.coord with
  | some c => tablePos s.hwk.table (twinOf c)
  | none => s.twinPos
/-- A failed module is known here: the route master begins a redraw, and a spare that loses its twin fails (15 R410). -/
def State.knowFailed (s : State) (p : Pos) : State :=
  let s := if p = s.twinHolder then s.spareFail Status.linkDown else s
  { s with hwk := { s.hwk with
    failed := if s.hwk.failed.contains p then s.hwk.failed else s.hwk.failed ++ [p], computing := s.hwk.computing || s.hwk.master } }
/-- The coordinate that a table gives a position, of those of its column. -/
def coordAt (tbl : Store Pos) (p : Pos) : Option Nat :=
  ((List.range 16).map (fun z => coordOf { p with z })).find? (fun c => tablePos tbl c = p)
/-- The payload of a failure report (assumption 36). -/
def failPayload (p : Pos) : List Byte := leBytes 2 (coordOf p) ++ leBytes 1 p.z ++ List.replicate 29 0
/-- A failure reported to the route master on MGMT (09 R268). -/
def State.sendReport (s : State) (p : Pos) : State :=
  match s.hwk.master, s.hwk.masterAt with
  | false, some m => s.sendPacket { noPacket with
      typ := 6, dst := (coordAt s.hwk.table m).getD (coordOf m), dep := 0x11, sep := 0x11, arg := 3, payload := failPayload p }
  | _, _ => s
/-- A failed module is known and reported. -/
def State.reportFailed (s : State) (p : Pos) : State := (s.knowFailed p).sendReport p

/-- FAILURE_REPORT. -/
def execFailureReport (pos : Pos) (s : State) : Out :=
  .next <|
    let s := match s.hwk.inbox.find? (fun p => p.typ = 6 ∧ p.arg = 3 ∧ p.payload = failPayload pos) with
      | some p => s.takeInbox p
      | none => s
    s.knowFailed pos
/-- HEARTBEAT_MISS: three heartbeats of a module missed. -/
def execHeartbeatMiss (pos : Pos) (s : State) : Out := .next (s.reportFailed pos)

/-! ### The redraw (09 R267, R268, R270) -/

/-- What the failure of one module changes in a table: its coordinate goes to the column's spare, where that is sound and holds none; a
coordinate with no spare left is held by no module (09 R267). -/
def redrawOne (failed : List Pos) (tbl : Store Pos) (p : Pos) : List RouteEntry :=
  let spare := spareOf p
  let free := !gapIn tbl spare && (coordAt tbl spare).isNone && !failed.contains spare
  (match coordAt tbl p with
    | some c => [⟨c, if free then spare else deadPos p⟩]
    | none => []) ++ (if p.z = 16 then [⟨spareKey p, deadPos p⟩] else [])
/-- The changes for every failed module, one after the other. -/
def redrawFrom (failed : List Pos) : List Pos → Store Pos → List RouteEntry
  | [], _ => []
  | p :: r, tbl =>
    let es := redrawOne failed tbl p
    es ++ redrawFrom failed r (es.foldl putEntry tbl)

/-- A channel of the District: the module that sends, the direction, and the VC of the class. -/
structure Chan where
  pos : Pos
  dir : Dir
  hi : Bool
  deriving DecidableEq, Repr
/-- A packet on its way: the module it is at, the dimension it came in by, and the channel. -/
structure Walk where
  pos : Pos
  inDim : Option Nat
  last : Option Chan
  deriving DecidableEq, Repr
/-- The neighbour in a direction (09 R240). -/
def nextPos (p : Pos) (d : Dir) : Pos :=
  match d with
  | 0 => { p with x := (p.x + 1) % 16 }
  | 1 => { p with x := (p.x + 15) % 16 }
  | 2 => { p with y := (p.y + 1) % 16 }
  | 3 => { p with y := (p.y + 15) % 16 }
  | 4 => { p with z := (p.z + 1) % 17 }
  | 5 => { p with z := (p.z + 16) % 17 }
  | 6 => { p with d := 1 - p.d }
  | 7 => { p with z := (p.z + 2) % 17 }
  | _ => { p with z := (p.z + 15) % 17 }
/-- A packet's walk by one hop of a table. -/
def Walk.hop (w : Walk) (tbl : Store Pos) (src dst : Nat) : Option Walk :=
  match hopBy tbl w.pos src dst w.inDim with
  | .go d detour =>
    let hi := highHop w.pos w.inDim ((w.last.map (·.hi)).getD false) d detour
    some ⟨nextPos w.pos d, some (dirDim d), some ⟨w.pos, d, hi⟩⟩
  | _ => none
/-- The dependencies between channels of a packet's ways, each hop by any of the tables; n hops are left. -/
def waysFrom (tbls : List (Store Pos)) (src dst : Nat) : Nat → List Walk → List (Chan × Chan)
  | 0, _ => []
  | n + 1, ws =>
    let steps := (ws.map (fun w => tbls.filterMap (fun t => (w.hop t src dst).map (fun v => (w.last, v))))).flatten
    steps.filterMap (fun e => match e.1, e.2.last with
      | some a, some b => some (a, b)
      | _, _ => none) ++ waysFrom tbls src dst n (steps.map Prod.snd).dedup
/-- No cycle: what leads nowhere is taken away until nothing is left; n bounds the rounds. -/
def acyclicFrom : Nat → List (Chan × Chan) → Bool
  | 0, l => l.isEmpty
  | n + 1, l =>
    let rest := l.filter (fun e => l.any (fun f => f.1 = e.2))
    if rest.length = l.length then l.isEmpty else acyclicFrom n rest
/-- The union of some tables has no cyclic channel dependency, over every source and destination (09 R268). -/
def tablesOk (tbls : List (Store Pos)) : Bool :=
  let all := (List.range 8192).map (fun src => (List.range 8192).map (fun dst =>
    (tbls.map (fun t => tablePos t src)).dedup.map (fun p => waysFrom tbls src dst 64 [⟨p, none, none⟩])))
  let edges := all.flatten.flatten.flatten.dedup
  acyclicFrom (edges.length + 1) edges

/-- The payload of a ROUTE packet (assumption 36), padded to 32 bytes. -/
def routePayload (version time : Nat) (table : List RouteEntry) : List Byte :=
  let l := leBytes 2 version ++ leBytes 8 time ++ leBytes 2 table.length ++
    (table.map (fun e => leBytes 2 e.coord ++ leBytes 1 e.phys.x ++ leBytes 1 e.phys.y ++ leBytes 1 e.phys.z ++ leBytes 1 e.phys.d)).flatten
  l ++ List.replicate (roundUp l.length 32 - l.length) 0
/-- ROUTE packets to the neighbours in the District, each of which passes them on. -/
def State.sendRoute (s : State) (version time : Nat) (table : List RouteEntry) : State :=
  s.neighbours.foldl (fun s n => s.sendPacket { noPacket with
    typ := 7, dst := n, dep := 0x11, sep := 0x11, pos := version, payload := routePayload version time table }) s

/-- The changes that a redraw makes to the table in force. -/
def State.redraw (s : State) : List RouteEntry := redrawFrom s.hwk.failed s.hwk.failed s.hwk.table
/-- ROUTE_TABLES_COMPUTED, at the route master: the tables for the failures collected, checked together with those in force, are sent with a
commit time at least 50 ms ahead, a free value; tables that fail the check leave a record. -/
def execRouteTablesComputed (s : State) : Out :=
  .next <|
    if !s.hwk.master ∨ !s.hwk.computing then s
    else
      let es := s.redraw
      let ok := tablesOk [s.hwk.table, es.foldl putEntry s.hwk.table]
      let s : State := { s with hwk := { s.hwk with computing := false } }
      if !ok then s.report (Rec.mk' Status.redrawFailed Sev.devFatal Blk.hwk 0)
      else
        let (v, s) := s.fresh
        let time := s.tim.now + 50000000 + v.toNat % 2 ^ 31
        let version := ((s.hwk.shadow.map (·.version)).getD s.hwk.version + 1) % 65536
        ({ s with hwk := { s.hwk with shadow := some ⟨version, time, es⟩ } }).sendRoute version time es

/-- ROUTE_PACKET: a newer table is loaded in shadow and passed on. Its acknowledgement left when it was delivered. -/
def execRoutePacket (version time : Nat) (table : List RouteEntry) (s : State) : Out :=
  .next <|
    let s := match s.hwk.inbox.find? (fun p => p.typ = 7 ∧ p.payload = routePayload version time table) with
      | some p => s.takeInbox p
      | none => s
    let cur := (s.hwk.shadow.map (·.version)).getD s.hwk.version
    let ahead := (version + 65536 - cur) % 65536
    if ahead = 0 ∨ 32768 ≤ ahead then s
    else ({ s with hwk := { s.hwk with shadow := some ⟨version, time, table⟩ } }).sendRoute version time table

/-- Every port is told to leave its state for Fenced (17 R456). -/
def State.fencePorts (s : State) : State :=
  (List.range 48).foldl (fun s n => if (s.link n).state = .up then s.setLink n ((s.link n).leaveFor .fenced) else s.enter n .fenced)
    { s with mon := { s.mon with fabric := false }, hwk := { s.hwk with fenceAfterCommit := false } }
/-- What a commit changes for this module: a spare that is given a coordinate prepares to join; a module whose coordinate has moved
is a relay of its column (15 R410; 18 R483). -/
def State.placeSelf (s : State) (e : RouteEntry) : State :=
  if e.phys = s.hwk.pos ∧ s.hwk.role = .spare then
    let s := s.holdLoc
    { s with hwk := { s.hwk with coord := some e.coord, role := .joining, syncSent := [] },
             join := { s.join with phase := .preparing, prepAt := s.tim.up, prog := 0, fstat := 0, created := false, ready := false } }
  else if s.isMine e.coord ∧ e.phys ≠ s.hwk.pos then
    let s := s.holdLoc
    { s with hwk := { s.hwk with coord := none, role := .spare } }
  else s
/-- The packets that wait at the ports and have sent nothing go back to their buffers, to be routed again (09 R268, R272); so does the second
copy of a SYNC packet whose first copy has left, or has another way back. -/
def State.unqueue (s : State) : State :=
  let es := ((List.range 48).map (fun n => (s.link n).txq.filter (fun e => e.sent = 0))).flatten
  let first (e : TxEnt) : Bool := es.any (fun f => f.holds && f.was == e.was)
  let s := (List.range 48).foldl (fun s n => s.setLink n { s.link n with txq := (s.link n).txq.filter (fun e => e.sent ≠ 0) }) s
  { s with hwk := { s.hwk with bufs := s.hwk.bufs ++ (es.filter (fun e => e.holds || !first e)).map TxEnt.back } }
/-- What the pairs of a coordinate's old module have sent is forgotten: the pairs of its new one count from 0 (09 R263; assumption 111). -/
def State.newPairs (s : State) (coord : Nat) : State :=
  { s with hwk := { s.hwk with syncSeen := s.hwk.syncSeen.filter (fun e => e.1 % 8192 ≠ coord) } }
/-- A spare that is given a coordinate is configured with its twin's group entries: with no contributor and no owner until it joins
(10 R277; assumption 114). -/
def State.takeGroups (s : State) (l : List TwinGroup) : State :=
  l.foldl (fun s x =>
    let g := { parseGroup x.record with part := x.part }
    match (List.range 64).find? (fun e => (s.rg e).state = .none) with
    | none => s
    | some e =>
      let s := s.setRg e { g with
        state := .active, step := x.step, expect := x.expect, lostCnt := x.lost, nullC := true, srcs := [], owner := none, gather := [] }
      ({ s with join := { s.join with groups := s.join.groups ++ [(e, g)] } }).runEngine e) s
/-- ROUTE_COMMIT: at fabric time T the table in shadow is in force (09 R268), and the ledgers are audited (09 R259; 10 R297; 11 R327). A
Device-fatal module's ports are fenced from then on
(17 R456). -/
def execRouteCommit (groups : List TwinGroup) (s : State) : Out :=
  .next <|
    match s.hwk.shadow with
    | none => s
    | some x =>
      if s.tim.now < x.time then s else
      let old := s.hwk.table
      let s : State := { s with hwk := { s.hwk with
        version := x.version, shadow := none, table := x.table.foldl putEntry s.hwk.table
        failed := s.hwk.failed.filter (fun p => !gapIn (x.table.foldl putEntry s.hwk.table) p) } }
      let relay := decide (s.hwk.role = .spare)
      let moved := x.table.filter (fun e => tablePos old e.coord ≠ e.phys)
      let s := (moved.map (·.coord)).foldl State.newPairs s.unqueue
      let s := (List.range 48).foldl State.sendElsewhere s
      let s := x.table.foldl State.placeSelf s
      let s := if relay ∧ s.hwk.role = .joining then s.takeGroups groups else s
      let s := s.auditHwk.auditWeirs
      if s.hwk.fenceAfterCommit then s.fencePorts else s

end Sys2Proof.Machine
end

