-- ==== Sys2Proof/Machine/Tdi.lean ====
section
/-! DEFINITION. The TDISP interfaces of the VFs and the resets of the host port (12 R333, R334; 13 R359; 14 R387; 17 R446), and the
attestation report (14 R397): LOCK_INTERFACE, START_INTERFACE, STOP_INTERFACE, IDE_FAIL, IDE_KM_KEY_PROG,
SPDM_GET_MEASUREMENTS, FUNCTION_LEVEL_RESET, HOST_PORT_RESET. -/

namespace Sys2Proof.Machine

/-- The command acts on VF k; PF0 is no TDI. -/
def onTdi (vf : Nat) (s : State) (f : Fn → State) : Out := onFn vf (if vf = 0 then s.answer Status.denied else f (s.fn vf))

/-! ### States of a TDI (12 R334; 13 R359) -/

/-- LOCK_INTERFACE: while the partition exists and its quotas are locked. -/
def execLockInterface (vf : Nat) (s : State) : Out :=
  onTdi vf s (fun x =>
    if x.tdi = .unlocked ∧ (s.part (vf - 1)).state ≠ .free ∧ (s.synPart (vf - 1)).lock then
      (s.setFn vf { x with tdi := .locked }).answer Status.ok
    else s.answer Status.state)
/-- START_INTERFACE: CONFIG_LOCKED goes to RUN. -/
def execStartInterface (vf : Nat) (s : State) : Out :=
  onTdi vf s (fun x => if x.tdi = .locked then (s.setFn vf { x with tdi := .run }).answer Status.ok else s.answer Status.state)
/-- STOP_INTERFACE: every context dies, and the TDI goes back to CONFIG_UNLOCKED once they have. -/
def execStopInterface (vf : Nat) (s : State) : Out :=
  onTdi vf s (fun x => match x.tdi with
    | .locked | .run => (s.leaveRun vf false).answer Status.ok
    | _ => s.answer Status.ok)

/-- The IDE keys of a function are destroyed with its stream (14 R381). -/
def State.dropIde (s : State) (f : Nat) : State :=
  let s := s.dropKeys (s.fn f).ideKeys
  s.setFn f { s.fn f with ideKeys := [] }

/-- IDE_FAIL: an integrity failure on a VF's stream: the TDI goes to ERROR, then the record against its partition, from which the
event follows (12 R333, R354). -/
def execIdeFail (vf : Nat) (s : State) : Out :=
  onTdi vf s (fun x =>
    let s := s.dropIde vf
    let s := if x.tdi = .error then s else s.leaveRun vf false
    if (s.part (vf - 1)).state = .free then s else s.report (Rec.mk' Status.ideFail Sev.partFatal Blk.idn 0 (vf - 1)))

/-- IDE_KM_KEY_PROG: an IDE key into a slot of the partition, by the rules of 14 R387 and R388. -/
def execIdeKmKeyProg (vf slot : Nat) (key : BitVec 256) (s : State) : Out :=
  onTdi vf s (fun _ =>
    let p := vf - 1
    let i := tenantSlot p slot
    if tenantSlots ≤ slot then s.answer Status.bounds
    else if s.mon.phase ≠ .ready ∨ (s.part p).state = .free ∨ (s.vslot i).valid ∨ s.chr.drainsForDebug then s.answer Status.state
    else if (s.part p).state = .draining then s.answer Status.revoked
    else
      let s := s.putKey i key { usage := Usage.ide, owner := p, cid := (s.part p).cid }
      (s.setFn vf { s.fn vf with ideKeys := (s.fn vf).ideKeys ++ [i] }).answer Status.ok)

/-! ### The report (11 R329; 14 R397) -/

/-- SYN_QUOTA0 and SYN_QUOTA1 of a partition. -/
def SynPart.quota0 (x : SynPart) : Nat := x.qFence + place 15 x.qSem + place 29 x.qEvent
def SynPart.quota1 (x : SynPart) : Nat :=
  x.qWeir + place 7 x.qFweir + place 15 x.qRemote + place 28 x.qHwait + place 63 (b2n x.lock)
/-- Slots of the egress schedule that a tenancy owns (09 R266); every port holds the same table. -/
def State.sealedSlots (s : State) (cid : Nat) : Nat :=
  ((List.range 64).filter (fun i => sget (0, false) (s.link 0).slots i = (cid, true))).length
/-- The entry of a partition. PF0 sees neither MEAS nor IKEY. -/
def State.reportEntry (s : State) (pf : Bool) (p : Nat) : List Byte :=
  let x := s.part p
  let y := s.synPart p
  let live := x.state ≠ .free
  let k := if x.member.isSome then sget none s.chr.compacts x.cid else none
  let flags := b2n x.pooled + place 1 (b2n x.d12) + place 2 (b2n x.census) + place 3 (b2n y.lock) + place 4 (b2n (s.isCommons p))
  leBytes 1 p ++ leBytes 1 x.state.code ++ leBytes 2 x.sections ++ leBytes 1 flags ++ leBytes 1 (x.member.getD 0xFF) ++ leBytes 2 x.cid ++
    leBytes 1 (if live then s.epoch x.cid else 0) ++ leBytes 1 x.rgres ++ leBytes 2 x.catchC ++
    leBytes 2 (if live ∧ !x.pooled then s.sealedSlots x.cid else 0) ++ [0, 0] ++
    leBytes 8 ((List.range 64).map (fun r => if (sget {} x.regions r).state = .sealed then 2 ^ r else 0)).sum ++
    leBytes 8 y.quota0 ++ leBytes 8 y.quota1 ++
    (if pf then List.replicate 48 0 else digestBytes x.meas) ++
    (if pf ∨ !(s.vslot (ikSlot p)).valid then List.replicate 96 0 else p384Pub (s.privKey (ikSlot p))) ++
    leBytes 8 ((k.map (·.seq)).getD 0) ++ digestBytes ((k.map (·.cdig)).getD 0) ++ List.replicate 16 0
/-- The report of a function for a nonce, signed by the AK. -/
def State.attest (s : State) (f : Nat) (nonce : List Byte) : List Byte :=
  let n := if f = 0 then 10 else 1
  let head := leBytes 4 0x54505257 ++ leBytes 2 1 ++ leBytes 2 n ++ leBytes 4 (320 + 256 * n + 96) ++ leBytes 1 f ++ s.chr.lcBytes ++
    leBytes 8 Config.uid.toNat ++ s.chr.fuseBytes ++ leBytes 8 s.tim.now ++ nonce ++ s.chr.fwBytes ++ List.replicate 32 0
  let body := if f = 0 then ((List.range 10).map (s.reportEntry true)).flatten else s.reportEntry false (f - 1)
  head ++ body ++ ecdsaSign (s.privKey akSlot) (sha384 (head ++ body))
/-- The status of a request for a report or certificates: a DIK must exist, the module serve it, and the vault let AK sign (14 R378, R383; 17
R461). -/
def State.attestStatus (s : State) : Nat :=
  if (s.mon.phase ≠ .ready ∧ s.mon.phase ≠ .fatal) ∨ s.chr.lcs = .blank ∨ s.chr.lcs = .endOfLife then Status.state
  else if !s.deviceServes akSlot Usage.sign then Status.denied else Status.ok

/-- SPDM_GET_MEASUREMENTS: the report of the requesting VF as measurement block 0x10. -/
def execSpdmGetMeasurements (vf : Nat) (nonce : Digest) (s : State) : Out :=
  onFn vf (if s.attestStatus = Status.ok then s.answer Status.ok [] (s.attest vf (digestBytes nonce)) else s.answer s.attestStatus)

/-! ### Resets (17 R446) -/

/-- Queues with no context of a function are gone; those of a dying context end with its death sequence (12 R352). -/
def State.dropQueues (s : State) (f : Nat) : State :=
  let x := s.fn f
  let s := s.dropWaits (fun w => match w with
    | .host g q => g == f && (s.queue f q).ctx.isNone
    | _ => false)
  s.setFn f { x with queues := x.queues.filter (fun e => e.2.ctx.isSome), aqSqb := 0, aqCqb := 0, aqSqLog := 0, aqCqLog := 0, aqVec := 0,
                     aqEn := false, mbox := {}, irqs := [] }

/-- FUNCTION_LEVEL_RESET of a VF: as 12 R334 has it, and its queue 0 and registers are at reset. -/
def execFunctionLevelReset (vf : Nat) (s : State) : Out :=
  onTdi vf s (fun x =>
    let s := if x.tdi = .locked ∨ x.tdi = .run then s.leaveRun vf false else s
    s.dropQueues vf)

/-- One VF at a host port reset: its TDI goes back to CONFIG_UNLOCKED, once the contexts that die are gone; in Fatal too (17 R446, R461). -/
def State.hostResetVf (s : State) (f : Nat) : State :=
  let s := if (s.fn f).tdi = .locked ∨ (s.fn f).tdi = .run then s.leaveRun f false else s
  let s := (s.dropIde f).dropQueues f
  if s.ctxsFree f then s.setFn f { s.fn f with tdi := .unlocked } else s.setFn f { s.fn f with portReset := true }
/-- HOST_PORT_RESET: every function's queues, doorbells and IDE streams; every context dies, and every TDI goes back to
CONFIG_UNLOCKED. Before Ready and in Safe-Listen only the lanes train again (17 R446, R461). -/
def State.hostReset (s : State) : State :=
  if s.mon.phase ≠ .ready ∧ s.mon.phase ≠ .fatal then s
  else ((List.range 10).map (· + 1)).foldl State.hostResetVf (s.dropQueues 0)
def execHostPortReset (s : State) : Out := .next s.hostReset

end Sys2Proof.Machine
end

