-- ==== Sys2Proof/Machine/Chrysalis.lean ====
section
/-! DEFINITION. The Chrysalis mailbox and vault (13 R366, R367; 14 R377-R397): CHR_GO, CHR_DONE_CLEAR, GET_CERTS, GET_REPORT,
KEY_INSTALL, KEY_DESTROY, SLOT_INFO, COMPACT_LOAD, COMPACT_RETIRE, POLICY_LOAD, CHALLENGE, TOKEN, VAULT_REMASK, TRNG_FAIL. -/

namespace Sys2Proof.Machine

/-! ### The mailbox (14 R390, R391; 17 R461) -/

/-- The mailbox opcodes. -/
def mboxOpcs : List Nat := [0x01, 0x02, 0x03, 0x04, 0x05, 0x10, 0x11, 0x12, 0x20, 0x21]
/-- CHR_GO: the request is submitted; ignored while BUSY or DONE. A reserved opcode is answered at once. -/
def chrGo (fn : Nat) (s : State) : State :=
  let x := s.fn fn
  if x.mbox.busy ∨ x.mbox.done then s
  else
    let s := s.setFn fn { x with mbox := { x.mbox with busy := true } }
    if s.mon.phase = .safeListen then s.mboxAnswer fn Status.state
    else if mboxOpcs.contains x.mbox.opc then s else s.mboxAnswer fn Status.unsupported
def execChrGo (fn : Nat) (s : State) : Out := onFn fn (chrGo fn s)
/-- CHR_DONE_CLEAR: writing 1 to DONE frees the buffers. -/
def chrDoneClear (fn : Nat) (s : State) : State := s.setFn fn { s.fn fn with mbox := { (s.fn fn).mbox with done := false } }
def execChrDoneClear (fn : Nat) (s : State) : Out := onFn fn (chrDoneClear fn s)

/-- Serves the request of a function with an opcode in its turn of the rotation (14 R390); any other mailbox is left as it is (assumption
10). A function that may not send the opcode gets DENIED, a length that does not match it BOUNDS; outside Ready only what `always` names is
served. -/
def onMbox (opc f : Nat) (s : State) (pf vf : Bool) (len : Nat → Bool) (always : Bool) (body : Mailbox → State) : Out :=
  onFn f <|
    let m := (s.fn f).mbox
    if s.mboxNext ≠ some f ∨ m.opc ≠ opc then s
    else if (if f = 0 then !pf else !vf) then s.mboxDone f Status.denied
    else if !len m.len then s.mboxDone f Status.bounds
    else if s.mon.phase ≠ .ready ∧ !always then s.mboxDone f Status.state
    else body m

/-- GET_CERTS. -/
def execGetCerts (fn : Nat) (s : State) : Out :=
  onMbox 0x01 fn s true true (· == 8) true (fun _ =>
    if s.attestStatus = Status.ok then
      s.mboxDone fn Status.ok (Config.flashCerts ++ leBytes 2 s.chr.akCert.length ++ s.chr.akCert)
    else s.mboxDone fn s.attestStatus)
/-- GET_REPORT. -/
def execGetReport (fn : Nat) (s : State) : Out :=
  onMbox 0x02 fn s true true (· == 56) true (fun m =>
    if s.attestStatus = Status.ok then s.mboxDone fn Status.ok (s.attest fn m.body) else s.mboxDone fn s.attestStatus)

/-! ### Tenant keys (14 R383, R387, R388, R395) -/

/-- The context that a key installed by mailbox belongs to: the function's one Open context (assumption 44). -/
def State.soleCtx (s : State) (f : Nat) : Option Nat :=
  match (List.range 16).filter (fun i => (s.ctx f i).state = .opened) with
  | [c] => some c
  | _ => none
/-- KEY_INSTALL. -/
def execKeyInstall (fn : Nat) (s : State) : Out :=
  onMbox 0x03 fn s false true (· == 152) false (fun m =>
    let p := fn - 1
    let b := m.body
    let slot := field b 0 1
    let i := tenantSlot p slot
    if tenantSlots ≤ slot ∨ 1 < field b 2 1 ∨ field b 3 5 ≠ 0 then s.mboxDone fn Status.bounds
    else if s.chr.drainsForDebug then s.mboxDone fn Status.state
    else if (s.part p).state = .draining then s.mboxDone fn Status.revoked
    else if (s.part p).state = .free ∨ (s.vslot i).valid then s.mboxDone fn Status.state
    else if field b 1 1 ≠ Usage.wrap then s.mboxDone fn Status.denied
    else match s.unwrapIk p "D20 KEK" (slice b 8 96) (slice b 104 40) with
    | .error st => s.mboxDone fn st
    | .ok k =>
      (s.putKey i k { usage := Usage.wrap, exportable := field b 2 1 = 1, owner := p, cid := (s.part p).cid, ctx := s.soleCtx fn }).mboxDone fn
        Status.ok)
/-- KEY_DESTROY. -/
def execKeyDestroy (fn : Nat) (s : State) : Out :=
  onMbox 0x04 fn s false true (· == 9) false (fun m =>
    let slot := field m.body 0 1
    let i := tenantSlot (fn - 1) slot
    if tenantSlots ≤ slot then s.mboxDone fn Status.bounds
    else if !(s.vslot i).valid then s.mboxDone fn Status.ok
    else
      let s := s.dropKey i
      (s.setFn fn { s.fn fn with ideKeys := (s.fn fn).ideKeys.erase i }).mboxDone fn Status.ok)
/-- SLOT_INFO: the attribute word. -/
def execSlotInfo (fn : Nat) (s : State) : Out :=
  onMbox 0x05 fn s true true (· == 9) false (fun m =>
    let slot := field m.body 0 1
    if fn ≠ 0 ∧ tenantSlots ≤ slot then s.mboxDone fn Status.bounds
    else s.mboxDone fn Status.ok (leBytes 8 (s.vslot (if fn = 0 then slot else tenantSlot (fn - 1) slot)).word))

/-! ### Compacts (13 R366, R367) -/

/-- A digest as its bytes are stored. -/
def digestOf (l : List Byte) : Digest := BitVec.ofNat 384 (beNat l)
/-- A member entry. -/
def parseMember (b : List Byte) : Member :=
  { role := field b 1 1, egress := field b 2 1, outsz := (List.range (field b 3 1)).map (fun i => field b (152 + 2 * i) 2),
    key := slice b 8 96, digest := digestOf (slice b 104 48) }
/-- Every field of a member entry is legal. -/
def memberOk (i : Nat) (b : List Byte) : Bool :=
  decide (field b 0 1 = i ∧ field b 1 1 ≤ 1 ∧ field b 2 1 ≤ 2 ∧ field b 3 1 ≤ 8 ∧ field b 4 4 = 0 ∧ field b 168 24 = 0) &&
    (List.range 8).all (fun k => if k < field b 3 1 then field b (152 + 2 * k) 2 != 0 else field b (152 + 2 * k) 2 == 0)
/-- Every field of a record is legal. -/
def recordOk (l : List Byte) : Bool :=
  let n := field l 8 1
  let es := chunks 192 n (l.drop 64)
  decide (l.length = 64 + 288 * n ∧ field l 0 4 = 0x54504357 ∧ field l 4 2 = 1 ∧ field l 6 2 ≠ 0 ∧ field l 6 2 ≠ 0xFFFF ∧ 1 ≤ n ∧ n ≤ 15 ∧
    field l 9 1 ≤ 1 ∧ field l 10 2 = 0 ∧ 1 ≤ field l 12 4 ∧ field l 12 4 ≤ 121241 ∧ 1 ≤ field l 16 8 ∧ field l 24 40 = 0) &&
    es.zipIdx.all (fun e => memberOk e.2 e.1) && (es.filter (fun b => field b 1 1 = 1)).length == 1
/-- The record that bytes lay out. -/
def parseCompact (l : List Byte) : Compact :=
  let n := field l 8 1
  let body := l.take (64 + 192 * n)
  { seq := field l 16 8, keypol := field l 9 1 = 1, commons := field l 12 4, members := (chunks 192 n (l.drop 64)).map parseMember,
    cdig := sha384 body }
/-- Every member's signature verifies. -/
def compactSigned (l : List Byte) (k : Compact) : Bool :=
  k.members.zipIdx.all (fun e => ecdsaVerify e.1.key k.cdig (slice l (64 + 192 * k.members.length + 96 * e.2) 96))
/-- Every partition bound to a loaded record keeps its index, role and key in a new one. -/
def State.bindingsKept (s : State) (cid : Nat) (k : Compact) : Bool :=
  (List.range 10).all (fun p =>
    let x := s.part p
    match x.member, s.entryOf p with
    | some i, some old => x.state == .free || x.cid != cid || (match k.members[i]? with
      | some e => e.role == old.role && e.key == old.key
      | none => false)
    | _, _ => true)
/-- Partitions bound to a compact. -/
def State.bound (s : State) (cid : Nat) : Bool :=
  (List.range 10).any (fun p => (s.part p).state ≠ .free ∧ (s.part p).cid = cid ∧ (s.part p).member.isSome)

/-- A drain in a compact runs (13 R373). -/
def State.draining (s : State) (cid : Nat) : Bool := (List.range 10).any (fun p => (s.part p).state = .draining ∧ (s.part p).cid = cid)

/-- COMPACT_LOAD. -/
def execCompactLoad (fn : Nat) (s : State) : Out :=
  onMbox 0x10 fn s true false (fun n => decide (72 ≤ n ∧ (n - 72) % 288 = 0 ∧ n ≤ 4392)) false (fun m =>
    let l := m.body
    let k := parseCompact l
    let cid := field l 6 2
    if !recordOk l then s.mboxDone fn Status.bounds
    else if !compactSigned l k ∨ k.seq ≤ sget 0 s.chr.seqSeen cid then s.mboxDone fn Status.denied
    else if (sget none s.chr.compacts cid).isSome ∧ (!s.bindingsKept cid k ∨ s.draining cid) then s.mboxDone fn Status.state
    else
      ({ s with chr := { s.chr with compacts := sset none s.chr.compacts cid (some k), seqSeen := sset 0 s.chr.seqSeen cid k.seq } }).mboxDone
        fn Status.ok)
/-- COMPACT_RETIRE. -/
def execCompactRetire (fn : Nat) (s : State) : Out :=
  onMbox 0x11 fn s true false (· == 10) false (fun m =>
    let cid := field m.body 0 2
    if (sget none s.chr.compacts cid).isNone ∨ s.bound cid then s.mboxDone fn Status.state
    else ({ s with chr := { s.chr with compacts := sset none s.chr.compacts cid none } }).mboxDone fn Status.ok)

/-! ### Policy and tokens (14 R377, R393-R395) -/

/-- POLICY_LOAD. -/
def execPolicyLoad (fn : Nat) (s : State) : Out :=
  onMbox 0x12 fn s true false (· == 312) false (fun m =>
    let l := m.body
    if field l 0 4 ≠ 0x464E4D57 ∨ field l 4 4 ≠ 1 then s.mboxDone fn Status.bounds
    else if !ecdsaVerify Config.walralKey (sha384 (l.take 208)) (slice l 208 96) then s.mboxDone fn Status.denied
    else if 7 ≤ s.chr.policy.length then s.mboxDone fn Status.quota
    else
      let x : Manifest := { svns := (List.range 4).map (fun i => field l (8 + 2 * i) 2),
                            digests := (List.range 4).map (fun i => digestOf (slice l (16 + 48 * i) 48)) }
      ({ s with chr := { s.chr with policy := s.chr.policy ++ [x] } }).mboxDone fn Status.ok (leBytes 1 (s.chr.policy.length + 1)))

/-- CHALLENGE: 48 random bytes for a token of a type. -/
def execChallenge (fn : Nat) (s : State) : Out :=
  onMbox 0x20 fn s true false (· == 9) false (fun m =>
    let t := field m.body 0 1
    if t = 0 ∨ 5 < t then s.mboxDone fn Status.bounds
    else
      let (a, s) := s.trng
      let (b, s) := s.trng
      let d := BitVec.ofNat 384 (a.toNat + 2 ^ 256 * b.toNat)
      ({ s with chr := { s.chr with challenges := sset none s.chr.challenges t (some (d, s.tim.up)) } }).mboxDone fn Status.ok (digestBytes d))

/-- A token's fields that do not depend on the state are legal. -/
def tokenForm (l : List Byte) : Bool :=
  let t := field l 5 1
  decide (field l 0 4 = 0x47424457 ∧ field l 4 1 = 1 ∧ 1 ≤ t ∧ t ≤ 5 ∧ field l 6 2 < 16 ∧ (t < 3 ∨ field l 6 2 = 0) ∧
    field l 8 8 = Config.uid.toNat)
/-- A token needs the owner's signature. -/
def needsOsig (t : Nat) (lcs : Lcs) : Bool := (t == 2 && lcs == .production) || t == 4 || t == 5
/-- The state in which a type of token is accepted. -/
def tokenState (t : Nat) (lcs : Lcs) : Bool :=
  match t with
  | 1 | 3 => lcs == .test
  | 2 => lcs == .test || lcs == .production
  | _ => lcs == .production
/-- A token passes every check of 14 R394 but its challenge. -/
def State.tokenGood (s : State) (l : List Byte) : Bool :=
  let t := field l 5 1
  let okey := slice l 64 96
  let lcs := s.chr.lcs
  let own := s.chr.otp.owners.getLast?
  let isOwner := match own with
    | some h => sha384 okey == h
    | none => t == 2
  tokenForm l && tokenState t lcs &&
    ecdsaVerify Config.walralKey (sha384 (l.take 160)) (slice l 160 96) &&
    (if t = 2 ∨ t = 4 then isOwner else true) &&
    (if needsOsig t lcs then (match own with
      | some h => ecdsaVerify (if t = 5 then Config.ownerKey h else okey) (sha384 (l.take 256)) (slice l 256 96)
      | none => false)
     else leNat (slice l 256 96) == 0)
/-- Every partition that is not Free is drained (14 R377, R395). -/
def State.drainAll (s : State) : State :=
  ((List.range 10).filter (fun p => (s.part p).state ≠ .free ∧ (s.part p).state ≠ .draining)).foldl (fun s p => s.drainStart p none) s
/-- What an accepted token does. -/
def State.tokenDone (s : State) (fn : Nat) (l : List Byte) : State :=
  let o := s.chr.otp
  let okey := sha384 (slice l 64 96)
  match field l 5 1 with
  | 1 => ({ s with chr := { s.chr with testAuth := true } }).mboxDone fn Status.ok
  | 2 =>
    if 256 ≤ o.dbgcnt then s.mboxDone fn Status.denied
    else
      let s : State := { s with chr := { s.chr with drainsForDebug := true, tokenFn := some fn, tokenScope := field l 6 2 } }
      (s.mboxTurned fn).drainAll.afterDrains
  | 3 =>
    let o := { o with pm := setWord o.pm 1, owners := [okey], tlock := BitVec.allOnes 64, lcs := setWord o.lcs 1 }
    ({ s with chr := { s.chr with otp := o, lcs := o.state } }).mboxDone fn Status.ok
  | 4 =>
    let s : State := { s with chr := { s.chr with otp := { o with pm := setWord o.pm 2 }, drainsForEnd := true, tokenFn := some fn } }
    (s.mboxTurned fn).drainAll.afterDrains
  | _ =>
    if 4 ≤ o.owners.length then s.mboxDone fn Status.quota
    else (s.setOtp { o with owners := o.owners ++ [okey] }).mboxDone fn Status.ok
/-- TOKEN: the challenge is used up by the token that names it (14 R394). -/
def execToken (fn : Nat) (s : State) : Out :=
  onMbox 0x21 fn s true false (· == 360) false (fun m =>
    let l := m.body
    let t := field l 5 1
    match sget none s.chr.challenges t with
    | none => s.mboxDone fn Status.tokenInvalid
    | some (d, at_) =>
      if slice l 16 48 ≠ digestBytes d then s.mboxDone fn Status.tokenInvalid
      else
        let u : State := { s with chr := { s.chr with challenges := sset none s.chr.challenges t none } }
        if at_ + 60000000000 < s.tim.up ∨ !s.tokenGood l then u.mboxDone fn Status.tokenInvalid
        else u.tokenDone fn l)

/-! ### The vault's own events (14 R384, R385) -/

/-- A slot's two shares with a fresh value XORed into both. -/
def State.remaskSlot (s : State) (i : Nat) : State :=
  let (r, s) := s.trng
  let v := s.vslot i
  s.setVslot i { v with shareA := v.shareA ^^^ r, shareB := v.shareB ^^^ r }
/-- The working copies of one sluice. -/
def State.remaskSluice (s : State) (n : Nat) : State :=
  let (a, s) := s.trng
  let (b, s) := s.trng
  let (c, s) := s.trng
  let x := s.slu n
  s.setSlu n { x with k1 := x.k1.remask a, k2 := x.k2.remask b, km := x.km.remask c }
/-- The working copies of one port's cipher. -/
def State.remaskLink (s : State) (n : Nat) : State :=
  let (a, s) := s.trng
  let (b, s) := s.trng
  let l := s.link n
  s.setLink n { l with txKey := l.txKey.remask a, rxKey := l.rxKey.remask b }
/-- The working copies of the Aquifer port. -/
def State.remaskAqf (s : State) : State :=
  let (a, s) := s.trng
  let (b, s) := s.trng
  let (c, s) := s.trng
  { s with aqf := { s.aqf with k1 := s.aqf.k1.remask a, k2 := s.aqf.k2.remask b, km := s.aqf.km.remask c } }
/-- VAULT_REMASK: a fresh value XORed into both shares of every slot, and into those of every working copy (14 R384). -/
def execVaultRemask (s : State) : Out :=
  .next <|
    let s := (List.range 256).foldl State.remaskSlot s
    let s := (List.range 20).foldl State.remaskSluice s
    (List.range 48).foldl State.remaskLink s.remaskAqf
/-- TRNG_FAIL: a Device-fatal record, and no further key is made. -/
def execTrngFail (s : State) : Out :=
  .next (({ s with chr := { s.chr with trngFailed := true } }).report (Rec.mk' Status.trngFail Sev.devFatal Blk.chr 0))

end Sys2Proof.Machine
end

