-- ==== Sys2Proof/Machine/Ras.lean ====
section
/-! DEFINITION. Errors and resets (13 R356; 17 R446, R455-R462; 18 R478): what a module reset keeps, the RAS log, what severe records
do; RAS_RECORD, FLASH_RECORD_COPY, RUNTIME_BED_FENCE, MODULE_RESET, MON_CMD_RESET, MON_CMD_CLRFENCE, MON_FWCTL_STAGE,
MON_FWCTL_COMMIT, MON_FWCTL_ABORT, FIRMWARE_COMMIT_DONE. -/

namespace Sys2Proof.Machine

/-! ### Phases and resets (17 R446, R461) -/

/-- MON_BOOT.PHASE of a phase. -/
def Phase.code : Phase → Nat
  | .rom => 0
  | .otp => 1
  | .chrTest => 2
  | .firmware => 3
  | .identity => 4
  | .rails => 5
  | .memTest => 6
  | .logicTest => 7
  | .stacks => 8
  | .keys => 9
  | .ready => 10
  | .safeListen => 11
  | .fatal => 12
/-- MON_RESET.CAUSE of a cause. -/
def causeCode : ResetCause → Nat
  | .powerOn => 0
  | .overvoltage => 1
  | .supplySag => 2
  | .afterTrip => 3
  | .afterFatal => 4
  | .monCmd => 5
/-- The module starts: it is in none of Ready, Safe-Listen and Fatal. -/
def State.starting (s : State) : Bool := decide (s.mon.phase ≠ .ready ∧ s.mon.phase ≠ .safeListen ∧ s.mon.phase ≠ .fatal)
/-- The boot ROM runs: its digest matched, and the input switch is closed (17 R450; 18 R465). -/
def State.alive (s : State) : Bool := s.mon.switch && !s.mon.silent

/-- A register access or command on a path reaches the module: the host port answers once PERST# is released and the OTP phase is
done, and for a VF once VF Enable is set; SMBus and the management Ethernet as soon as Monarch runs (17 R449, R450). -/
def State.reach (s : State) : Path → Bool
  | .pf0 => s.alive && s.mon.hostUp
  | .vf _ => s.alive && s.mon.hostUp && s.mon.vfEn
  | _ => s.alive
/-- FAULT# is asserted (18 R468). -/
def State.faultPin (s : State) : Bool :=
  s.mon.switch && (s.mon.silent || s.mon.phase == .safeListen || s.mon.phase == .fatal || s.mon.tripped)

/-- A link port keeps its cable and its stored enable (18 R477). -/
def Link.kept (l : Link) : Link := { cable := l.cable, enabled := l.enabled }
/-- The flash ring after a loss of power: a record that was being copied leaves a partial entry, and the earlier ones stay (17 R462). -/
def Ras.torn (x : Ras) : List Rec :=
  match x.flashQ with
  | [] => x.flash
  | r :: _ => keepLast 64 (x.flash ++ [{ r with flashed := true, torn := true }])
/-- What every start keeps: boot flash, OTP, what is cabled to the module and measured outside it, and the model's own fields. -/
def State.fresh0 (s : State) : State :=
  { State.reset with
    pending := s.pending, free := s.free, rsp := s.rsp, hostMem := s.hostMem
    links := smap {} (fun _ l => l.kept) s.links
    chr := { otp := s.chr.otp }
    mon := { ({} : Mon) with storedSag := s.mon.storedSag, storedTim := s.mon.storedTim, imgA := s.mon.imgA, imgB := s.mon.imgB,
                             staging := s.mon.staging, switch := s.mon.switch, en := s.mon.en, perst := s.mon.perst }
    ras := { ({} : Ras) with flash := s.ras.torn, nextRid := s.ras.nextRid }
    pwr := { ({} : Pwr) with junction := s.pwr.junction, stackT := s.pwr.stackT, inlet := s.pwr.inlet, outlet := s.pwr.outlet,
                             input := s.pwr.input } }
/-- What neither a loss of the input nor its return ends: the silence of a module whose boot ROM failed, which only EN ends (17 R450), and
the state after a thermal trip (16 R430). -/
def State.latched (s : State) (m : Mon) : Mon := { m with silent := s.mon.silent, tripped := s.mon.tripped }
/-- A power-on: VAON was lost, so the RAS log, the reset count, the runtime fence list and fabric time start anew (17 R446, R457;
18 R465). -/
def State.powerUp (s : State) (cause : ResetCause) : State :=
  let t := s.fresh0
  { t with mon := { s.latched t.mon with switch := true, cause := causeCode cause } }
/-- A module reset: VAON keeps the RAS log, the cause and the count, the runtime fence list, SMALERT# and fabric time (17 R446, R455,
R458; 18 R469). -/
def State.moduleReset (s : State) (cause : ResetCause) : State :=
  let t := s.fresh0
  { t with
    mon := { t.mon with cause := causeCode cause, resets := satAdd 16 s.mon.resets 1, fenceList := s.mon.fenceList,
                        smalert := s.mon.smalert, startAt := s.tim.up }
    ras := s.ras
    tim := { t.tim with now := s.tim.now, tai := s.tim.tai, up := s.tim.up, prev := s.tim.prev } }
/-- The input switch opens: the module is off (18 R465). -/
def State.powerOff (s : State) : State := let t := s.fresh0; { t with mon := { s.latched t.mon with switch := false } }
/-- EN high and the input in the operating range, with no overvoltage pending: the switch may close (16 R420; 18 R465). -/
def State.mayClose (s : State) : Bool := s.mon.en && !s.mon.switch && !s.mon.overvolt && decide (480 ≤ s.pwr.input ∧ s.pwr.input ≤ 580)
/-- Every junction sensor reads below 90 °C (16 R430). -/
def State.cool (s : State) : Bool := (List.range 48).all (fun i => decide (sget 0 s.pwr.junction i < 90))

/-- What a cause of 17 R446 asks for before it resets the module: a start from power-on or after an overvoltage closes the switch, which
must be open and may close; the other causes reset a module that is on, after a thermal trip only the operator's request does, and a module
whose boot ROM failed only EN starts again (16 R420, R430; 17 R450, R461). -/
def State.resets (s : State) : ResetCause → Bool
  | .powerOn | .overvoltage => s.mayClose
  | .supplySag => s.alive && !s.mon.tripped
  | .afterTrip => s.alive && s.mon.tripped && s.cool
  | .afterFatal => s.alive && !s.mon.tripped && (s.mon.phase == .fatal || s.mon.phase == .safeListen)
  | .monCmd => s.alive && !s.mon.tripped && s.mon.phase == .ready
/-- MODULE_RESET: one of the causes of 17 R446 resets the module; a start from power-on loses VAON. -/
def execModuleReset (cause : ResetCause) (s : State) : Out :=
  .next <|
    if !s.resets cause then s
    else match cause with
      | .powerOn | .overvoltage => s.powerUp cause
      | _ => s.moduleReset cause

/-! ### Records (17 R457) -/

/-- One step of the CRC register. -/
def crcBit (c : BitVec 32) : BitVec 32 := if c.getLsbD 0 then (c >>> 1) ^^^ 0xEDB88320#32 else c >>> 1
/-- CRC-32 of IEEE 802.3. -/
def crc32 (l : List Byte) : BitVec 32 :=
  ~~~ (l.foldl (fun c b => crcBit (crcBit (crcBit (crcBit (crcBit (crcBit (crcBit (crcBit (c ^^^ b.setWidth 32))))))))) 0xFFFFFFFF#32)
/-- A partial entry of the flash ring: its bytes are free values, and its CRC fails (17 R462; assumption 141). -/
def tornBytes (rid : Nat) : List Byte :=
  let l := leBytes 60 (Config.tornBytes rid).toNat
  l ++ leBytes 4 ((crc32 l).toNat + 1 + (Config.tornCrc rid).toNat % (2 ^ 32 - 1))
/-- The 64 bytes of a record. DETAIL is a free value (assumption 45). -/
def Rec.bytes (r : Rec) : List Byte :=
  if r.torn then tornBytes r.rid else
  let l := leBytes 6 r.seq ++ leBytes 1 r.status ++ leBytes 1 r.sev ++ leBytes 8 r.time ++ leBytes 1 r.block ++ leBytes 1 r.inst ++
    leBytes 1 r.part ++ leBytes 1 (b2n r.coalesced + 2 * b2n r.flashed + 4 * b2n r.boot + 8 * b2n r.fence) ++ leBytes 2 r.cid ++
    leBytes 2 r.count ++ leBytes 4 r.loc0 ++ leBytes 4 r.loc1 ++ leBytes 6 r.cause ++ [0, 0] ++ leBytes 16 (Config.recDetail r.rid).toNat ++ List.replicate 4 0
  l ++ leBytes 4 (crc32 l).toNat

/-! ### What severe records do (13 R356; 17 R455, R456, R461, R462) -/

/-- Queues of a function from a number on go to Halted. -/
def State.haltQueues (s : State) (f first : Nat) : State :=
  let x := s.fn f
  s.setFn f { x with queues := x.queues.map (fun e =>
    if first ≤ e.1 ∧ e.2.state = .running then (e.1, { e.2 with state := .halted }) else e) }
/-- The launches of a pre-empted partition complete with CANCELLED: their cores, which are in its saved image, never go on. -/
def State.cancelSaved (s : State) (p : Nat) : State :=
  if s.frozen p then
    (List.range 64).foldl (fun s q => match (s.queue (p + 1) q).cur with
      | some c => if c.opc = 0x21 ∧ c.stage = .running then s.finish (p + 1) q Status.cancelled else s
      | none => s) s
  else s
/-- A partition goes to Stopped: a cocoon or hold ends with the record's status, its cores stop with CANCELLED, and its queues but
queue 0 halt, since that queue still serves the commands of 13 R356 and the events. -/
def State.partStop (s : State) (p status : Nat) : State :=
  let s := s.twinLost p
  let s := (if (s.part p).cocBusy then s.cocEnd p status else s).cancelSaved p
  let s := s.setPart p { s.part p with state := .stopped, cocReq := none, coc := .idle }
  (s.stopPart p Status.cancelled).haltQueues (p + 1) 1
/-- A Partition-fatal record against a partition. -/
def State.partFatal (s : State) (p status seq : Nat) : State :=
  let s := if (s.part p).state = .active ∨ (s.part p).state = .preempted then s.partStop p status else s
  if (s.part p).state = .free then s else s.event p status seq

/-- VBED, VSEC, VSTK and the other rails of the die are gone: what the beds, the sections and their sluices, the headworks, SYN, the Aquifer
port and the host's queues held on the die is lost, and the ports are as `port` leaves them. What Monarch and Chrysalis hold on VAON stays (16
R421, R430). -/
def State.dieOff (s : State) (port : LinkState → LinkState) : State :=
  { s with
    mon := { s.mon with rails := false }
    cores := [], canal := [], rgs := [], syn := {}, fns := []
    secs := smap {} (fun _ c => { c with scheds := [], catchment := [] }) s.secs
    sluices := smap {} (fun _ x => { ({} : Sluice) with root := x.root, eyes := x.eyes, assigned := x.assigned, part := x.part }) s.sluices
    aqf := { s.aqf with fetches := [], k1 := {}, k2 := {}, km := {} }
    hwk := { s.hwk with bufs := [], inbox := [], rings := [], fopens := [], flows := [], unacked := [] }
    links := (List.range 48).foldl (fun m n => sset {} m n { (s.link n).kept with state := port (s.link n).state }) []
    pwr := { s.pwr with bedPoint := [], stretched := [], reasons := s.pwr.reasons % 128 } }
/-- A port of a module in Safe-Listen trains for nothing: it is Off, or stays Fenced (17 R450, R452). -/
def LinkState.listening : LinkState → LinkState
  | .fenced => .fenced
  | _ => .off
/-- The module goes to Safe-Listen: neither management nor any other service, and no power on the die (17 R450-R452). A later failure of the
same start changes nothing there. -/
def State.safeListen (s : State) (status : Nat) : State :=
  if s.mon.phase = .safeListen then s
  else
    let t := s.dieOff LinkState.listening
    { t with mon := { t.mon with phase := .safeListen, fstat := status, fphase := s.mon.phase.code, mgmt := false, compute := false,
                                 fabric := false, aquifer := false } }
/-- Every TDI goes to ERROR; a host port reset that waited for its contexts is overtaken (17 R456). -/
def State.tdiError (s : State) (f : Nat) : State :=
  let s := if (s.fn f).tdi = .run ∨ (s.fn f).tdi = .locked then s.leaveRun f false else s
  s.setFn f { s.fn f with tdi := .error, portReset := false }
/-- The module goes to Fatal; its ports are fenced after the route commit, or at once where the headworks' own audit has failed (17
R456). -/
def State.goFatal (s : State) (status : Nat) : State :=
  let s : State := { s with mon := { s.mon with phase := .fatal, fstat := status, fphase := s.mon.phase.code, compute := false, aquifer := false },
                            hwk := { s.hwk with fenceAfterCommit := true } }
  let live := (List.range 10).filter (fun p => (s.part p).state ≠ .free)
  let s := live.foldl (fun s p => s.partStop p status) s
  let s := (List.range 11).foldl (fun s f => s.haltQueues f 0) s
  let s := ((List.range 10).map (· + 1)).foldl State.tdiError s
  let s := s.dropKeys ([4, 5] ++ (List.range 20).map (· + 22) ++ (List.range 190).map (· + 64))
  let s : State := { s with sluices := smap {} (fun _ x => { x with keyed := false, ready := false, k1 := {}, k2 := {}, km := {} }) s.sluices
                            aqf := { s.aqf with k1 := {}, k2 := {}, km := {} } }
  let s := s.reportFailed s.hwk.pos
  if s.hwk.fenceNow then { s.fencePorts with hwk := { s.fencePorts.hwk with fenceNow := false } } else s
/-- A Device-fatal record (17 R461). -/
def State.deviceFatal (s : State) (status : Nat) : State :=
  match s.mon.phase with
  | .safeListen | .fatal => s
  | .ready => s.goFatal status
  | _ => s.safeListen status

/-! ### The log (17 R458, R459) -/

/-- Of the records that arrived at one moment, whether the first comes before the second: a cause before its consequence, then by
BLOCK, then by INST. -/
def recBefore (a b : Rec) : Bool :=
  b.causeRid == some a.rid || (a.causeRid != some b.rid && (decide (a.block < b.block) || (a.block == b.block && decide (a.inst < b.inst))))
/-- The record that Monarch takes next. -/
def nextRec (l : List Rec) : Option Rec :=
  match l with
  | [] => none
  | r :: rest => some ((rest.filter (fun x => x.time = r.time)).foldl (fun m x => if recBefore x m then x else m) r)
/-- Records that a Corrected one merges with. -/
def Rec.merges (a b : Rec) : Bool :=
  a.sev == Sev.corrected && b.sev == Sev.corrected && a.block == b.block && a.inst == b.inst && a.status == b.status && a.loc0 == b.loc0 &&
    decide (a.time < b.time + 1000000000 ∧ b.count < 65535)
/-- The slot of the last record written that a new one merges with. -/
def Ras.mergeSlot (x : Ras) (r : Rec) : Option (Nat × Rec) :=
  (x.slots.filterMap (fun e => match e.2 with
    | some b => if r.merges b then some (e.1, b) else none
    | none => none)).foldl (fun m e => match m with
      | some y => if y.2.seq < e.2.seq then some e else m
      | none => some e) none
/-- A record written into its slot under the next SEQ. -/
def Ras.write (x : Ras) (r : Rec) : Ras × Rec :=
  let r := { r with seq := x.next, cause := (r.causeRid.map (sget 0 x.seqOf)).getD 0 }
  let k := x.next % 4096
  ({ x with next := x.next + 1, wrap := x.wrap || (sget none x.slots k).isSome, slots := sset none x.slots k (some r),
            seqOf := sset 0 x.seqOf r.rid x.next, flashQ := if 2 ≤ r.sev then x.flashQ ++ [r] else x.flashQ }, r)

/-- RAS_RECORD: Monarch takes a record, merges or writes it, and acts on it (17 R455-R462). SMALERT# asserts for a severe one (18
R469). -/
def execRasRecord (s : State) : Out :=
  .next <|
    match nextRec s.ras.inbox with
    | none => s
    | some r =>
      let x := { s.ras with inbox := s.ras.inbox.erase r }
      match x.mergeSlot r with
      | some (k, b) =>
        { s with ras := { x with slots := sset none x.slots k (some { b with count := b.count + 1, coalesced := true }),
                                 seqOf := sset 0 x.seqOf r.rid b.seq } }
      | none =>
        let (x, r) := x.write r
        let s : State := { s with ras := x, mon := { s.mon with smalert := s.mon.smalert || decide (2 ≤ r.sev) } }
        if r.sev = Sev.partFatal ∧ r.part < 10 then s.partFatal r.part r.status r.seq
        else if r.sev = Sev.devFatal then s.deviceFatal r.status
        else s

/-- FLASH_RECORD_COPY: the next severe record is copied into the ring of 64 in boot flash, and its slot shows FLASHED. -/
def execFlashRecordCopy (s : State) : Out :=
  .next <|
    match s.ras.flashQ with
    | [] => s
    | r :: rest =>
      let k := r.seq % 4096
      let slots := match sget none s.ras.slots k with
        | some y => if y.seq = r.seq then sset none s.ras.slots k (some { y with flashed := true }) else s.ras.slots
        | none => s.ras.slots
      { s with ras := { s.ras with flashQ := rest, slots, flash := keepLast 64 (s.ras.flash ++ [{ r with flashed := true }]) } }

/-- RUNTIME_BED_FENCE: a logic check of a unit of the bed has failed, and the bed is fenced; or one of its memories reports an uncorrectable
error, and the third within 24 h fences it (17 R455). -/
def execRuntimeBedFence (sec : Nat) (fault : BedFault) (s : State) : Out :=
  onSec sec (match fault with
    | .logic bed => s.fenceBed sec bed
    | .memory bed => if bed < 16 then s.bedError sec bed else s)

/-! ### MON_CMD and MON_FWCTL (17 R446, R455, R461; 18 R478) -/

/-- A path on which MON_CMD and MON_FWCTL may be written: not a VF's. -/
def monWrites : Path → Bool
  | .vf _ => false
  | _ => true
def State.setMonCstat (s : State) (st : Nat) : State := { s with mon := { s.mon with cmdCstat := st } }

/-- MON_CMD_RESET. Safe-Listen and Fatal both follow a Device-fatal error (17 R461). After a thermal trip it waits until every sensor reads
below 90 °C (16 R430). -/
def monReset (path : Path) (s : State) : State :=
  if !monWrites path ∨ !s.reach path then s
  else if s.mon.tripped then (if s.cool then s.moduleReset .afterTrip else s.setMonCstat Status.state)
  else if s.starting then s.setMonCstat Status.state
  else if s.mon.phase = .fatal ∨ s.mon.phase = .safeListen then s.moduleReset .afterFatal
  else s.moduleReset .monCmd
def execMonCmdReset (path : Path) (s : State) : Out := .next (monReset path s)
/-- MON_CMD_CLRFENCE: the list is cleared for the next start. -/
def monClrfence (path : Path) (s : State) : State :=
  if !monWrites path ∨ !s.reach path then s
  else if s.mon.phase = .ready ∨ s.mon.phase = .fatal then
    { s with mon := { s.mon with fenceList := [], cmdCstat := Status.ok } }
  else s.setMonCstat Status.state
def execMonCmdClrfence (path : Path) (s : State) : Out := .next (monClrfence path s)

def State.setFwCstat (s : State) (st : Nat) : State := { s with mon := { s.mon with fwCstat := st } }
/-- A MON_FWCTL command: ignored while BUSY, STATE while Monarch's firmware does not serve (17 R452). -/
def fwCmd (path : Path) (s : State) (f : State) : State :=
  if !monWrites path ∨ !s.reach path ∨ s.mon.fwBusy then s
  else if s.mon.phase = .ready ∨ s.mon.phase = .fatal then f
  else s.setFwCstat Status.state
/-- MON_FWCTL_STAGE: LEN words of MON_FWBUF are appended to the staging area of 24 MiB. -/
def fwStage (path : Path) (len : Nat) (s : State) : State :=
  fwCmd path s <|
    if len = 0 ∨ 512 < len then s.setFwCstat Status.bounds
    else if 3145728 < s.mon.staging.length + len then s.setFwCstat Status.quota
    else { s with mon := { s.mon with staging := s.mon.staging ++ sgets 0 s.mon.fwBuf 0 len, fwCstat := Status.ok } }
def execMonFwctlStage (path : Path) (len : Nat) (s : State) : Out := .next (fwStage path len s)
/-- MON_FWCTL_COMMIT: the staged image is verified as the ROM verifies one; it completes with FIRMWARE_COMMIT_DONE. -/
def fwCommit (path : Path) (img : Nat) (copy : FwCopy) (s : State) : State :=
  fwCmd path s <|
    if 3 ≤ img then s.setFwCstat Status.bounds
    else if !copy.sigOk ∨ copy.svn < s.chr.otp.svnmin.getD img 0 then s.setFwCstat Status.denied
    else { s with mon := { s.mon with fwBusy := true, fwPending := some (img, copy), fwProg := 0 } }
def execMonFwctlCommit (path : Path) (img : Nat) (copy : FwCopy) (s : State) : Out := .next (fwCommit path img copy s)
/-- MON_FWCTL_ABORT empties the staging area. -/
def fwAbort (path : Path) (s : State) : State :=
  fwCmd path s { s with mon := { s.mon with staging := [], fwCstat := Status.ok } }
def execMonFwctlAbort (path : Path) (s : State) : Out := .next (fwAbort path s)
/-- FIRMWARE_COMMIT_DONE: copy B, then copy A hold the new image. -/
def execFirmwareCommitDone (s : State) : Out :=
  .next <|
    match s.mon.fwPending with
    | none => s
    | some (i, c) =>
      let x : Image := { digest := c.digest, svn := c.svn }
      { s with mon := { s.mon with fwBusy := false, fwPending := none, fwProg := 1000, fwCstat := Status.ok, staging := []
                                   imgB := sset {} s.mon.imgB i x, imgA := sset {} s.mon.imgA i x } }

end Sys2Proof.Machine
end

