-- ==== Sys2Proof/Machine/Power.lean ====
section
/-! DEFINITION. Power, thermal protection, the supply and diapause (01 R35, R36; 16 R420-R436, R444; 17 R462; 18 R465):
CONTROLLER_PERIOD, GAIN_CALIBRATION, VBED_SETTLED, DROOP, DROOP_STRETCH_END, JUNCTION_SENSOR_SAMPLE, STACK_TEMP_SAMPLE,
COOLANT_SAMPLE, THROTTLE_HOLD_EXPIRY, THERMAL_TRIP, INPUT_OVERVOLTAGE, INPUT_RECOVERY, SUPPLY_SAG, SUPPLY_RESET_SAG, EN_PIN,
PWR_CAP_WRITE, PWR_SAG_WRITE, PWR_SLEEP_ENTER, PWR_SLEEP_WAKE, DIAPAUSE_ENTRY_COMPLETE, WAKE_COMPLETE. -/

namespace Sys2Proof.Machine

/-! ### Throttle reasons (16 R429) -/

/-- The bits of PWR_STATUS.REASONS. -/
def Why.powerCap : Nat := 0
def Why.boostInlet : Nat := 1
def Why.inletHigh : Nat := 2
def Why.thermalSoft : Nat := 3
def Why.thermalHard : Nat := 4
def Why.stackTemp : Nat := 5
def Why.supplySag : Nat := 6
def Why.droop : Nat := 7
/-- The shortest hold of a reason in ns; DROOP counts bed clocks and ends with DROOP_STRETCH_END. -/
def holdOf (k : Nat) : Nat := if k = 1 ∨ k = 2 then 10000000000 else if k = 0 ∨ k = 3 then 1000000 else 10000000
/-- A reason is in force. -/
def Pwr.why (x : Pwr) (k : Nat) : Bool := bit x.reasons k
/-- A reason comes into force. -/
def Pwr.begin (x : Pwr) (k : Nat) : Pwr :=
  { x with reasons := if x.why k then x.reasons else x.reasons + 2 ^ k, exitSince := sset none x.exitSince k none }
/-- A reason ends. -/
def Pwr.finish (x : Pwr) (k : Nat) : Pwr :=
  { x with reasons := if x.why k then x.reasons - 2 ^ k else x.reasons, exitSince := sset none x.exitSince k none }
/-- A reading judged against a reason: it enters, or its exit condition holds from now on or goes on holding, or it does not hold. -/
def Pwr.judge (x : Pwr) (k now : Nat) (enter exit : Bool) : Pwr :=
  if enter then x.begin k
  else if !x.why k then x
  else if exit then (if (sget none x.exitSince k).isSome then x else { x with exitSince := sset none x.exitSince k (some now) })
  else { x with exitSince := sset none x.exitSince k none }
/-- The exit condition under a key has held for the shortest hold of a reason. -/
def Pwr.heldKey (x : Pwr) (key k now : Nat) : Bool :=
  match sget none x.exitSince key with
  | some t => decide (t + holdOf k ≤ now)
  | none => false
/-- The exit condition of a reason has held for its shortest hold. -/
def Pwr.heldOut (x : Pwr) (k now : Nat) : Bool := x.heldKey k k now

/-! THERMAL_SOFT enters and ends for each group of sensors, STACK_TEMP for each stack; the reason is in force while it is for one. -/

/-- The group of a junction sensor: that of its section, or that of the headworks and SerDes. -/
def sensorKey (i : Nat) : Nat := 16 + min (i / 4) 10
/-- The sensors of a group. -/
def sensorsOf (key : Nat) : List Nat := if key = 26 then (List.range 8).map (· + 40) else (List.range 4).map (· + 4 * (key - 16))
def stackKey (n : Nat) : Nat := 32 + n
/-- The reason that a key stands for. -/
def keyReason (key : Nat) : Nat := if key < 32 then Why.thermalSoft else Why.stackTemp
/-- A reading judged for one group or stack. -/
def Pwr.judgeKey (x : Pwr) (key now : Nat) (enter exit : Bool) : Pwr :=
  let x := if enter then { x.begin (keyReason key) with hot := if x.hot.contains key then x.hot else x.hot ++ [key] } else x
  { x with exitSince := sset none x.exitSince key (if enter || !exit then none else some ((sget none x.exitSince key).getD now)) }
/-- The groups or stacks for which a reason is in force, and those whose exit has held long enough. -/
def Pwr.hotOf (x : Pwr) (k : Nat) : List Nat := x.hot.filter (fun key => keyReason key = k)
def Pwr.cooled (x : Pwr) (k now : Nat) : List Nat := (x.hotOf k).filter (fun key => x.heldKey key k now)
/-- A reason's hold has passed: THERMAL_SOFT and STACK_TEMP end for the groups or stacks that have cooled, and with the last of them. -/
def Pwr.expire (x : Pwr) (k now : Nat) : Pwr :=
  if k = Why.thermalSoft ∨ k = Why.stackTemp then
    let y := { x with hot := x.hot.filter (fun key => !(x.cooled k now).contains key) }
    if (y.hotOf k).isEmpty then y.finish k else y
  else x.finish k
/-- Some hold of a reason has passed. -/
def Pwr.expires (x : Pwr) (k now : Nat) : Bool :=
  if k = Why.thermalSoft ∨ k = Why.stackTemp then !(x.cooled k now).isEmpty else x.heldOut k now

/-! ### The effective limit (01 R35, R36; 16 R427, R444) -/

/-- The Boost limit is in effect: requested, and neither BOOST_INLET nor SUPPLY_SAG in force. -/
def Pwr.boostOn (x : Pwr) : Bool := x.effBoost && !x.why Why.boostInlet && !x.why Why.supplySag
/-- The cap of the coolant inlet: 2,900 W less 100 W for each whole or part degree above 40.0 °C, not below 1,800 W. -/
def inletCap (inlet : Nat) : Nat := max 1800 (2900 - 100 * ((inlet - 400 + 9) / 10))
/-- The effective limit L. -/
def Pwr.limitNow (x : Pwr) : Nat :=
  let a := if x.boostOn then x.effCap else min x.effCap 2900
  let a := if x.why Why.supplySag then min a 1800 else a
  if x.why Why.inletHigh then min a (inletCap x.inlet) else a
/-- What follows from the reasons, the cap and the coolant: the limit, and the clock of the section islands (16 R422). A cap written
while THERMAL_HARD is in force is followed when it ends (16 R444). -/
def Pwr.settle (x : Pwr) : Pwr :=
  let hard := x.why Why.thermalHard
  let x := { x with effCap := if hard then x.effCap else x.cap, effBoost := if hard then x.effBoost else x.boost }
  { x with limit := x.limitNow, boosted := x.boostOn, secSlow := hard || x.why Why.supplySag }
def State.setPwr (s : State) (x : Pwr) : State := { s with pwr := x.settle }

/-! ### Operating points and rails (16 R421-R423) -/

/-- An operating point: the bed clock in MHz, VBED in mV, and the modelled power of all 160 beds at full activity in W. -/
structure OpPoint where
  mhz : Nat
  mv : Nat
  watts : Nat
  deriving DecidableEq, Repr
def opPoints : List OpPoint :=
  [⟨1200, 620, 461⟩, ⟨1300, 640, 532⟩, ⟨1400, 660, 609⟩, ⟨1500, 680, 692⟩, ⟨1600, 700, 783⟩, ⟨1700, 720, 881⟩, ⟨1800, 750, 1011⟩,
   ⟨1900, 775, 1141⟩, ⟨2000, 800, 1280⟩, ⟨2100, 825, 1428⟩, ⟨2200, 850, 1588⟩, ⟨2300, 880, 1780⟩]
def opPoint (p : Nat) : OpPoint := opPoints.getD p ⟨0, 0, 0⟩
/-- The rails; those with more than one voltage by their place in the table. -/
inductive Rail where
  | vbed (bed : Nat) | vsec | vhwk | vsrd (k : Nat) | vstk (k : Nat) | vaon
  deriving DecidableEq, Repr
/-- The rails of the die are up, and the module does not sleep: diapause and its ramp gate the beds and the sections. -/
def State.ramped (s : State) : Bool := s.mon.rails && s.pwr.sleep != .diapause
/-- The set value of a rail in mV, 0 where it is down (16 R421). -/
def State.railMv (s : State) : Rail → Nat
  | .vbed b => let p := sget 0 s.pwr.bedPoint b
    if s.mon.rails ∧ 0 < p then (opPoint (p - 1)).mv else 0
  | .vsec => if !s.ramped then 0 else if s.pwr.secSlow then 700 else 750
  | .vhwk => if s.mon.rails then 750 else 0
  | .vsrd k => if s.mon.rails then [750, 1200].getD k 0 else 0
  | .vstk k => if s.mon.rails then [1050, 750, 1800].getD k 0 else 0
  | .vaon => if s.mon.switch then 800 else 0
/-- The clock of a bed and of the section islands in MHz (16 R422, R425): a bed that stretches its clock runs a period longer by one
quarter. -/
def State.bedMhz (s : State) (b : Nat) : Nat :=
  let p := sget 0 s.pwr.bedPoint b
  if p = 0 then 0 else if sget false s.pwr.stretched b then (opPoint (p - 1)).mhz * 4 / 5 else (opPoint (p - 1)).mhz
def State.secMhz (s : State) : Nat := if s.pwr.secSlow then 1600 else 2000

/-! ### The controller (16 R423-R428) -/

/-- The power in mW of a period's activity with each bed at a point, times the calibration gain. `activity` holds the activity of each of
the 160 beds in 1/65,536 of full activity, then the counted traffic of the section islands, the stacks, the SerDes and the headworks
(16 R423, R426; assumption 125). -/
def State.powerAt (s : State) (activity : List Nat) (point : Nat → Nat) : Nat :=
  let beds := ((List.range 160).map (fun b =>
    if sget 0 s.pwr.bedPoint b = 0 then 0 else (opPoint (point b)).watts * activity.getD b 0)).sum * 1000 / (160 * 65536)
  let rest := ((List.range 4).map (fun k => Config.trafficPower k * activity.getD (160 + k) 0)).sum
  (beds + rest) * s.pwr.gain / 65536
/-- The estimate E of a period, in mW: each bed at the point that it runs at. -/
def State.estimate (s : State) (activity : List Nat) : Nat := s.powerAt activity (fun b => sget 0 s.pwr.bedPoint b - 1)
/-- What each point is predicted to take at the last period's activity, in mW. -/
def State.predicted (s : State) (activity : List Nat) : List Nat := (List.range 12).map (fun p => s.powerAt activity (fun _ => p))
/-- The highest point at or below p whose predicted power is at most l; point 0 where none is. -/
def highest (pred : List Nat) (l : Nat) : Nat → Nat
  | 0 => 0
  | p + 1 => if pred.getD (p + 1) 0 ≤ l then p + 1 else highest pred l p
/-- The common point moves: down at once, up by one point. -/
def Pwr.move (x : Pwr) (pred : List Nat) (now : Nat) : Pwr :=
  let l := 1000 * x.limit
  if l < pred.getD x.point 0 ∧ 0 < x.point then { x with point := highest pred l (x.point - 1), downAt := some now }
  else if x.point < 11 ∧ pred.getD (x.point + 1) 0 ≤ l ∧ l ≥ pred.getD x.point 0 ∧
      (match x.downAt with
        | some t => decide (t + 1000000 ≤ now)
        | none => true) = true then { x with point := x.point + 1 }
  else x
/-- A bed is powered: it is good, and its section belongs to an Active partition or the module still starts (16 R428; 17 R447). -/
def State.bedPowered (s : State) (b : Nat) : Bool :=
  s.bedGood (b / 16) (b % 16) && (s.starting || (match s.secPart (b / 16) with
    | some p => (s.part p).state == .active
    | none => false))
/-- The point that a bed has to run at: the common point under the thermal cap of its section, point 0 under THERMAL_HARD. -/
def State.bedTarget (s : State) (b : Nat) : Nat :=
  if s.pwr.why Why.thermalHard then 0 else min s.pwr.point (s.sec (b / 16)).thermCap
/-- A bed follows: gated with no Active partition, down at once; a rise waits for its voltage, but a bed that is powered anew starts
at its point. -/
def State.moveBed (s : State) (b : Nat) : State :=
  let cur := sget 0 s.pwr.bedPoint b
  let v := if !s.bedPowered b then 0 else if cur = 0 then s.bedTarget b + 1 else min cur (s.bedTarget b + 1)
  if v = cur then s else { s with pwr := { s.pwr with bedPoint := sset 0 s.pwr.bedPoint b v } }
/-- A bed that is gated stretches no clock; DROOP ends with the last that does. -/
def Pwr.gated (x : Pwr) : Pwr :=
  let l := x.stretched.filter (fun e => sget 0 x.bedPoint e.1 ≠ 0)
  if l.isEmpty ∧ !x.stretched.isEmpty then { x.finish Why.droop with stretched := l } else { x with stretched := l }
def State.moveBeds (s : State) : State :=
  let t := (List.range 160).foldl State.moveBed s
  { t with pwr := t.pwr.gated }
/-- Every reason in force adds 10 µs to its counter of whole ms, which saturates at 65,535 ms. -/
def Pwr.countReasons (x : Pwr) : Pwr :=
  { x with thr := (List.range 7).foldl (fun m k => if x.why k then sset 0 m k (min (sget 0 m k + 1) 6553599) else m) x.thr }
/-- The power controller runs: the rails are up, and the module is not asleep. -/
def State.powered (s : State) : Bool := s.alive && s.mon.rails && (s.pwr.sleep == .running || s.pwr.sleep == .entering)

/-- CONTROLLER_PERIOD: Monarch counts the reasons in force, asleep too; while the controller runs it forms E and moves the common point. -/
def execControllerPeriod (activity : List Nat) (s : State) : Out :=
  .next <|
    if !s.alive then s
    else if !s.powered then { s with pwr := s.pwr.countReasons }
    else
      let now := s.tim.up
      let pred := s.predicted activity
      let x := s.pwr.settle.countReasons.move pred now
      let above := decide (1000 * x.limit < pred.getD 11 0)
      let x := { x with risen := [], eSum := x.eSum + s.estimate activity, eN := x.eN + 1 }
      (s.setPwr (x.judge Why.powerCap now (above && decide (x.point < 11)) (!above || decide (x.point = 11)))).moveBeds

/-- The mean of the products of the samples of the input voltage in mV and current in mA, in mW (16 R426). -/
def inputPower (milliVolts milliAmps : List Nat) : Nat :=
  let l := List.zipWith (fun a b => a * b) milliVolts milliAmps
  if l.isEmpty then 0 else l.sum / 1000 / l.length
/-- GAIN_CALIBRATION: E and M averaged over the last ms move the gain, in units of 1/65,536 rounded down; with E zero the ratio is a
free value. -/
def execGainCalibration (milliVolts milliAmps : List Nat) (s : State) : Out :=
  .next <|
    if !s.powered then s
    else
      let est := if s.pwr.eN = 0 then 0 else s.pwr.eSum / s.pwr.eN
      let meas := inputPower milliVolts milliAmps
      let (v, s) := if est = 0 then s.fresh else (0, s)
      let ratio := if est = 0 then v.toNat else meas * 65536 / est
      let g := (7 * s.pwr.gain + ratio) / 8
      { s with pwr := { s.pwr with est := min (est / 1000) 4095, meas := min (meas / 1000) 4095, gain := max 55706 (min 78643 g),
                                   calClamp := decide (g < 55706 ∨ 78643 < g), eSum := 0, eN := 0 } }

/-- VBED_SETTLED: the voltage of a bed that is below its point has risen by one point, once in a controller period, and its frequency
follows. -/
def execVbedSettled (bed : Nat) (s : State) : Out :=
  onUnit "bed" 160 bed <|
    let cur := sget 0 s.pwr.bedPoint bed
    if !s.powered ∨ cur = 0 ∨ s.bedTarget bed + 1 ≤ cur ∨ s.pwr.risen.contains bed then s
    else { s with pwr := { s.pwr with bedPoint := sset 0 s.pwr.bedPoint bed (cur + 1), risen := bed :: s.pwr.risen } }

/-- DROOP: the bed stretches its clock, and the event is counted. -/
def execDroop (bed : Nat) (s : State) : Out :=
  onUnit "bed" 160 bed <|
    if !s.powered ∨ sget 0 s.pwr.bedPoint bed = 0 then s
    else
      let x := s.pwr.begin Why.droop
      s.setPwr { x with stretched := sset false x.stretched bed true, thr := sset 0 x.thr 7 (min (sget 0 x.thr 7 + 1) 65535) }
/-- DROOP_STRETCH_END: the reason ends with the last bed that stretches. -/
def execDroopStretchEnd (bed : Nat) (s : State) : Out :=
  onUnit "bed" 160 bed <|
    if !sget false s.pwr.stretched bed then s
    else
      let x := { s.pwr with stretched := sset false s.pwr.stretched bed false }
      s.setPwr (if x.stretched.isEmpty then x.finish Why.droop else x)

/-! ### Sensors (16 R429) -/

/-- The readings of all junction sensors and of all stacks. -/
def Pwr.junctions (x : Pwr) : List Nat := sgets 0 x.junction 0 48
def Pwr.stacks (x : Pwr) : List Nat := sgets 0 x.stackT 0 20
/-- THERMAL_HARD judged on the sensors as they stand. -/
def Pwr.judgeHard (x : Pwr) (now : Nat) : Pwr :=
  x.judge Why.thermalHard now (x.junctions.any (fun t => decide (110 ≤ t)) || x.stacks.any (fun t => decide (98 ≤ t)))
    (x.junctions.all (fun t => decide (t ≤ 105)) && x.stacks.all (fun t => decide (t ≤ 92)))
/-- The thermal cap of a section after a reading of one of its sensors: down one point per 100 µs from 105 °C, up one point per 1 ms
once every sensor of the section has read 103 °C or less for 1 ms (16 R429). -/
def State.thermCap (s : State) (n temp : Nat) : State :=
  let c := s.sec n
  let now := s.tim.up
  let due (d : Nat) : Bool := match c.softSince with
    | some t => decide (t + d ≤ now)
    | none => true
  let long := s.pwr.heldKey (16 + n) Why.thermalSoft now
  if 105 ≤ temp then (if due 100000 && decide (0 < c.thermCap) then s.setSec n { c with thermCap := c.thermCap - 1, softSince := some now } else s)
  else if long && due 1000000 && decide (c.thermCap < 11) then s.setSec n { c with thermCap := c.thermCap + 1, softSince := some now }
  else s

/-- JUNCTION_SENSOR_SAMPLE of sensor idx in °C: four per section, then eight across the headworks and SerDes. -/
def execJunctionSensorSample (idx temp : Nat) (s : State) : Out :=
  onUnit "junction sensor" 48 idx <|
    let now := s.tim.up
    let x := { s.pwr with junction := sset 0 s.pwr.junction idx temp }
    let x := x.judgeKey (sensorKey idx) now (decide (105 ≤ temp))
      ((sensorsOf (sensorKey idx)).all (fun i => decide (sget 0 x.junction i ≤ 103)))
    let s := s.setPwr (x.judgeHard now)
    let s := if idx < 40 then s.thermCap (idx / 4) temp else s
    if s.powered then s.moveBeds else s
/-- STACK_TEMP_SAMPLE. -/
def execStackTempSample (idx temp : Nat) (s : State) : Out :=
  onUnit "stack" 20 idx <|
    let now := s.tim.up
    let x := { s.pwr with stackT := sset 0 s.pwr.stackT idx temp }
    let x := x.judgeKey (stackKey idx) now (decide (95 ≤ temp)) (decide (temp ≤ 92))
    let s := s.setPwr (x.judgeHard now)
    if s.powered then s.moveBeds else s
/-- COOLANT_SAMPLE in 0.1 °C. -/
def execCoolantSample (inlet outlet : Nat) (s : State) : Out :=
  .next <|
    let now := s.tim.up
    let x := { s.pwr with inlet, outlet }
    let x := x.judge Why.boostInlet now (x.boostOn && decide (300 < inlet)) (decide (inlet ≤ 290))
    s.setPwr (x.judge Why.inletHigh now (decide (400 < inlet)) (decide (inlet ≤ 390)))
/-- THROTTLE_HOLD_EXPIRY: the reason ends, or ends for the groups or stacks that have cooled. When SUPPLY_SAG ends, Boost returns only if
the inlet allows it (16 R444). -/
def execThrottleHoldExpiry (reason : Nat) (s : State) : Out :=
  onUnit "throttle reason" 8 reason <|
    if reason = Why.droop ∨ !s.pwr.expires reason s.tim.up then s
    else
      let x := s.pwr.expire reason s.tim.up
      s.setPwr (if reason = Why.supplySag ∧ x.boost ∧ 300 < x.inlet then x.begin Why.boostInlet else x)

/-- The comparator has removed VBED, VSEC, VHWK, VSRD and VSTK: the links and the host port are dead too (16 R430). -/
def State.unpowered (s : State) : State :=
  let t := s.dieOff (fun _ => .fenced)
  { t with mon := { t.mon with tripped := true, hostUp := false } }
/-- THERMAL_TRIP: a sensor at 118 °C or more removes the power of the die, and Monarch writes a Device-fatal record, whose status no
rule states: it is one of the codes that the spec defines, which one is a free value (assumption 69). -/
def execThermalTrip (idx : Nat) (s : State) : Out :=
  onUnit "junction sensor" 48 idx <|
    if !s.mon.switch ∨ s.mon.tripped ∨ sget 0 s.pwr.junction idx < 118 then s
    else
      let s := s.unpowered
      if !s.alive then s
      else
        let (v, s) := s.fresh
        s.report (Rec.mk' (Status.defined.getD (v.toNat % Status.defined.length) Status.timeout) Sev.devFatal Blk.pwr 0)

/-! ### The supply (16 R420, R432, R433; 18 R465) -/

/-- INPUT_OVERVOLTAGE: the input switch opens. A trip, or the silence of a failed boot ROM, stays latched (assumption 140). -/
def execInputOvervoltage (s : State) : Out :=
  .next (if s.mon.switch then (let t := s.powerOff; { t with mon := { t.mon with overvolt := true } }) else
    { s with mon := { s.mon with overvolt := true } })
/-- INPUT_RECOVERY: 1 s in range after an overvoltage; with EN high the switch closes. -/
def execInputRecovery (s : State) : Out :=
  .next <|
    if !s.mon.overvolt then s
    else
      let s : State := { s with mon := { s.mon with overvolt := false } }
      if s.mon.en ∧ !s.mon.switch then s.powerUp .overvoltage else s
/-- SUPPLY_SAG: the input in 0.1 V against the warning threshold. Every fall below it raises the Monarch event, while the reason is still held
too (16 R432). -/
def execSupplySag (decivolts : Nat) (s : State) : Out :=
  .next <|
    let fall := decide (decivolts < s.pwr.warn)
    let rises := fall && (!s.pwr.why Why.supplySag || decide (s.pwr.warn ≤ s.pwr.input)) && s.alive
    let x := { s.pwr with input := decivolts }
    let s := s.setPwr (x.judge Why.supplySag s.tim.up fall (decide (x.warn + 10 ≤ decivolts)))
    if rises then { s with mon := { s.mon with monIrq := s.mon.monIrq + 1 } } else s
/-- SUPPLY_RESET_SAG: a module reset with the cause kept on VAON; not of a module that a trip or its boot ROM holds down (16 R430, R433, R444;
17 R450). -/
def execSupplyResetSag (s : State) : Out := .next (if s.resets .supplySag then s.moduleReset .supplySag else s)
/-- EN_PIN. Low, it ends what a failed boot ROM and a trip hold, with VAON (17 R450; 18 R465; assumption 140). -/
def execEnPin (high : Bool) (s : State) : Out :=
  .next <|
    let s : State := { s with mon := { s.mon with en := high } }
    if high then (if s.mayClose then s.powerUp .powerOn else s)
    else
      let t := if s.mon.switch then s.powerOff else s
      { t with mon := { t.mon with overvolt := s.mon.overvolt, silent := false, tripped := false } }

/-! ### Commands (01 R34-R36; 16 R431, R434, R445; 18 R475) -/

/-- The paths that reach the PWR and TIM registers: PF0 and the management Ethernet. -/
def isOperator : Path → Bool
  | .pf0 | .eth => true
  | _ => false
/-- Monarch's firmware serves the command: Ready or Fatal (17 R449, R452). -/
def State.served2 (s : State) : Bool := s.mon.phase == .ready || s.mon.phase == .fatal
/-- PWR_CAP_WRITE: a cap outside 1,800-3,400 W leaves it unchanged with BOUNDS; Boost asked for
above 30.0 °C is STATE and changes nothing (01 R34; assumption 113). -/
def pwrCapSet (path : Path) (v : Word) (s : State) : State :=
  if !isOperator path ∨ !s.reach path then s
  else if !s.served2 then { s with pwr := { s.pwr with cstat := Status.state } }
  else
    let cap := bits v.toNat 0 12
    let boost := bit v.toNat 12
    if cap < 1800 ∨ 3400 < cap then { s with pwr := { s.pwr with cstat := Status.bounds } }
    else if boost ∧ 300 < s.pwr.inlet then { s with pwr := { s.pwr with cstat := Status.state } }
    else s.setPwr { s.pwr with cap, boost, cstat := Status.ok }
def execPwrCapWrite (path : Path) (v : Word) (s : State) : Out := .next (pwrCapSet path v s)
/-- PWR_SAG_WRITE: a write that breaks a window or the 2.0 V gap, or one after LOCK, leaves the register unchanged. The thresholds are
kept in boot flash (18 R477). -/
def pwrSagSet (path : Path) (v : Word) (s : State) : State :=
  let w := bits v.toNat 0 9
  let r := bits v.toNat 9 9
  if !isOperator path ∨ !s.reach path ∨ s.pwr.lock ∨ w < 440 ∨ 470 < w ∨ r < 400 ∨ 430 < r ∨ w < r + 20 then s
  else { s with pwr := { s.pwr with warn := w, rst := r, lock := bit v.toNat 18 }, mon := { s.mon with storedSag := (w, r) } }
def execPwrSagWrite (path : Path) (v : Word) (s : State) : Out := .next (pwrSagSet path v s)

def State.setSleep (s : State) (x : Sleep) (cstat : Nat) : State := { s with pwr := { s.pwr with sleep := x, sleepCstat := cstat } }
/-- No tenant work and no transit depends on the module: every partition Free or Preempted, no cocoon or hold, and every port Off or
Fenced unless the whole District sleeps. -/
def State.maySleep (s : State) (district : Bool) : Bool :=
  (List.range 10).all (fun p => ((s.part p).state == .free || (s.part p).state == .preempted) && !(s.part p).cocBusy) &&
    !s.join.twinHold && (district || (List.range 48).all (fun n => (s.link n).state == .off || (s.link n).state == .fenced))
/-- The ARG of a District order to enter diapause or to wake (assumption 36). -/
def orderArg (wake : Bool) : Nat := if wake then 5 else 4
/-- A packet comes from the District's route master, by the coordinate that the table gives it (16 R434, R439). -/
def State.fromMaster (s : State) (p : Packet) : Bool :=
  match s.hwk.masterAt with
  | some m => p.src == (coordAt s.hwk.table m).getD (coordOf m)
  | none => false
/-- A District order in Monarch's inbox: a MGMT packet from the route master. The master itself, which sends it, needs none. -/
def State.orderIn (s : State) (wake : Bool) : Option Packet :=
  s.hwk.inbox.find? (fun p => p.typ == 6 && p.arg == orderArg wake && s.fromMaster p)
/-- A command reaches Monarch, or a District order has come; the order is taken from the inbox. -/
def State.takeOrder (s : State) (district wake : Bool) : Option State :=
  if !district then some s
  else match s.orderIn wake with
    | some p => some (s.takeInbox p)
    | none => if s.hwk.master then some s else none
/-- Whether a sleep command or order reaches Monarch, and the answer STATE where it does not serve. -/
def sleepCmd (path : Path) (district : Bool) (s : State) (f : State) : State :=
    if (if district then !s.alive else !isOperator path || !s.reach path) then s
    else if s.mon.phase = .ready then f
    else { s with pwr := { s.pwr with sleepCstat := Status.state } }
/-- PWR_SLEEP_ENTER. -/
def sleepEnter (path : Path) (district : Bool) (s : State) : State :=
  sleepCmd path district s <|
    match s.pwr.sleep with
    | .running => if s.maySleep district then s.setSleep .entering Status.ok else s.setSleep .running Status.state
    | .entering => s.setSleep .entering Status.state
    | .diapause => s.setSleep .diapause Status.ok
    | .waking => s.setSleep .waking Status.state
def execPwrSleepEnter (path : Path) (district : Bool) (s : State) : Out :=
  .next (((s.takeOrder district false).map (sleepEnter path district)).getD s)
/-- The wake begins now: it takes 3.0 ms. -/
def State.wakeFrom (s : State) : State := { s with pwr := { s.pwr with wakeAt := s.tim.up + 3000000 } }
/-- PWR_SLEEP_WAKE: while Entering, entry completes first and the 3.0 ms starts now (16 R444). -/
def sleepWake (path : Path) (district : Bool) (s : State) : State :=
  sleepCmd path district s <|
    match s.pwr.sleep with
    | .running => s.setSleep .running Status.ok
    | .entering =>
      let t := s.setSleep .entering Status.ok
      if s.pwr.wakeAfter then t else let t := t.wakeFrom; { t with pwr := { t.pwr with wakeAfter := true } }
    | .diapause => (s.setSleep .waking Status.ok).wakeFrom
    | .waking => s.setSleep .waking Status.ok
def execPwrSleepWake (path : Path) (district : Bool) (s : State) : Out :=
  .next (((s.takeOrder district true).map (sleepWake path district)).getD s)
/-- DIAPAUSE_ENTRY_COMPLETE: beds, sections and reduction engines are power-gated. -/
def execDiapauseEntryComplete (s : State) : Out :=
  .next <|
    if s.pwr.sleep ≠ .entering then s
    else { s with pwr := { ({ s.pwr with bedPoint := [] } : Pwr).gated with
      sleep := if s.pwr.wakeAfter then .waking else .diapause, wakeAfter := false } }
/-- WAKE_COMPLETE: Pond and slots have been cleared. -/
def execWakeComplete (s : State) : Out :=
  .next <|
    if s.pwr.sleep ≠ .waking ∨ s.tim.up < s.pwr.wakeAt then s
    else { s with pwr := { s.pwr with sleep := .running }
                  cores := smap {} (fun _ k => { k with pond := [], slots := [] }) s.cores }

end Sys2Proof.Machine
end

