-- ==== Sys2Proof/Machine/Time.lean ====
section
/-! DEFINITION. Fabric time (16 R437-R445; 10 R295): how the count runs, TIME_EXCHANGE, MASTER_ELECTION, TIM_SET, TIM_SET_APPLY,
PPS_IN_EDGE, PPS_IN_LOSS, PTP_SYNC, PTP_DELAY_REQ, PPS_OUT_EDGE. -/

namespace Sys2Proof.Machine

/-! ### The count (16 R437, R438, R441) -/

/-- One nanosecond of the module's clock: the count advances by one, and while a correction is due it takes one ns more or less every
100,000 of its own counts, which is 10 ppm (assumption 8). -/
def Tim.count (x : Tim) : Tim :=
  if x.slew = 0 ∨ x.slewAt + 1 < 100000 then { x with now := (x.now + 1) % 2 ^ 64, slewAt := if x.slew = 0 then 0 else x.slewAt + 1 }
  else if 0 < x.slew then { x with now := (x.now + 2) % 2 ^ 64, slew := x.slew - 1, slewAt := 0 }
  else { x with slew := x.slew + 1, slewAt := 0 }
/-- A nanosecond passes: fabric time counts, and so does the time since VAON came up. -/
def Tim.tick (x : Tim) : Tim := { x.count with prev := x.now, up := x.up + 1 }
/-- What an empty queue's step does: time passes (assumption 8). -/
def State.tick (s : State) : State := { s with tim := s.tim.tick }

/-- The direction of the upstream neighbour on the tree that runs from the master along X, then Y, then Z, each the shorter way round: the
last step of that way, taken back. At the middle of a ring of 16 it is the positive one (16 R438; assumption 71). -/
def upDir (me m : Pos) : Option Dir :=
  let way (dim n a b : Nat) : Dir := 2 * dim + b2n (decide ((a + n - b) % n < (b + n - a) % n))
  if me.z ≠ m.z then some (way 2 17 me.z m.z)
  else if me.y ≠ m.y then some (way 1 16 me.y m.y)
  else if me.x ≠ m.x then some (way 0 16 me.x m.x)
  else none
/-- A port leads upstream: toward the neighbour on the tree, over the bypass where it stands for the Z hop, and for District 1's master to
its twin. A module that knows no master yet takes its time from any port of its District (16 R438). -/
def State.upstream (s : State) (port : Nat) : Bool :=
  if s.tim.master then decide (s.hwk.pos.d = 1) && isTwinPort port
  else !isTwinPort port && (match s.hwk.masterAt with
    | some m => (match upDir s.hwk.pos m with
      | some d => portDir port == d || (d == 4 && portDir port == 7) || (d == 5 && portDir port == 8)
      | none => false)
    | none => true)
/-- TIME_EXCHANGE over the upstream port: the offset of this module's count from upstream in 10 ps. A module that has taken no time
since it started takes it; a later offset is slewed out, and within 2.5 ns the module is synchronised. What the packets say of the
District's master is taken over, but by a master. -/
def execTimeExchange (port : Nat) (offset : Int) (ann : TimeAnn) (s : State) : Out :=
  onLink port <|
    if (s.link port).state ≠ .up ∨ !s.upstream port then s
    else
      let ns := offset / 100
      let m := s.tim.master
      let x := { s.tim with
        upPort := port, hops := if isTwinPort port then 25 else min ann.hops 24, offset, tai := ann.tai
        ppsLock := if m then s.tim.ppsLock else ann.ppsLock, holdover := if m then s.tim.holdover else ann.holdover }
      { s with tim :=
          if x.taken then { x with slew := -ns, sync := decide (offset.natAbs ≤ 250) }
          else { x with now := ((x.now : Int) - ns).toNat % 2 ^ 64, taken := true, sync := true } }

/-! ### The master (16 R439; 09 R268; 10 R295) -/

/-- Whether the first candidate wins against the second: lower PRIO, then PPS_IN locked, then the lower physical (z, y, x). -/
def Candidate.beats (a b : Candidate) : Bool :=
  let key (c : Candidate) : List Nat := [c.prio, b2n (!c.ppsLocked), c.pos.z, c.pos.y, c.pos.x]
  decide (key a < key b)
/-- This module's own entry, as it stands: none where it is not in service. The list holds the modules in service, each with its
TIM_CFG.CAND. -/
def State.ownCandidate (s : State) (c : Candidate) : Option Candidate :=
  if !c.self then some c
  else if s.mon.phase = .ready ∧ s.mon.fabric then
    some { c with pos := s.hwk.pos, cand := s.tim.cand, prio := s.tim.prio, ppsLocked := s.tim.master && s.tim.ppsLock }
  else none
/-- The winner among the candidates of this module's District. In District 1 the twin of District 0's master wins whenever it is in
service, a candidate or not; District 0's master stands in the list with its own position. -/
def State.winner (s : State) (cands : List Candidate) : Option Candidate :=
  let all := cands.filterMap s.ownCandidate
  let mine := all.filter (fun c => c.pos.d = s.hwk.pos.d)
  let twin := if s.hwk.pos.d = 1 then
      (all.find? (fun c => c.pos.d = 0)).bind (fun m => mine.find? (fun c => c.pos = { m.pos with d := 1 }))
    else none
  match twin with
  | some c => some c
  | none => (mine.filter (·.cand)).foldl (fun m c => match m with
    | some w => if Candidate.beats c w then some c else some w
    | none => some c) none
/-- A new controller: every uncommitted step of the groups it controls is dropped in full, and the groups go on (10 R295). -/
def State.dropUncommitted (s : State) (p : RGroup → Bool) : State :=
  (List.range 64).foldl (fun s e => if (s.rg e).open_ ∧ p (s.rg e) then (s.dropStep e Status.dropped).runEngine e else s) s
/-- A TIM_SET that waits completes with a status. -/
def State.timSetEnd (s : State) (status : Nat) : State := { s with tim := { s.tim with setPending := none, setCstat := status } }
/-- MASTER_ELECTION: the winner is time and route master and goes on from its own count, which no step changes any more; a TIM_SET of a
master that lost is
CANCELLED, and a redraw starts again under the new master (16 R444). -/
def execMasterElection (cands : List Candidate) (s : State) : Out :=
  .next <|
    match s.winner cands with
    | none => s
    | some c =>
      let lost := s.hwk.masterAt.isSome && s.hwk.masterAt != some c.pos
      let s : State := { s with
        tim := { s.tim with
          master := c.self, sync := s.tim.sync || c.self, taken := s.tim.taken || c.self
          hops := if c.self ∧ !s.tim.master then 0 else s.tim.hops, ppsLock := s.tim.ppsLock && (!c.self || s.tim.master)
          holdover := s.tim.holdover && (!c.self || s.tim.master), ppsGood := if c.self && s.tim.master then s.tim.ppsGood else 0 }
        hwk := { s.hwk with master := c.self, masterAt := some c.pos, computing := c.self && !s.hwk.failed.isEmpty } }
      let ctl := if s.hwk.pos.d = 0 then some c.pos else ((cands.filterMap s.ownCandidate).find? (fun m => m.pos.d = 0)).map (·.pos)
      let lost0 := s.hwk.masterOf0.isSome && ctl.isSome && s.hwk.masterOf0 != ctl
      let s : State := { s with hwk := { s.hwk with masterOf0 := if ctl.isSome then ctl else s.hwk.masterOf0 } }
      let s := s.dropUncommitted (fun g => if g.tw then lost0 else lost)
      let s := if lost ∧ !c.self then s.hwk.failed.foldl State.sendReport s else s
      if !c.self ∧ s.tim.setPending.isSome then s.timSetEnd Status.cancelled else s

/-! ### TIM_SET (16 R440) -/

/-- TIM_SET on the time master: STATE while a partition of a module of the District is not Free; else it waits for the next second. What
the other modules hold is no state of this one: it is a free value (assumption 118). -/
def timSet (path : Path) (v : Word) (s : State) : State :=
  if !isOperator path ∨ !s.reach path then s
  else if !s.tim.master ∨ !s.served2 ∨ !s.allFree then { s with tim := { s.tim with setCstat := Status.state } }
  else
    let (others, s) := s.fresh
    if others.getLsbD 0 then { s with tim := { s.tim with setCstat := Status.state } }
    else { s with tim := { s.tim with
    setPending := some (bits v.toNat 0 48, bit v.toNat 48, (s.tim.now / 1000000000 + 1) * 1000000000) } }
def execTimSet (path : Path) (v : Word) (s : State) : Out := .next (timSet path v s)
/-- A new fabric time, and whether it counts TAI. -/
def Tim.put (x : Tim) (sec : Nat) (tai : Bool) : Tim :=
  let now := sec * 1000000000 % 2 ^ 64
  { x with now, prev := now - 1, tai }
/-- TIM_SET_APPLY: at the second boundary the new time is in force, on the master and on every other module, to which the master's TIME
packets have brought it: `order` is what they say. -/
def execTimSetApply (order : Option (Nat × Bool)) (s : State) : Out :=
  .next <|
    if s.tim.master then
      (match s.tim.setPending with
       | none => s
       | some (sec, tai, boundary) =>
         if s.tim.now < boundary then s else ({ s with tim := s.tim.put sec tai }).timSetEnd Status.ok)
    else match order with
      | some (sec, tai) => { s with tim := s.tim.put sec tai }
      | none => s

/-! ### TIM_CFG (16 R445) -/

/-- TIM_CFG as it reads. -/
def Tim.cfg (x : Tim) : Nat :=
  b2n x.cand + place 1 x.prio + place 9 (b2n x.ppsOut) + place 10 (b2n x.refOut) + place 11 x.ppsW + place 20 (b2n x.ppsIn)
/-- A value written to TIM_CFG: a PPSW outside 1 to 500 leaves that field unchanged. -/
def Tim.putCfg (x : Tim) (v : Nat) : Tim :=
  let w := bits v 11 9
  { x with cand := bit v 0, prio := bits v 1 8, ppsOut := bit v 9, refOut := bit v 10, ppsW := if 1 ≤ w ∧ w ≤ 500 then w else x.ppsW,
           ppsIn := bit v 20 }

/-! ### PPS_IN, 1PPS_OUT and PTP (16 R441-R443) -/

/-- PPS_IN_EDGE: the offset in ns of the master's second boundary from the edge is slewed out; 16 edges in a row under 20 ns lock. -/
def execPpsInEdge (offset : Int) (s : State) : Out :=
  .next <|
    if !s.tim.master ∨ !s.tim.ppsIn then s
    else
      let n := if offset.natAbs < 20 then s.tim.ppsGood + 1 else 0
      { s with tim := { s.tim with slew := -offset, ppsGood := n, ppsLock := s.tim.ppsLock || decide (16 ≤ n), holdover := false } }
/-- PPS_IN_LOSS. -/
def execPpsInLoss (s : State) : Out :=
  .next <|
    if !s.tim.master ∨ !s.tim.ppsIn then s
    else { s with tim := { s.tim with ppsLock := false, holdover := true, ppsGood := 0 } }

/-- clockClass of the grandmaster: 6 locked on the PTP timescale, 7 in holdover, 13 on ARB while synchronised, 248 before. -/
def Tim.clockClass (x : Tim) : Nat :=
  if x.tai ∧ x.ppsLock then 6
  else if x.tai ∧ x.holdover then 7
  else if x.sync ∨ x.master then 13
  else 248
/-- The enabled transports: bit 0 Layer 2, bit 1 UDP over IPv4, bit 2 UDP over IPv6. -/
def Tim.transports (x : Tim) : Nat := b2n x.ptpL2 + 2 * b2n x.ptp4 + 4 * b2n x.ptp6
/-- PTP is served: enabled, on some transport, while the module lives (16 R443). -/
def State.ptpServes (s : State) : Bool := s.tim.ptpEn && decide (s.tim.transports ≠ 0) && s.alive
/-- An Announce is due: logAnnounceInterval 0 is one each second. -/
def Tim.announces (x : Tim) : Bool := match x.ptpAnn with
  | some t => decide (t + 1000000000 ≤ x.up)
  | none => true
/-- PTP_SYNC: a one-step Sync with the time of its sending, and an Announce where one is due. What leaves the module is shown as the answer
(assumption 3): the sequence, the time, the domain, clockClass, the UTC offset where the timescale is PTP, the timescale, priority1, the
transports, clockIdentity, logSyncInterval, whether an Announce goes too, and logAnnounceInterval. -/
def execPtpSync (s : State) : Out :=
  .next <|
    if !s.ptpServes then s
    else
      let x := s.tim
      let w (n : Nat) : Word := BitVec.ofNat 64 n
      ({ s with tim := { x with ptpSeq := (x.ptpSeq + 1) % 65536, ptpLast := some (x.ptpSeq, x.now)
                                ptpAnn := if x.announces then some x.up else x.ptpAnn } }).answer Status.ok
        [w x.ptpSeq, w x.now, w x.ptpDomain, w x.clockClass, w (if x.tai then x.ptpUtc else 0), w (b2n x.tai), w x.ptpPrio1, w x.transports, Config.uid,
         w x.ptpLog, w (b2n x.announces), w 0]
/-- PTP_DELAY_REQ: a Delay_Resp with the time of the request's arrival, to a request of the module's domain on an enabled transport. -/
def execPtpDelayReq (req : PtpReq) (s : State) : Out :=
  .next <|
    if !s.ptpServes ∨ req.domain ≠ s.tim.ptpDomain ∨ !bit s.tim.transports req.transport then s
    else s.answer Status.ok [BitVec.ofNat 64 req.seq, BitVec.ofNat 64 s.tim.now, BitVec.ofNat 64 s.tim.ptpDomain]

/-- The 10 MHz reference rises: fabric time has come to or past a multiple of 100 ns, while TIM_CFG.REFOUT is 1 (16 R442). -/
def Tim.refRises (x : Tim) : Bool := x.refOut && x.now / 100 != x.prev / 100
/-- PPS_OUT_EDGE: 1PPS_OUT rises within 1 ns of a whole second and falls PPSW ms later. -/
def execPpsOutEdge (high : Bool) (s : State) : Out :=
  .next <|
    let ns := s.tim.now % 1000000000
    if high then { s with tim := { s.tim with ppsHigh := s.tim.ppsHigh || (s.tim.ppsOut && s.mon.switch && decide (ns ≤ 1 ∨ 999999999 ≤ ns)) } }
    else if s.tim.ppsHigh ∧ s.tim.ppsW * 1000000 ≤ ns then { s with tim := { s.tim with ppsHigh := false } }
    else s

end Sys2Proof.Machine
end

