-- ==== Sys2Proof/Machine/Startup.lean ====
section
/-! DEFINITION. The start-up sequence (14 R376, R377, R385, R392; 17 R447-R455, R461, R462; 18 R465, R467, R477, R483): POWER_ON, ROM,
OTP, CHRYSALIS_TEST, FIRMWARE, IDENTITY, RAILS, MEMORY_TEST, LOGIC_TEST, STACKS, KEYS, AQUIFER, READY, PERST_RELEASE. -/

namespace Sys2Proof.Machine

/-! ### Phases and failures (17 R447, R450) -/

/-- A phase of the sequence does its work where the module is in it; it then goes on to the next. After a thermal trip none runs (16
R430). -/
def inPhase (p : Phase) (s : State) (f : State) : Out := .next (if s.alive ∧ !s.mon.tripped ∧ s.mon.phase = p then f else s)
def State.setPhase (s : State) (p : Phase) : State := { s with mon := { s.mon with phase := p } }
/-- A failure of the minimum management set: a Device-fatal record with FLAGS.BOOT, and Safe-Listen. -/
def State.bootFail (s : State) (status block : Nat) : State :=
  (s.report { Rec.mk' status Sev.devFatal block 0 with boot := true }).safeListen status
/-- The record of a fence made at start-up. -/
def State.bootFence (s : State) (status block inst : Nat) (loc1 : Nat := 0) : State :=
  s.report { Rec.mk' status Sev.corrected block inst 0xFF 0 loc1 with boot := true, fence := true }
/-- A section is fenced. -/
def State.fenceSec (s : State) (n : Nat) : State := s.setSec n { s.sec n with fenced := true }
/-- A bed that failed its test is no good bed. -/
def State.dropBed (s : State) (n b : Nat) : State :=
  let c := s.sec n
  s.setSec n { c with good := if bit c.good b then c.good - 2 ^ b else c.good }
/-- MON_SVC.WIDTH left by the lanes that failed: x16, x8, x4 or none. -/
def laneWidth (lanes : List Nat) : Nat :=
  if lanes.any (fun l => decide (l < 4)) then 3 else if lanes.any (fun l => decide (l < 8)) then 2 else if lanes.isEmpty then 0 else 1
/-- A unit that failed its test is fenced, with its record (17 R450). -/
def State.failUnit (s : State) (u : FailUnit) : State :=
  let s : State := { s with mon := { s.mon with fails := s.mon.fails ++ [u] } }
  match u with
  | .bed n b => (s.dropBed n b).bootFence Status.integrity Blk.sec n b
  | .passThrough n b => (s.dropBed n b).bootFence Status.integrity Blk.sec n b
  | .stack n timeout => (s.fenceSec (n / 2)).bootFence (if timeout then Status.timeout else Status.integrity) Blk.slu n
  | .sluice n => (s.fenceSec (n / 2)).bootFence Status.integrity Blk.slu n
  | .siphon n => (s.fenceSec n).bootFence Status.integrity Blk.sip n
  | .allocator n => (s.fenceSec n).bootFence Status.integrity Blk.sec n
  | .stu n => (s.fenceSec n).bootFence Status.integrity Blk.sec n
  | .syn => s.bootFence Status.integrity Blk.syn 0
  | .dma => s.bootFence Status.integrity Blk.idn 0
  | .headworks => s.bootFence Status.integrity Blk.hwk 0
  | .port n => ((s.enter n .fenced).setCstat n Status.linkDown).bootFence Status.integrity Blk.lnk n
  | .hostLanes lanes timeout =>
    let w := laneWidth lanes
    let st := if timeout then Status.timeout else Status.integrity
    let s : State := { s with mon := { s.mon with width := w } }
    if w = 3 then (let t := s.bootFail st Blk.idn; { t with mon := { t.mon with hostUp := false } })
    else if w = 0 then s else s.bootFence st Blk.idn 0
  | .monarch => s.bootFail Status.integrity Blk.mon
  | .vault => s.bootFail Status.integrity Blk.chr
/-- The units that a test found failing, and the next phase where the module still starts. -/
def State.tested (s : State) (fails : List FailUnit) (p : Phase) : State :=
  let s := fails.foldl State.failUnit s
  if s.starting then s.setPhase p else s

/-! ### The first phases -/

/-- POWER_ON: the input rises into range with EN high, and the switch closes (18 R465). -/
def execPowerOn (s : State) : Out :=
  .next (if s.mon.en ∧ !s.mon.switch ∧ !s.mon.overvolt then s.powerUp .powerOn else s)

/-- The straps: X, Y, Z, District and the odd parity bit; sound where the parity is odd and z at most 16 (18 R466, R467). -/
def strapsSound (w : Nat) : Bool :=
  decide (((List.range 15).filter (bit w)).length % 2 = 1) && decide (bits w 8 5 ≤ 16)
def strapPos (w : Nat) : Pos := ⟨bits w 0 4, bits w 4 4, bits w 8 5, bits w 13 1⟩
/-- The position of the module: a module at z = 16 is a spare, in Relay until a route commit gives it a coordinate (15 R410), any other
holds its own coordinate (09 R241). -/
def State.placeAt (s : State) (p : Pos) : State :=
  { s with
    join := { s.join with phase := if p.z = 16 then .relay else s.join.phase }
    hwk := { s.hwk with pos := p, role := if p.z = 16 then .spare else .active, coord := if p.z = 16 then none else some (coordOf p) } }
/-- Straps that are not sound: a record, and every port held Fenced with status LINK_DOWN. -/
def State.strapFail (s : State) : State :=
  let s : State := { s with mon := { s.mon with strapsOk := false } }
  let s := (List.range 48).foldl (fun s n => (s.enter n .fenced).setCstat n Status.linkDown) s
  s.report { Rec.mk' Status.bounds Sev.corrected Blk.boot 0 with boot := true }
/-- ROM: a digest that does not match leaves the module silent. -/
def execRom (digestOk : Bool) (digest : Digest) (straps : Nat) (s : State) : Out :=
  inPhase .rom s <|
    if !digestOk then { s with mon := { s.mon with silent := true } }
    else
      let s : State := { s with chr := { s.chr with digests := [digest] } }
      let s := if strapsSound straps then s.placeAt (strapPos straps) else s.strapFail
      s.setPhase .otp

/-- A word that holds 17 to 47 ones (14 R375). -/
def otpPartial (w : BitVec 64) : Bool := decide (17 ≤ ones w ∧ ones w ≤ 47)
/-- LCS word i is clear (14 R375). -/
def Otp.unreached (o : Otp) (i : Nat) : Bool := decide (ones (o.lcs.getD i 0) ≤ 16)
/-- The patterns that only a fault can produce (14 R376). -/
def Otp.faulty (o : Otp) : Bool :=
  (List.range 3).any (fun i => (otpPartial (o.lcs.getD i 0) || otpPartial (o.pm.getD i 0)) && !o.marked i) ||
    (o.reached 1 && o.unreached 0) || (o.reached 2 && (o.unreached 1 || o.unreached 0))
/-- A transition to Production (1) or End-of-life (2) whose mark is set and whose state word is not is done again (14 R377). -/
def Otp.resume (o : Otp) (i : Nat) : Otp :=
  if !o.marked i ∨ o.reached i then o
  else
    let o := if i = 1 then { o with owners := if o.owners.isEmpty then [Config.ownerHash 0] else o.owners, tlock := BitVec.allOnes 64 }
      else { o with rsa := BitVec.allOnes 384, rsb := BitVec.allOnes 384 }
    { o with lcs := setWord o.lcs i }
/-- The interrupted transition to Test is done again: a valid bank is used; else a fresh root secret from the TRNG goes into RSA, or into
RSB where RSA is not all zeros; none where neither bank is valid or blank (14 R377). -/
def State.resumeTest (s : State) : Option State :=
  let o := s.chr.otp
  if !o.marked 0 ∨ o.reached 0 then some s
  else
    let done (o : Otp) : Otp := { o with lcs := setWord o.lcs 0 }
    if o.secret.isSome then some (s.setOtp (done o))
    else if o.rsa ≠ 0 ∧ o.rsb ≠ 0 then none
    else
      let (r, s) := s.trng
      some (s.setOtp (done (if o.rsa = 0 then { o with rsa := rsBank r } else { o with rsb := rsBank r })))
/-- The lifecycle words after the interrupted transitions are done again; none for LC_FAULT. A module in Test or Production whose banks
are both invalid has no root secret, which the spec does not provide for: LC_FAULT as for the transition (DEDUCED, assumption 6). -/
def State.resumeOtp (s : State) : Option State :=
  match s.resumeTest with
  | none => none
  | some s =>
    let o := [1, 2].foldl Otp.resume s.chr.otp
    if (o.state = .test ∨ o.state = .production) ∧ o.secret.isNone then none
    else some { s with chr := { s.chr with otp := o, lcs := o.state } }
/-- The host port answers: PERST# is released and the OTP phase is over (17 R449). -/
def State.hostAnswers (s : State) : State :=
  { s with mon := { s.mon with hostUp := !s.mon.perst && !s.mon.tripped && decide (2 ≤ s.mon.phase.code) && s.mon.width != 3 } }
/-- OTP. -/
def execOtp (s : State) : Out :=
  inPhase .otp s <|
    if s.chr.otp.faulty then (s.bootFail Status.lcFault Blk.chr).hostAnswers
    else match s.resumeOtp with
      | none => (s.bootFail Status.lcFault Blk.chr).hostAnswers
      | some t => (t.setPhase .chrTest).hostAnswers
/-- PERST_RELEASE. -/
def execPerstRelease (s : State) : Out :=
  .next (if s.alive then ({ s with mon := { s.mon with perst := false } }).hostAnswers else { s with mon := { s.mon with perst := false } })
/-- CHRYSALIS_TEST: the known-answer tests and the TRNG start-up test. From then on every slot of the vault holds two independent random
shares (14 R384). -/
def execChrysalisTest (ok trngOk : Bool) (s : State) : Out :=
  inPhase .chrTest s <|
    if !ok then s.bootFail Status.integrity Blk.chr
    else if !trngOk then ({ s with chr := { s.chr with trngFailed := true } }).bootFail Status.trngFail Blk.chr
    else (s.dropKeys (List.range 256)).setPhase .firmware

/-! ### Firmware, identity, rails (17 R447, R448) -/

/-- A copy passes the ROM's checks: its signature, and its SVNMIN floor. -/
def copyPasses (floor : Nat) (c : FwCopy) : Bool := c.sigOk && decide (floor ≤ c.svn)
/-- A copy as boot flash holds it: an image that was committed, else what the ROM finds. -/
def flashCopy (l : Store Image) (i : Nat) (c : FwCopy) : FwCopy :=
  match l.find? (fun e => e.1 == i) with
  | some e => ⟨e.2.valid, e.2.svn, e.2.digest⟩
  | none => c
/-- The copy of an image that runs: A, else B with a record of A's failure; none where both fail. -/
def State.loadImage (s : State) (i : Nat) (a b : FwCopy) : State × Option (Bool × FwCopy) :=
  let a := flashCopy s.mon.imgA i a
  let b := flashCopy s.mon.imgB i b
  let floor := s.chr.otp.svnmin.getD i 0
  if copyPasses floor a then (s, some (false, a))
  else
    let s := s.report { Rec.mk' Status.denied Sev.corrected Blk.boot 0 with boot := true }
    (s, if copyPasses floor b then some (true, b) else none)
/-- The three images, in order. -/
def State.loadImages (s : State) : Nat → List (FwCopy × FwCopy) → State × Option (List (Bool × FwCopy))
  | _, [] => (s, some [])
  | i, (a, b) :: r =>
    match s.loadImage i a b with
    | (s, none) => (s, none)
    | (s, some x) => match State.loadImages s (i + 1) r with
      | (s, some l) => (s, some (x :: l))
      | (s, none) => (s, none)
/-- The stored configuration of boot flash in force (18 R477). -/
def State.loadStored (s : State) : State :=
  { s with pwr := { s.pwr with warn := s.mon.storedSag.1, rst := s.mon.storedSag.2 }, tim := s.tim.putCfg s.mon.storedTim }
/-- FIRMWARE: the copies of the Monarch, Chrysalis and microcode images. -/
def execFirmware (copies : List (FwCopy × FwCopy)) (s : State) : Out :=
  inPhase .firmware s <|
    if copies.length ≠ 3 then s
    else
      match s.loadImages 0 copies with
      | (s, none) => s.bootFail Status.denied Blk.boot
      | (s, some l) =>
        let s : State := { s with
          chr := { s.chr with digests := s.chr.digests.take 1 ++ l.map (·.2.digest), svns := Config.romSvn :: l.map (·.2.svn) }
          mon := { s.mon with fwb := l.any (·.1) } }
        s.loadStored.setPhase .identity
/-- IDENTITY: no DIK exists in Blank and End-of-life (14 R378). -/
def execIdentity (s : State) : Out :=
  inPhase .identity s <|
    match s.chr.lcs with
    | .test | .production => s.deriveDik.deriveAk.setPhase .rails
    | _ => s.setPhase .rails
/-- RAILS: the rails are up, and every bed is clocked at point 8. -/
def execRails (s : State) : Out :=
  inPhase .rails s <|
    ({ s with mon := { s.mon with rails := true }
              pwr := { s.pwr with point := 8, bedPoint := (List.range 160).foldl (fun m b => sset 0 m b 9) [] } }).setPhase .memTest

/-! ### The tests (17 R450, R455, R462) -/

/-- MEMORY_TEST: it pauses while THERMAL_HARD is in force. -/
def execMemoryTest (fails : List FailUnit) (s : State) : Out :=
  inPhase .memTest s <| if s.pwr.why Why.thermalHard then s else s.tested fails .logicTest
/-- Every bed is good but those that failed; the runtime list of VAON is applied, with a record for each bed; a section with fewer than 12
good beds is fenced, with its record. -/
def State.bedsTested (s : State) : State :=
  let failed := s.mon.fails.filterMap (fun u => match u with
    | .bed n b => some (n, b)
    | .passThrough n b => some (n, b)
    | _ => none)
  let s := (List.range 10).foldl (fun s n => s.setSec n { s.sec n with good := 65535, runf := 0 }) s
  let s := failed.foldl (fun s e => s.dropBed e.1 e.2) s
  let s := s.mon.fenceList.dedup.foldl (fun s e =>
    let c := s.sec e.1
    (s.setSec e.1 { c with runf := if bit c.runf e.2 then c.runf else c.runf + 2 ^ e.2 }).bootFence Status.poisoned Blk.sec e.1 e.2) s
  (List.range 10).foldl (fun s n =>
    if s.goodBeds n < 12 ∧ !(s.sec n).fenced then (s.fenceSec n).bootFence Status.integrity Blk.sec n else s) s
/-- LOGIC_TEST. -/
def execLogicTest (fails : List FailUnit) (s : State) : Out :=
  inPhase .logicTest s <|
    if s.pwr.why Why.thermalHard then s
    else
      let t := s.tested fails .stacks
      if t.starting then t.bedsTested else t
/-- STACKS. -/
def execStacks (fails : List FailUnit) (s : State) : Out := inPhase .stacks s (s.tested fails .keys)

/-! ### Keys, Aquifer, Ready (08 R236; 07 R194; 17 R447, R451) -/

/-- A sluice takes the keys derived from the Reservoir key, clears its root and group-rewrites every line of its stack: each line is
zeros under the new key with MAJOR 1 and MINOR 0, and none is listed (08 R217, R236; 14 R381; assumptions 46, 99). -/
def State.initSluice (s : State) (n : Nat) : State :=
  let s := s.zeroRes (n / 2) 0 winSpan
  let (k1, s) := s.split (s.memKey 4 "D20 RES XTS1")
  let (k2, s) := s.split (s.memKey 4 "D20 RES XTS2")
  let (km, s) := s.split (s.memKey 4 "D20 RES MAC")
  s.setSlu n { ({} : Sluice) with
    k1, k2, km
    keyed := true, ready := true, initpm := 1000, eyes := (s.slu n).eyes }
/-- KEYS: the Reservoir key and the Aquifer key are made. -/
def execKeys (fails : List FailUnit) (s : State) : Out :=
  inPhase .keys s <|
    let s := s.tested fails .keys
    if !s.starting ∨ s.chr.trngFailed then s
    else
      let (rk, s) := s.trng
      let s := s.putKey 4 rk { usage := Usage.derive }
      let (ak, s) := s.trng
      let s := s.putKey 5 ak { usage := Usage.derive }
      let (k1, s) := s.split (s.memKey 5 "D20 AQF XTS1")
      let (k2, s) := s.split (s.memKey 5 "D20 AQF XTS2")
      let (km, s) := s.split (s.memKey 5 "D20 AQF MAC")
      let s : State := { s with aqf := { s.aqf with k1, k2, km } }
      ((List.range 20).filter (fun n => !(s.sec (n / 2)).fenced)).foldl State.initSluice s
/-- AQUIFER: it runs from the Rails phase onward, beside the others. `ports` CXL ports trained, with `gib` GiB behind them. -/
def execAquifer (ports gib : Nat) (ok : Bool) (s : State) : Out :=
  .next <|
    if !s.alive ∨ !s.starting ∨ !s.mon.rails then s
    else
    let s : State := { s with mon := { s.mon with aqfDone := true } }
    if !ok then ({ s with aqf := { s.aqf with ports := 0, gib := 0 } }).bootFence Status.integrity Blk.aqf 0
    else
      let n := min ports 2
      let s : State := { s with aqf := { s.aqf with ports := n, gib := if n = 0 then 0 else gib } }
      if n < 2 then s.bootFence Status.timeout Blk.aqf 0 else s

/-- The services that the surviving units support (17 R451). -/
def State.services (s : State) : Mon :=
  let m := s.mon
  let lacks (p : FailUnit → Bool) : Bool := m.fails.any p
  let sections := (List.range 10).foldl (fun a n => if (s.sec n).fenced then a else a + 2 ^ n) 0
  let compute := !lacks (fun u => match u with
    | .syn | .dma | .passThrough _ _ => true
    | _ => false) && sections != 0
  let fabric := !lacks (· == .headworks)
  { m with mgmt := true, compute, fabric, aquifer := compute && decide (0 < s.aqf.ports), sections }
/-- Monarch writes the operator's District plan into HWK_SLOT of every port (09 R266): a tenancy and SEALED for each slot. -/
def State.setSlots (s : State) (plan : List (Nat × Bool)) : State :=
  let tbl := (List.range 64).foldl (fun m i =>
    let e := plan.getD i (0, false)
    sset (0, false) m i (if e.2 then (e.1 % 65536, true) else (0, false))) []
  (List.range 48).foldl (fun s n => s.setLink n { s.link n with slots := tbl }) s
/-- READY, once the keys stand and the Aquifer phase has ended: MON_SVC is set, the District plan is written to the ports (assumption 63),
the host's VF Enable takes effect from here on (assumption 126), and every port with a stored enable starts training. -/
def execReady (plan : List (Nat × Bool)) (s : State) : Out :=
  inPhase .keys s <|
    if !(s.vslot 4).valid ∨ !s.mon.aqfDone then s
    else
      let s : State := { s with mon := { s.services with phase := .ready, vfEn := true, bootMs := (s.tim.up - s.mon.startAt) / 1000000 } }
      let s := s.setSlots plan
      if !s.mon.fabric then s
      else (List.range 48).foldl (fun s n => if (s.link n).enabled ∧ (s.link n).state = .off ∧ !s.held n then s.tryEnable n else s) s

end Sys2Proof.Machine
end

