-- ==== Sys2Proof/Machine/Regs.lean ====
section
/-! DEFINITION. The register map (00 R6-R14): where each register lies, which path sees it (06 R178; 08 R237; 09 R273; 10 R298; 11
R328; 12 R335; 13 R368, R374; 15 R419; 16 R445; 17 R449, R452, R460; 18 R469, R475), what it reads, and what a read clears. -/

namespace Sys2Proof.Machine

/-! ### Names and places -/

/-- The registers of BAR0. `c` is a global core, `n` a section, sluice or port, `p` a partition, `e` an entry, `w` a word. -/
inductive CsrName where
  | idnCap (i : Nat) | idnAqsqb | idnAqcqb | idnAqctl | idnStatus | idnPerf (o : Nat) | idnPart (p : Nat) | idnCoc
  | monBoot | monSvc | monReset | monCmd | monJoin | monFwctl | monFwbuf (w : Nat)
  | chrCtrl | chrReq (w : Nat) | chrRsp (w : Nat)
  | timNow | timStatus | timCfg | timPtp | timSet
  | pwrCap | pwrStatus | pwrThr (k : Nat) | pwrTemp | pwrSag | pwrSleep
  | secCstat (c : Nat) | secMxcnt (c : Nat) | secVccnt (c : Nat) | secVcwatch (c : Nat)
  | secCensus (n e w : Nat) | secCenstag (n e : Nat) | secAlloc (n : Nat) | secBeds (n : Nat)
  | sluStatus (n : Nat) | sluCtrstat (n : Nat) | sluMaint (n : Nat) | sluTags (n : Nat) | sluErr (n : Nat)
  | sluPoison (n e : Nat) | sluEye (n ch : Nat)
  | sipSched (n k : Nat) | sipStall (n : Nat) | aqfCatch (n : Nat)
  | lnkStatus (n : Nat) | lnkCtrl (n : Nat) | lnkCnt (n : Nat) | hwkDrop (n : Nat) | hwkSlot (n e : Nat)
  | hwkRoute | hwkTokens | hwkRgcfg (e : Nat) | hwkRgstep (e : Nat) | hwkRgcnt (e : Nat) | hwkRgtok (e : Nat)
  | synQuota0 (p : Nat) | synQuota1 (p : Nat) | synUse0 (p : Nat) | synUse1 (p : Nat) | synStag (p : Nat) | synStagst (p : Nat)
  | synCnt (p : Nat) | synSnap (p k : Nat) | synPool0 | synPool1
  | rasStat | rasRec (e w : Nat) | rasFlash (e w : Nat)
  deriving DecidableEq, Repr

/-- The blocks of the CSR window (00 R9). -/
inductive Win where
  | idn | mon | chr | tim | pwr | sec (n : Nat) | slu (n : Nat) | sip (n : Nat) | aqf | lnk (n : Nat) | hwk | rg | syn | ras
  deriving DecidableEq, Repr

/-- The block window that an offset lies in, and the offset within it. -/
def winAt (off : Nat) : Option (Win × Nat) :=
  if off < 0x100000 then some (.idn, off)
  else if off < 0x200000 then some (.mon, off - 0x100000)
  else if off < 0x300000 then some (.chr, off - 0x200000)
  else if off < 0x400000 then some (.tim, off - 0x300000)
  else if off < 0x500000 then some (.pwr, off - 0x400000)
  else if off < 0x1000000 then none
  else if off < 0x1000000 + 10 * 0x100000 then some (.sec ((off - 0x1000000) / 0x100000), off % 0x100000)
  else if off < 0x2000000 then none
  else if off < 0x2000000 + 20 * 0x40000 then some (.slu ((off - 0x2000000) / 0x40000), off % 0x40000)
  else if off < 0x2800000 then none
  else if off < 0x2800000 + 10 * 0x10000 then some (.sip ((off - 0x2800000) / 0x10000), off % 0x10000)
  else if off < 0x2900000 then none
  else if off < 0x2A00000 then some (.aqf, off - 0x2900000)
  else if off < 0x3000000 then none
  else if off < 0x3000000 + 48 * 0x10000 then some (.lnk ((off - 0x3000000) / 0x10000), off % 0x10000)
  else if off < 0x3310000 then some (.hwk, off - 0x3300000)
  else if off < 0x3320000 then some (.rg, off - 0x3310000)
  else if off < 0x3800000 then none
  else if off < 0x3C00000 then some (.syn, off - 0x3800000)
  else if off < 0x4000000 then some (.ras, off - 0x3C00000)
  else none

/-- Entry i of an array of n registers of a stride, at an offset from its first. -/
def arr (off base stride n : Nat) (f : Nat → CsrName) : Option CsrName :=
  if base ≤ off ∧ (off - base) % stride = 0 ∧ (off - base) / stride < n then some (f ((off - base) / stride)) else none
/-- The first of several that is one. -/
def firstSome : List (Option CsrName) → Option CsrName
  | [] => none
  | some x :: _ => some x
  | none :: r => firstSome r
/-- The register at an offset of a window. -/
def regIn (w : Win) (o : Nat) : Option CsrName :=
  let at_ (a : Nat) (x : CsrName) : Option CsrName := if o = a then some x else none
  match w with
  | .idn => firstSome [arr o 0 8 9 .idnCap, at_ 0x1000 .idnAqsqb, at_ 0x1008 .idnAqcqb, at_ 0x1010 .idnAqctl, at_ 0x1018 .idnStatus,
      at_ 0x1100 .idnCoc, arr o 0x2000 8 10 .idnPerf, arr o 0x3000 8 10 .idnPart]
  | .mon => firstSome [at_ 0 .monBoot, at_ 8 .monSvc, at_ 0x10 .monReset, at_ 0x18 .monCmd, at_ 0x400 .monJoin, at_ 0x800 .monFwctl,
      arr o 0x1000 8 512 .monFwbuf]
  | .chr => firstSome [at_ 0 .chrCtrl, arr o 0x2000 8 1024 .chrReq, arr o 0x4000 8 1024 .chrRsp]
  | .tim => firstSome [at_ 0 .timNow, at_ 8 .timStatus, at_ 0x10 .timCfg, at_ 0x18 .timPtp, at_ 0x20 .timSet]
  | .pwr => firstSome [at_ 0 .pwrCap, at_ 8 .pwrStatus, at_ 0x10 (.pwrThr 0), at_ 0x18 (.pwrThr 1), at_ 0x20 .pwrTemp, at_ 0x28 .pwrSag,
      at_ 0x30 .pwrSleep]
  | .sec n => firstSome [arr o 0x40000 8 256 (fun k => .secCstat (256 * n + k)), arr o 0x41000 8 256 (fun k => .secMxcnt (256 * n + k)),
      arr o 0x42000 8 256 (fun k => .secVccnt (256 * n + k)), arr o 0x43000 8 256 (fun k => .secVcwatch (256 * n + k)),
      (if 0x50000 ≤ o ∧ o < 0x70000 ∧ o % 8 = 0 then
        (let k := (o - 0x50000) % 0x200 / 8
         let e := (o - 0x50000) / 0x200
         if k < 62 then some (.secCensus n e k) else if k = 62 then some (.secCenstag n e) else none) else none),
      at_ 0x70000 (.secAlloc n), at_ 0x70008 (.secBeds n)]
  | .slu n => firstSome [at_ 0 (.sluStatus n), at_ 8 (.sluCtrstat n), at_ 0x10 (.sluMaint n), at_ 0x18 (.sluTags n), at_ 0x20 (.sluErr n),
      arr o 0x1000 8 256 (.sluPoison n), arr o 0x30000 8 32 (.sluEye n)]
  | .sip n => firstSome [arr o 0 0x10 8 (.sipSched n), at_ 0x100 (.sipStall n)]
  | .aqf => arr o 0 8 10 .aqfCatch
  | .lnk n => firstSome [at_ 0 (.lnkStatus n), at_ 8 (.lnkCtrl n), at_ 0x10 (.lnkCnt n), at_ 0x18 (.hwkDrop n), arr o 0x100 8 64 (.hwkSlot n)]
  | .hwk => firstSome [at_ 0 .hwkRoute, at_ 8 .hwkTokens]
  | .rg => firstSome [arr o 0 0x40 64 .hwkRgcfg, arr o 8 0x40 64 .hwkRgstep, arr o 0x10 0x40 64 .hwkRgcnt, arr o 0x18 0x40 64 .hwkRgtok]
  | .syn =>
    let p := o / 0x1000
    let k := o % 0x1000
    if p < 10 then firstSome [arr k 0 8 1 (fun _ => .synQuota0 p), arr k 8 8 1 (fun _ => .synQuota1 p), arr k 0x10 8 1 (fun _ => .synUse0 p),
      arr k 0x18 8 1 (fun _ => .synUse1 p), arr k 0x20 8 1 (fun _ => .synStag p), arr k 0x28 8 1 (fun _ => .synStagst p),
      arr k 0x30 8 1 (fun _ => .synCnt p), arr k 0x400 8 128 (.synSnap p)]
    else firstSome [at_ 0xA000 .synPool0, at_ 0xA008 .synPool1]
  | .ras => firstSome [at_ 0 .rasStat,
      (if 0x10000 ≤ o ∧ o < 0x50000 ∧ o % 8 = 0 then some (.rasRec ((o - 0x10000) / 64) ((o - 0x10000) % 64 / 8)) else none),
      (if 0x60000 ≤ o ∧ o < 0x61000 ∧ o % 8 = 0 then some (.rasFlash ((o - 0x60000) / 64) ((o - 0x60000) % 64 / 8)) else none)]

/-! ### Who sees what -/

/-- The function whose window a path reads: PF0's for SMBus and the management Ethernet. -/
def pathFn : Path → Nat
  | .vf k => k
  | _ => 0
/-- A section belongs to the partition of VF k. -/
def State.vfOwns (s : State) (k n : Nat) : Bool := decide (1 ≤ k) && decide (s.secPart n = some (k - 1))
/-- The census registers of a partition: not where its compact's egress forbids (13 R368). -/
def State.censusOpen (s : State) (k : Nat) : Bool :=
  match s.entryOf (k - 1) with
  | some m => m.egress != Egress.declared
  | none => true
/-- A register that VF k sees for its own partition. -/
def State.vfSees (s : State) (k : Nat) : CsrName → Bool
  | .idnPart _ => false
  | .idnCap _ | .idnAqsqb | .idnAqcqb | .idnAqctl | .idnStatus | .idnPerf _ | .idnCoc => true
  | .monBoot | .monSvc | .monReset => true
  | .chrCtrl | .chrReq _ | .chrRsp _ => true
  | .timNow | .timStatus => true
  | .secCstat c | .secMxcnt c | .secVccnt c | .secVcwatch c => s.vfOwns k (coreSec c)
  | .secCensus n _ _ | .secCenstag n _ => s.vfOwns k n && s.censusOpen k
  | .secAlloc n | .secBeds n => s.vfOwns k n
  | .sluStatus n | .sluCtrstat n | .sluMaint n | .sluTags n | .sluErr n | .sluPoison n _ | .sluEye n _ => s.vfOwns k (n / 2)
  | .sipSched n _ | .sipStall n | .aqfCatch n => s.vfOwns k n
  | .synQuota0 p | .synQuota1 p | .synUse0 p | .synUse1 p | .synStag p | .synStagst p | .synCnt p | .synSnap p _ => p + 1 == k
  | .synPool0 | .synPool1 => true
  | .rasStat => true
  | .rasRec e _ => match sget none s.ras.slots e with
    | some r => r.part + 1 == k
    | none => false
  | _ => false
/-- A register that PF0 sees: not the census, the detector and the cocoon register of a tenant. -/
def pfSees : CsrName → Bool
  | .secCensus _ _ _ | .secCenstag _ _ | .synStag _ | .synStagst _ | .synSnap _ _ | .idnCoc => false
  | _ => true
/-- The blocks that SMBus and the management Ethernet serve. -/
def isMonRas : Win → Bool
  | .mon | .ras => true
  | _ => false
def isPwrTim : Win → Bool
  | .pwr | .tim => true
  | _ => false
/-- A read finds the register: before Ready only IDN, MON and RAS read, in Safe-Listen only MON and RAS (17 R449, R452). -/
def State.sees (s : State) (path : Path) (w : Win) (r : CsrName) : Bool :=
  s.reach path &&
  (isMonRas w || (if s.starting then w == .idn else s.mon.phase != .safeListen)) &&
  (match path with
    | .pf0 => pfSees r
    | .vf k => s.vfSees k r
    | .smbus => isMonRas w && pfSees r
    | .eth => (isMonRas w || isPwrTim w) && pfSees r)

/-! ### Values -/

/-- Bits of SEC_CSTAT that a unit's wait sets. DESIGN CHOICE (log entry 90): a wait on a Pending runnel end shows as BLK_EMP at the intake
station and as BLK_CRD at another. -/
def waitBit (u : Stn) : Wait → Nat
  | .none => 0
  | .credit => 2 ^ 27
  | .tile => 2 ^ 28
  | .pending => if u = .intake then 2 ^ 28 else 2 ^ 27
  | .token _ _ => if u = .scalar then 0 else 2 ^ 29
  | .sync _ _ => 2 ^ 30
  | .hazard => if u = .scalar then 0 else 2 ^ 31
  | .queueFull => 0
  | .engine => 0
/-- Entries of a station's issue queue that have not started (02 R43). -/
def Core.qCount (k : Core) (u : Stn) : Nat := ((k.q u).filter (fun e => e.stage = .queued)).length
/-- SEC_CSTAT of a core (02 R70). RUN is 0 once a CT.HALT, a fault or a stop has ended dispatch (03 R104-R106). -/
def Core.cstat (k : Core) : Nat :=
  b2n (k.run && k.stop.isNone) + place 1 (b2n k.halt) + place 2 (k.qCount .intake) + place 7 (k.qCount .matrix) +
    place 12 (k.qCount .accmem) + place 17 (k.qCount .vector) + place 22 (k.qCount .outflow) +
    (Stn.scalar :: stations).foldl (fun a u => a ||| waitBit u (k.wait u)) 0 +
    place 32 k.fstat + place 40 (stnCode k.fstn) + place 43 k.fpc
/-- A core as SEC_CSTAT shows it: of a partition whose image is saved, whether it is halted and its fault, with no dispatch, no queue
entry and no wait (13 R360). -/
def State.observed (s : State) (c : Nat) : Core :=
  match (s.corePart c).bind (fun p => (s.part p).saved) with
  | some x => { sget {} x.cores c with run := false, queues := [], waits := [] }
  | none => s.core c
/-- SCHED states as coded. -/
def SchedState.code : SchedState → Nat
  | .idle => 0
  | .running => 1
  | .waiting => 2
  | .done => 3
  | .faulted => 4
def LinkState.code : LinkState → Nat
  | .off => 0
  | .training => 1
  | .keying => 2
  | .up => 3
  | .retraining => 4
  | .fenced => 5
def Role.code : Role → Nat
  | .active => 0
  | .spare => 1
  | .joining => 2
def RgState.code : RgState → Nat
  | .none => 0
  | .joining => 1
  | .active => 2
  | .closing => 3
def Tdi.code : Tdi → Nat
  | .unlocked => 0
  | .locked => 1
  | .run => 2
  | .error => 3
def QState.code : QState → Nat
  | .absent => 0
  | .running => 1
  | .halted => 2
def CocState.code : CocState → Nat
  | .idle => 0
  | .prepared => 1
  | .stopped => 2
  | .emptying => 3
  | .restoring => 4
def Sleep.code : Sleep → Nat
  | .running => 0
  | .entering => 1
  | .diapause => 2
  | .waking => 3
/-- MON_JOIN.PHASE: a spare relay shows Relay (15 R410). -/
def State.joinCode (s : State) : Nat :=
  match s.join.phase with
  | .notSpare => if s.hwk.role = .spare then 1 else 0
  | .relay => 1
  | .preparing => 2
  | .receiving => 3
  | .replaying => 4
  | .failed => 5
/-- The hottest of a list of readings and its lowest index. -/
def hottest (l : List Nat) : Nat × Nat :=
  (l.zipIdx).foldl (fun m e => if m.1 < e.1 then e else m) (l.headD 0, 0)
/-- Free entries of the SYN pools: the pool less what all partitions hold. -/
def synFree (pool : Nat) (use : Nat → Nat) : Nat := pool - ((List.range 10).map use).sum
/-- A signed value in n bits. -/
def signed (n : Nat) (x : Int) : Nat := (x % (2 : Int) ^ n).toNat
/-- Word w of a record. -/
def Rec.word (r : Rec) (w : Nat) : Nat := leNat (slice r.bytes (8 * w) 8)

/-- The value of a register with no field that a read clears, as a function's window shows it. -/
def State.csr (s : State) (f : Nat) : CsrName → Nat
  | .idnCap i => (s.capEntry (fnPart f) (match fnPart f with | some p => (s.part p).d12 | none => Config.pf0Mode.getLsbD 5) (s.capCoord f) i).getD 0
  | .idnAqsqb => (s.fn f).aqSqb.toNat
  | .idnAqcqb => (s.fn f).aqCqb.toNat
  | .idnAqctl => let x := s.fn f
    x.aqSqLog + place 4 x.aqCqLog + place 8 x.aqVec + place 14 (b2n x.aqEn) + place 15 (s.queue f 0).state.code
  | .idnStatus =>
    let open_ := ((List.range 16).filter (fun c => (s.ctx f c).state ≠ .free)).foldl (fun a c => a + 2 ^ c) 0
    if f = 0 then 4 + place 7 open_
    else (s.fn f).tdi.code + place 2 (b2n ((s.part (f - 1)).state != .free)) + place 3 (f - 1) + place 7 open_
  | .idnPart p => s.idnPart p
  | .idnCoc => match fnPart f with
    | none => 0
    | some p =>
      let x := s.part p
      let hold := s.join.held.contains p
      x.coc.code + place 3 (min x.cocPred (2 ^ 32 - 1)) + place 35 (x.ticket % 65536) + place 51 (b2n hold)
  | .monBoot => s.mon.phase.code + place 4 s.mon.fstat + place 12 s.mon.fphase + place 16 (b2n s.mon.fwb) + place 17 (s.mon.bootMs % 2 ^ 23)
  | .monSvc => b2n s.mon.mgmt + place 1 (b2n s.mon.compute) + place 2 (b2n s.mon.fabric) + place 3 (b2n s.mon.aquifer) +
      place 4 s.mon.sections + place 14 s.mon.width
  | .monReset => s.mon.cause + place 3 s.mon.resets
  | .monCmd => place 2 s.mon.cmdCstat
  | .monJoin => s.joinCode + place 3 (b2n s.join.twinHold) + place 4 (min s.join.predHold (2 ^ 32 - 1)) + place 36 s.join.prog +
      place 46 s.join.fstat
  | .monFwctl => place 14 s.mon.fwCstat + place 22 (b2n s.mon.fwBusy) + place 23 s.mon.fwProg
  | .chrCtrl => let m := (s.fn f).mbox
    place 1 (b2n m.busy) + place 2 (b2n m.done) + place 3 m.status + place 11 (b2n m.irqen) + place 12 m.vector
  | .chrReq w => (sget 0 (s.fn f).mbox.req w).toNat
  | .chrRsp w => (sget 0 (s.fn f).mbox.rsp w).toNat
  | .timNow => s.tim.now
  | .timStatus => let x := s.tim
    b2n x.master + place 1 (b2n x.sync) + place 2 (b2n x.ppsLock) + place 3 (b2n x.holdover) + place 4 (b2n x.tai) + place 5 x.hops +
      place 10 (signed 16 x.offset) + place 26 x.upPort
  | .timCfg => s.tim.cfg
  | .timPtp => let x := s.tim
    b2n x.ptpEn + place 1 x.ptpDomain + place 8 (b2n x.ptpL2) + place 9 (b2n x.ptp4) + place 10 (b2n x.ptp6) + place 11 x.ptpLog +
      place 15 x.ptpUtc + place 23 x.ptpPrio1
  | .timSet => place 49 s.tim.setCstat
  | .pwrCap => s.pwr.cap + place 12 (b2n s.pwr.boost) + place 13 s.pwr.cstat
  | .pwrStatus => let x := s.pwr
    x.limit + place 12 x.est + place 24 x.meas + place 36 x.point + place 40 (b2n x.boosted) + place 41 x.reasons + place 49 (b2n x.calClamp)
  | .pwrTemp =>
    let j := hottest s.pwr.junctions
    let t := hottest s.pwr.stacks
    j.1 % 256 + place 8 j.2 + place 14 (t.1 % 256) + place 22 t.2 + place 27 (s.pwr.inlet % 2048) + place 38 (s.pwr.outlet % 2048)
  | .pwrSag => s.pwr.warn + place 9 s.pwr.rst + place 18 (b2n s.pwr.lock)
  | .pwrSleep => s.pwr.sleep.code + place 4 s.pwr.sleepCstat
  | .secCstat c => (s.observed c).cstat
  | .secCenstag n e => let x := sget {} (s.sec n).census e; x.tag + place 16 (b2n x.valid)
  | .secAlloc n =>
    let c := s.sec n
    let lens := c.runs.map (fun r => r.2 - r.1)
    let own := (s.secPart n).isSome
    (if own then lens.sum + place 22 (lens.foldl max 0) else 0) + place 44 c.objects + place 57 (b2n (!c.scrub.isEmpty))
  | .secBeds n => let c := s.sec n; (c.good ^^^ (c.good &&& c.runf)) + place 16 c.runf + place 32 (b2n c.fenced)
  | .sluStatus n =>
    let x := s.slu n
    b2n x.keyed + place 1 (b2n x.ready) + place 2 x.initpm + place 12 x.part + place 16 (b2n x.assigned) + place 17 (b2n x.scrub)
  | .sluTags n =>
    let x := s.slu n
    x.freeTags + place 11 x.heldTags + place 22 x.engineTags
  | .sluPoison n e => match (s.slu n).poison[e]? with
    | some p => 1 + place 1 (b2n p.subtree) + place 2 p.level + place 4 p.index
    | none => 0
  | .sipSched n k => let x := (s.sec n).sched k
    x.state.code + place 3 (if x.state = .done then x.index - 1 else x.index) + place 19 x.fstat + place 27 (x.pos % 2 ^ 32)
  | .lnkStatus n => let l := s.link n
    l.state.code + place 3 l.peerPort + place 9 l.px + place 13 l.py + place 17 l.pz + place 22 l.pdist + place 23 l.margin + place 28 l.retrains
  | .lnkCtrl n => place 8 (s.link n).cstat
  | .hwkSlot n e => let x := sget (0, false) (s.link n).slots e; (if x.2 then x.1 else 0) + place 16 (b2n x.2)
  | .hwkRoute => let x := s.hwk
    x.version + place 16 (b2n x.shadow.isSome) + place 17 (b2n x.master) + place 18 x.role.code + place 20 x.pos.x + place 24 x.pos.y +
      place 28 x.pos.z + place 33 x.pos.d
  | .hwkTokens =>
    let sq := ((List.range 10).map s.secHeld).sum
    let red := ((List.range 64).map (fun e => entryTokens - (s.rg e).free)).sum
    (194560 - sq) + place 20 (389120 - red)
  | .hwkRgcfg e => let g := s.rg e
    g.gid + place 14 (b2n g.xr) + place 15 (b2n g.yr) + place 16 (b2n g.zr) + place 17 (b2n g.tw) + place 18 (b2n g.sign1) +
      place 19 (((g.srcs.map (·.part)).dedup).length) + place 23 (g.owner.getD 0) + place 27 (b2n g.owner.isSome) + place 28 g.state.code
  | .hwkRgstep e => let g := s.rg e; g.step % 2 ^ 32 + place 32 g.expect + place 49 (b2n g.nullC)
  | .synQuota0 p => (s.synPart p).quota0
  | .synQuota1 p => (s.synPart p).quota1
  | .synUse0 p => s.synUse p .fence + place 15 (s.synUse p .sem) + place 29 (s.synUse p .event)
  | .synUse1 p => s.synUse p .weir + place 7 (s.synUse p .fweir) + place 15 (s.synUse p .remote) + place 28 (s.hwaits p)
  | .synStag p => let x := s.synPart p; b2n x.en + place 1 (b2n x.abort) + place 2 x.window
  | .synSnap p k => match (s.synPart p).snaps[k / 2]? with
    | some (a, b) => (if k % 2 = 0 then a else b).toNat
    | none => 0
  | .synPool0 => synFree 16384 (s.synUse · .fence) + place 15 (synFree 8192 (s.synUse · .sem)) + place 29 (synFree 8192 (s.synUse · .event)) +
      place 43 (synFree 512 (s.synUse · .weir)) + place 53 (synFree 128 (s.synUse · .fweir))
  | .synPool1 => synFree 4096 (s.synUse · .remote) + place 13 (synFree 1024 s.hwaits)
  | .rasStat => s.ras.next % 2 ^ 48 + place 48 (b2n s.ras.wrap) + place 49 (s.ras.flash.filter (fun r => !r.torn)).length
  | .rasRec e w => match sget none s.ras.slots e with
    | some r => r.word w
    | none => 0
  | .rasFlash e w => match s.ras.flash[e]? with
    | some r => r.word w
    | none => 0
  | _ => 0

/-! ### Fields that a read returns and clears (00 R13; 04 R134; 05 R159; 08 R238; 10 R299; 11 R330) -/

/-- A count in units, as shown; the part below one unit stays (04 R134). -/
def rcShow (v unit cap : Nat) : Nat := min (v / unit) cap
/-- What time that passed added to a counter of time, a free value (assumption 47). -/
def State.elapsed (s : State) (v : Nat) : Nat × State := let (w, s) := s.fresh; (v + w.toNat, s)

/-- A register read: its value, and the state with its RC fields cleared. -/
def State.readCsr (s : State) (f : Nat) : CsrName → Nat × State
  | .secMxcnt c =>
    let k := s.core c
    let (st, s) := s.elapsed k.mxStallCc
    (min k.mxProms (2 ^ 32 - 1) + place 32 (min k.mxSats 65535) + place 48 (min k.mxNspec 255) + place 56 (rcShow st 16 255),
     s.setCore c { k with mxProms := 0, mxSats := 0, mxNspec := 0, mxStallCc := st % 16 })
  | .secVccnt c =>
    let k := s.core c
    (min k.vcSats (2 ^ 32 - 1) + place 32 (min k.vcNspec 65535) + place 48 (min k.vcDrops 255),
     s.setCore c { k with vcSats := 0, vcNspec := 0, vcDrops := 0 })
  | .secVcwatch c =>
    let k := s.core c
    (min k.watchLow (2 ^ 32 - 1) + place 32 (min k.watchHigh (2 ^ 32 - 1)), s.setCore c { k with watchLow := 0, watchHigh := 0 })
  | .secCensus n e w =>
    let c := s.sec n
    let x := sget {} c.census e
    (min (sget 0 x.words w) (2 ^ 32 - 1), s.setSec n { c with census := sset {} c.census e { x with words := sset 0 x.words w 0 } })
  | .sluCtrstat n =>
    let x := s.slu n
    (rcShow x.lookup 64 (2 ^ 32 - 1) + place 32 (rcShow x.missCb 16 65535) + place 48 (min x.missNd 65535),
     s.setSlu n { x with lookup := x.lookup % 64, missCb := x.missCb % 16, missNd := 0 })
  | .sluMaint n =>
    let x := s.slu n
    let (us, s) := s.elapsed x.waitUs
    (min x.reenc 65535 + place 16 (min x.rekey 65535) + place 32 (rcShow x.partialW 64 65535) + place 48 (rcShow us 1000 65535),
     s.setSlu n { x with reenc := 0, rekey := 0, partialW := x.partialW % 64, waitUs := us % 1000 })
  | .sluErr n =>
    let x := s.slu n
    (min x.eccC 65535 + place 16 (min x.repair 255) + place 24 (min x.linePoi 255) + place 32 (min x.integ 255) + place 40 (min x.treeLost 255),
     s.setSlu n { x with eccC := 0, repair := 0, linePoi := 0, integ := 0, treeLost := 0 })
  | .sluEye n ch =>
    let x := s.slu n
    let e := sget {} x.eyes ch
    (e.phase % 64 + place 6 (e.vref % 128) + place 13 (min e.margin 31) + place 18 (e.lane % 64) + place 24 (min e.moves 65535),
     s.setSlu n { x with eyes := sset {} x.eyes ch { e with moves := 0 } })
  | .sipStall n =>
    let c := s.sec n
    let (a, s) := s.elapsed c.stFence
    let (b, s) := s.elapsed c.stTag
    let (d, s) := s.elapsed c.stCatch
    let (g, s) := s.elapsed c.stIngress
    let (h, s) := s.elapsed c.stSlot
    (rcShow a 1000 4095 + place 12 (rcShow b 1000 4095) + place 24 (rcShow d 1000 4095) + place 36 (rcShow g 1000 4095) +
       place 48 (rcShow h 1000 4095),
     s.setSec n { c with stFence := a % 1000, stTag := b % 1000, stCatch := d % 1000, stIngress := g % 1000, stSlot := h % 1000 })
  | .aqfCatch n =>
    let c := s.sec n
    (min c.hits (2 ^ 24 - 1) + place 24 (min c.misses (2 ^ 24 - 1)) + place 48 (min c.bypass 65535),
     s.setSec n { c with hits := 0, misses := 0, bypass := 0 })
  | .lnkCnt n =>
    let l := s.link n
    (rcShow l.corr 65536 65535 + place 16 (min l.uncorr 65535) + place 32 (min l.replays 65535) + place 48 (min l.authf 255) +
       place 56 (min l.resync 255),
     s.setLink n { l with corr := l.corr % 65536, uncorr := 0, replays := 0, authf := 0, resync := 0 })
  | .hwkDrop n =>
    let l := s.link n
    (min l.stale 65535 + place 16 (min l.aged 65535) + place 32 (min l.notready 65535) + place 48 (min l.malformed 65535),
     s.setLink n { l with stale := 0, aged := 0, notready := 0, malformed := 0 })
  | .hwkRgcnt e =>
    let g := s.rg e
    (min g.commits 65535 + place 16 (min g.short 65535) + place 32 (min g.fulldrop 65535) + place 48 (rcShow g.discard 1024 65535),
     s.setRg e { g with commits := 0, short := 0, fulldrop := 0, discard := g.discard % 1024 })
  | .hwkRgtok e =>
    let g := s.rg e
    let (a, s) := s.elapsed g.stallL
    let (b, s) := s.elapsed g.stallP
    (g.free + place 13 (rcShow a 1000 4095) + place 25 (rcShow b 1000 4095), s.setRg e { g with stallL := a % 1000, stallP := b % 1000 })
  | .synStagst p => let x := s.synPart p; (x.stagst, s.setSynPart p { x with events := 0 })
  | .synCnt p =>
    let x := s.synPart p
    (min x.cOrder 65535 + place 16 (min x.cUnder 65535) + place 32 (min x.cAband 65535) + place 48 (min x.cRfail 65535),
     s.setSynPart p { x with cOrder := 0, cUnder := 0, cAband := 0, cRfail := 0 })
  | .idnPerf o =>
    match (match fnPart f with | some p => s.secOf p o | none => some o) with
    | none => (0, s)
    | some n =>
      let c := s.sec n
      let (a, s) := s.elapsed c.mxBusy
      let (b, s) := s.elapsed c.stallCrd
      let (d, s) := s.elapsed c.stallTok
      (rcShow a 65536 (2 ^ 32 - 1) + place 32 (rcShow b 65536 65535) + place 48 (rcShow d 65536 65535),
       s.setSec n { c with mxBusy := a % 65536, stallCrd := b % 65536, stallTok := d % 65536 })
  | .pwrThr k =>
    let t := s.pwr.thr
    let ms (i : Nat) : Nat := rcShow (sget 0 t i) 100 65535
    let keep (l : List Nat) : State := { s with pwr := { s.pwr with thr := l.foldl (fun m i => sset 0 m i (sget 0 m i % 100)) t } }
    if k = 0 then (ms 0 + place 16 (ms 1) + place 32 (ms 3) + place 48 (ms 4), keep [0, 1, 3, 4])
    else
      let u := keep [5, 6, 2]
      (ms 5 + place 16 (ms 6) + place 32 (ms 2) + place 48 (min (sget 0 t 7) 65535),
       { u with pwr := { u.pwr with thr := sset 0 u.pwr.thr 7 0 } })
  | .pwrSleep => (s.csr f .pwrSleep + place 12 (min s.pwr.drops 65535), { s with pwr := { s.pwr with drops := 0 } })
  | r => (s.csr f r, s)

/-- A read of a BAR0 offset on a path: zero where no register lies or the path does not see it (00 R11; 12 R335). -/
def State.readAt (s : State) (path : Path) (off : Nat) : Word × State :=
  match winAt off with
  | none => (0, s)
  | some (w, o) => match regIn w o with
    | none => (0, s)
    | some r => if s.sees path w r then (let (v, t) := s.readCsr (pathFn path) r; (BitVec.ofNat 64 v, t)) else (0, s)

end Sys2Proof.Machine
end

