-- ==== Sys2Proof/Machine/Mgmt.lean ====
section
/-! DEFINITION. Register writes and the register paths (00 R10-R14; 06 R178; 11 R328, R329; 12 R336, R340; 14 R390; 18 R469, R475, R478):
REGISTER_WRITE, IDN_AQCTL_WRITE, SYN_QUOTA_WRITE, SYN_STAG_WRITE, SEC_CENSTAG_CLR, the reads of the RC registers, SMBUS_SET_OFFSET,
SMBUS_READ, SMBUS_WRITE, L2_REGISTER_READ, L2_REGISTER_WRITE, CSR_BAD_ACCESS. -/

namespace Sys2Proof.Machine

/-! ### The admin queue (12 R336, R340) -/

/-- A write of IDN_AQCTL: EN going to 1 creates queue 0 from the fields, EN going to 0 destroys it at its stream boundary, as Q_DESTROY
does. A LOG2 outside 4 to 15 leaves
the queue Absent. -/
def aqctlSet (f : Nat) (v : Word) (s : State) : State :=
  let x := s.fn f
  let sl := bits v.toNat 0 4
  let cl := bits v.toNat 4 4
  let vec := bits v.toNat 8 6
  let en := bit v.toNat 14
  let s := s.setFn f { x with aqSqLog := sl, aqCqLog := cl, aqVec := vec, aqEn := en, 
                              locHold := if x.anyRuns then x.locHold else none, secHold := if x.anyRuns then x.secHold else none }
  if en ∧ !x.aqEn then s.createQueue0 f
  else if !en ∧ x.aqEn ∧ (s.queue f 0).state ≠ .absent then (s.destroyQueue f 0).1
  else s
/-- IDN_AQCTL_WRITE on function fn. -/
def execIdnAqctlWrite (fn : Nat) (v : Word) (s : State) : Out :=
  onFn fn (if s.reach (if fn = 0 then .pf0 else .vf fn) ∧ s.mon.phase ≠ .safeListen then aqctlSet fn v s else s)

/-! ### SYN quotas and the detector (11 R300, R328, R329) -/

/-- A quota field: unchanged where it would pass the partition's limit or take the sum of all partitions past the pool. -/
def State.quotaField (s : State) (p limit pool v : Nat) (get : SynPart → Nat) : Nat :=
  let others := (((List.range 10).filter (· ≠ p)).map (fun i => get (s.synPart i))).sum
  if limit < v ∨ pool < others + v then get (s.synPart p) else v
/-- A write of SYN_QUOTA0 or SYN_QUOTA1: the fields first, then LOCK (00 R14). -/
def quotaSet (path : Path) (p reg : Nat) (v : Word) (s : State) : State :=
  let x := s.synPart p
  let n := v.toNat
  if path ≠ .pf0 ∨ !s.reach path ∨ x.lock ∨ s.mon.phase = .safeListen then s
  else if reg = 0 then
    s.setSynPart p { x with
      qFence := s.quotaField p 16384 16384 (bits n 0 15) (·.qFence)
      qSem := s.quotaField p 8192 8192 (bits n 15 14) (·.qSem)
      qEvent := s.quotaField p 8192 8192 (bits n 29 14) (·.qEvent) }
  else
    s.setSynPart p { x with
      qWeir := s.quotaField p 64 512 (bits n 0 7) (·.qWeir)
      qFweir := s.quotaField p 128 128 (bits n 7 8) (·.qFweir)
      qRemote := s.quotaField p 4096 4096 (bits n 15 13) (·.qRemote)
      qHwait := s.quotaField p 1024 1024 (bits n 28 11) (·.qHwait)
      lock := bit n 63 }
/-- SYN_QUOTA_WRITE of register 0 or 1. -/
def execSynQuotaWrite (path : Path) (part reg : Nat) (v : Word) (s : State) : Out :=
  onPart part (if reg < 2 then quotaSet path part reg v s else s)
/-- A write of SYN_STAG through the partition's own function: WINDOW is held to 100 to 10,000,000. -/
def stagSet (path : Path) (p : Nat) (v : Word) (s : State) : State :=
  if path ≠ .vf (p + 1) ∨ !s.reach path ∨ s.mon.phase = .safeListen then s
  else s.setSynPart p { s.synPart p with en := bit v.toNat 0, abort := bit v.toNat 1, window := max 100 (min 10000000 (bits v.toNat 2 24)) }
/-- SYN_STAG_WRITE. -/
def execSynStagWrite (path : Path) (part : Nat) (v : Word) (s : State) : Out := onPart part (stagSet path part v s)

/-! ### The census tag (06 R176, R178) -/

/-- CLR clears words 0 to 61 and VALID of an entry, where the path sees it. -/
def censtagSet (path : Path) (n e : Nat) (v : Word) (s : State) : State :=
  if !bit v.toNat 17 ∨ !s.sees path (.sec n) (.secCenstag n e) then s
  else
    let c := s.sec n
    let x := sget {} c.census e
    s.setSec n { c with census := sset {} c.census e { x with words := [], valid := false } }
/-- SEC_CENSTAG_CLR. -/
def execSecCenstagClr (path : Path) (sec entry : Nat) (v : Word) (s : State) : Out :=
  onSec sec (if entry < 256 then censtagSet path sec entry v s else s)

/-! ### Writes of every register (00 R12-R14) -/

/-- A write of CHR_CTRL: GO as the mailbox stands before it, then DONE, IRQEN and VECTOR (14 R390). -/
def chrCtrlSet (f : Nat) (v : Word) (s : State) : State :=
  let n := v.toNat
  let s := s.setFn f { s.fn f with mbox := { (s.fn f).mbox with irqen := bit n 11, vector := bits n 12 6 } }
  if bit n 0 ∧ !(s.fn f).mbox.busy ∧ !(s.fn f).mbox.done then chrGo f s
  else if bit n 2 then chrDoneClear f s
  else s
/-- A write of MON_CMD. -/
def monCmdSet (path : Path) (v : Word) (s : State) : State :=
  match bits v.toNat 0 2 with
  | 1 => monReset path s
  | 2 => monClrfence path s
  | _ => if monWrites path ∧ s.reach path then s.setMonCstat (if s.starting then Status.state else Status.bounds) else s
/-- A write of MON_FWCTL: what COMMIT finds in the staged image is the cited verification of its words. -/
def fwctlSet (path : Path) (v : Word) (s : State) : State :=
  let img := bits v.toNat 2 2
  match bits v.toNat 0 2 with
  | 1 => fwStage path (bits v.toNat 4 10) s
  | 2 =>
    let c := Config.stagedCopy img s.mon.staging
    fwCommit path img ⟨c.1, c.2.1, c.2.2⟩ s
  | 3 => fwAbort path s
  | _ => fwCmd path s (s.setFwCstat Status.bounds)
/-- A write of LNK_CTRL, through Monarch (09 R273). -/
def lnkCtrlSet (n : Nat) (v : Word) (s : State) : State :=
  match bits v.toNat 0 3 with
  | 1 => lnkEnable n s
  | 2 => lnkDisable n s
  | 3 => lnkRetrain n s
  | 4 => lnkFence n s
  | 5 => lnkUnfence n s
  | _ => lnkCmd n s (fun _ => s.setCstat n Status.bounds)
/-- A write of PWR_SLEEP: ENTER, then WAKE. -/
def pwrSleepSet (path : Path) (v : Word) (s : State) : State :=
  let s := if bit v.toNat 2 then sleepEnter path false s else s
  if bit v.toNat 3 then sleepWake path false s else s
/-- A write of TIM_CFG, which boot flash keeps (18 R477). -/
def timCfgSet (v : Word) (s : State) : State :=
  let x := s.tim.putCfg v.toNat
  { s with tim := x, mon := { s.mon with storedTim := x.cfg } }
/-- A write of TIM_PTP: LOGSYNC lies between -7 and 0; another value leaves the field (assumption 48). -/
def timPtpSet (v : Word) (s : State) : State :=
  let n := v.toNat
  let g := bits n 11 4
  { s with tim := { s.tim with ptpEn := bit n 0, ptpDomain := bits n 1 7, ptpL2 := bit n 8, ptp4 := bit n 9, ptp6 := bit n 10,
                               ptpLog := if g = 0 ∨ 9 ≤ g then g else s.tim.ptpLog, ptpUtc := bits n 15 8, ptpPrio1 := bits n 23 8 } }
/-- A word of MON_FWBUF. -/
def fwbufSet (w : Nat) (v : Word) (s : State) : State := { s with mon := { s.mon with fwBuf := sset 0 s.mon.fwBuf w v } }
/-- The page address of a ring of the admin queue. -/
def ringBase (v : Word) : Word := v &&& ~~~0xFFF#64

/-- What a write does to a register, by its access types; a register with no field that a write sets ignores it. The function is
that of the path's window. -/
def State.writeCsr (s : State) (path : Path) (v : Word) : CsrName → State
  | .idnAqsqb => s.setFn (pathFn path) { s.fn (pathFn path) with aqSqb := ringBase v }
  | .idnAqcqb => s.setFn (pathFn path) { s.fn (pathFn path) with aqCqb := ringBase v }
  | .idnAqctl => aqctlSet (pathFn path) v s
  | .monCmd => monCmdSet path v s
  | .monFwctl => fwctlSet path v s
  | .monFwbuf w => fwbufSet w v s
  | .chrCtrl => chrCtrlSet (pathFn path) v s
  | .chrReq w => let f := pathFn path; s.setFn f { s.fn f with mbox := { (s.fn f).mbox with req := sset 0 (s.fn f).mbox.req w v } }
  | .timCfg => timCfgSet v s
  | .timPtp => timPtpSet v s
  | .timSet => timSet path v s
  | .pwrCap => pwrCapSet path v s
  | .pwrSag => pwrSagSet path v s
  | .pwrSleep => pwrSleepSet path v s
  | .secCenstag n e => censtagSet path n e v s
  | .lnkCtrl n => lnkCtrlSet n v s
  | .synQuota0 p => quotaSet path p 0 v s
  | .synQuota1 p => quotaSet path p 1 v s
  | .synStag p => stagSet path p v s
  | _ => s
/-- The registers whose writes Monarch answers with a status even where it serves nothing else (17 R452, R461). -/
def answersAlways : CsrName → Bool
  | .monCmd | .monFwctl | .pwrCap | .pwrSleep | .timSet | .lnkCtrl _ | .chrCtrl => true
  | _ => false
/-- The registers that SMBus writes (18 R469). -/
def smbusWrites : CsrName → Bool
  | .monCmd | .monFwctl | .monFwbuf _ => true
  | _ => false
/-- The registers that the management Ethernet writes (18 R475). -/
def ethWrites : CsrName → Bool
  | .monCmd | .monFwctl | .monFwbuf _ | .pwrCap | .pwrSag | .pwrSleep | .timCfg | .timPtp | .timSet => true
  | _ => false
/-- A path may write a register. On PF0 and a VF it must also see it: MON_CMD, MON_FWCTL and MON_FWBUF are PF0's (17 R461; 18 R478). -/
def State.mayWrite (s : State) (path : Path) (r : CsrName) : Bool :=
  s.reach path && (s.mon.phase != .safeListen || answersAlways r) &&
  (match path with
    | .pf0 => pfSees r
    | .vf k => s.vfSees k r
    | .smbus => smbusWrites r
    | .eth => ethWrites r)
/-- A write of a BAR0 offset on a path; none where the path may write no register there. -/
def State.writeAt (s : State) (path : Path) (off : Nat) (v : Word) : Option State :=
  match winAt off with
  | none => none
  | some (w, o) => match regIn w o with
    | none => none
    | some r => if s.mayWrite path r then some (s.writeCsr path v r) else none

/-- REGISTER_WRITE. -/
def execRegisterWrite (path : Path) (off : Nat) (v : Word) (s : State) : Out := .next ((s.writeAt path off v).getD s)

/-! ### Reads of the RC registers (04 R134; 05 R159; 06 R178; 08 R238; 10 R299; 11 R330; 16 R445) -/

/-- A read on a path, answered with the value (assumption 3). -/
def readOp (path : Path) (off : Nat) (s : State) : State :=
  let (v, t) := s.readAt path off
  t.answer Status.ok [v]
/-- Offset of register `base` of a core. -/
def coreOff (base c : Nat) : Nat := 0x1000000 + coreSec c * 0x100000 + base + c % 256 * 8
def secOff (n o : Nat) : Nat := 0x1000000 + n * 0x100000 + o
def sluOff (n o : Nat) : Nat := 0x2000000 + n * 0x40000 + o
def lnkOff (n o : Nat) : Nat := 0x3000000 + n * 0x10000 + o
def rgOff (e o : Nat) : Nat := 0x3310000 + e * 0x40 + o
def synOff (p o : Nat) : Nat := 0x3800000 + p * 0x1000 + o

def execSecMxcntRead (path : Path) (core : Nat) (s : State) : Out := onCore core (readOp path (coreOff 0x41000 core) s)
def execSecVccntRead (path : Path) (core : Nat) (s : State) : Out := onCore core (readOp path (coreOff 0x42000 core) s)
def execSecVcwatchRead (path : Path) (core : Nat) (s : State) : Out := onCore core (readOp path (coreOff 0x43000 core) s)
/-- SEC_CENSUS_READ of word 0-61 of entry 0-255. -/
def execSecCensusRead (path : Path) (sec entry word : Nat) (s : State) : Out :=
  onSec sec (if entry < 256 ∧ word < 62 then readOp path (secOff sec (0x50000 + entry * 0x200 + word * 8)) s else s)
/-- SLU_COUNTER_READ of register 0 SLU_CTRSTAT, 1 SLU_MAINT, 2 SLU_ERR. -/
def execSluCounterRead (path : Path) (sl reg : Nat) (s : State) : Out :=
  onSlu sl (if reg = 0 then readOp path (sluOff sl 8) s else if reg = 1 then readOp path (sluOff sl 0x10) s
    else if reg = 2 then readOp path (sluOff sl 0x20) s else s)
def execSluEyeRead (path : Path) (sl ch : Nat) (s : State) : Out :=
  onSlu sl (if ch < 32 then readOp path (sluOff sl (0x30000 + ch * 8)) s else s)
def execSipStallRead (path : Path) (sec : Nat) (s : State) : Out := onSec sec (readOp path (0x2800000 + sec * 0x10000 + 0x100) s)
def execAqfCatchRead (path : Path) (sec : Nat) (s : State) : Out := onSec sec (readOp path (0x2900000 + sec * 8) s)
def execLnkCntRead (path : Path) (port : Nat) (s : State) : Out := onLink port (readOp path (lnkOff port 0x10) s)
def execHwkDropRead (path : Path) (port : Nat) (s : State) : Out := onLink port (readOp path (lnkOff port 0x18) s)
/-- HWK_RG_COUNTER_READ of register 0 HWK_RGCNT, 1 HWK_RGTOK of a group entry. -/
def execHwkRgCounterRead (path : Path) (e reg : Nat) (s : State) : Out :=
  onUnit "group entry" 64 e (if reg = 0 then readOp path (rgOff e 0x10) s else if reg = 1 then readOp path (rgOff e 0x18) s else s)
def execSynCntRead (path : Path) (part : Nat) (s : State) : Out := onPart part (readOp path (synOff part 0x30) s)
def execSynStagstRead (path : Path) (part : Nat) (s : State) : Out := onPart part (readOp path (synOff part 0x28) s)
/-- IDN_PERF_READ of section ordinal o. -/
def execIdnPerfRead (path : Path) (o : Nat) (s : State) : Out := onSec o (readOp path (0x2000 + o * 8) s)
/-- PWR_THR_READ of PWR_THR0 or PWR_THR1. -/
def execPwrThrRead (path : Path) (reg : Nat) (s : State) : Out :=
  .next (if reg = 0 then readOp path 0x400010 s else if reg = 1 then readOp path 0x400018 s else s)
def execPwrSleepDropsRead (path : Path) (s : State) : Out := .next (readOp path 0x400030 s)

/-! ### SMBus and the management Ethernet (18 R469, R475) -/

/-- Offset of RAS_STAT. -/
def rasStatOff : Nat := 0x3C00000
/-- SMBUS_SET_OFFSET. -/
def execSmbusSetOffset (off : Nat) (s : State) : Out :=
  .next (if s.alive then { s with mon := { s.mon with smOff := off % 2 ^ 32 } } else s)
/-- SMBUS_READ: the register at the offset; a read of RAS_STAT releases SMALERT#. An offset inside MON or RAS that is no multiple of 8
reads as zero (18 R469, any other offset), not as all-ones (00 R10): assumption 49. -/
def execSmbusRead (s : State) : Out :=
  .next <|
    if !s.alive then s
    else
      let t := readOp .smbus s.mon.smOff s
      if s.mon.smOff = rasStatOff then { t with mon := { t.mon with smalert := false } } else t
/-- SMBUS_WRITE. -/
def execSmbusWrite (off : Nat) (v : Word) (s : State) : Out := .next ((s.writeAt .smbus off v).getD s)

/-- Consecutive registers read from an offset on. -/
def State.readMany (s : State) (off : Nat) : Nat → List Word × State
  | 0 => ([], s)
  | n + 1 =>
    let (v, s) := s.readAt .eth off
    let (l, s) := State.readMany s (off + 8) n
    (v :: l, s)
/-- L2_REGISTER_READ of 1 to 128 registers; a frame that breaks the form of 18 R475 is answered BOUNDS (assumption 49). -/
def execL2RegisterRead (off count : Nat) (s : State) : Out :=
  .next <|
    if !s.alive then s
    else if count = 0 ∨ 128 < count ∨ off % 8 ≠ 0 then s.answer Status.bounds
    else
      let (l, s) := s.readMany off count
      s.answer Status.ok l
/-- Consecutive registers written; DENIED where one of them may not be. -/
def State.writeMany (s : State) (off : Nat) : List Word → Nat × State
  | [] => (Status.ok, s)
  | v :: r => match s.writeAt .eth off v with
    | some t => State.writeMany t (off + 8) r
    | none => (Status.denied, (State.writeMany s (off + 8) r).2)
/-- L2_REGISTER_WRITE. -/
def execL2RegisterWrite (off : Nat) (vs : List Word) (s : State) : Out :=
  .next <|
    if !s.alive then s
    else if vs.isEmpty ∨ 128 < vs.length ∨ off % 8 ≠ 0 then s.answer Status.bounds
    else
      let (st, s) := s.writeMany off vs
      s.answer st

/-! ### Accesses of another size or alignment (00 R10) -/

/-- BLOCK and INST of a block window; the RAS log is Monarch's, and an offset in no window is the host interface's (assumption 49). -/
def winBlock : Option (Win × Nat) → Nat × Nat
  | some (.mon, _) => (Blk.mon, 0)
  | some (.chr, _) => (Blk.chr, 0)
  | some (.tim, _) => (Blk.tim, 0)
  | some (.pwr, _) => (Blk.pwr, 0)
  | some (.sec n, _) => (Blk.sec, n)
  | some (.slu n, _) => (Blk.slu, n)
  | some (.sip n, _) => (Blk.sip, n)
  | some (.aqf, _) => (Blk.aqf, 0)
  | some (.lnk n, _) => (Blk.lnk, n)
  | some (.hwk, _) => (Blk.hwk, 0)
  | some (.rg, _) => (Blk.hwk, 0)
  | some (.syn, _) => (Blk.syn, 0)
  | some (.ras, _) => (Blk.mon, 0)
  | some (.idn, _) => (Blk.idn, 0)
  | none => (Blk.idn, 0)
/-- CSR_BAD_ACCESS: a write is discarded and recorded, a read returns all-ones (00 R10), in every phase and for every block, also where a
sound read gives zero (17 R449, R452; DESIGN CHOICE, assumption 127). -/
def execCsrBadAccess (path : Path) (off : Nat) (isWrite : Bool) (s : State) : Out :=
  .next <|
    if !s.reach path then s
    else if !isWrite then s.answer Status.ok [BitVec.allOnes 64]
    else
      let b := winBlock (winAt off)
      s.report (Rec.mk' Status.bounds Sev.corrected b.1 b.2 (match path with
        | .vf k => k - 1
        | _ => 0xFF))

end Sys2Proof.Machine
end

