-- ==== Sys2Proof/Machine/Dispatch.lean ====
section
/-! DEFINITION. The meaning of every command: one arm per constructor, each a direct call of its meaning. -/

namespace Sys2Proof.Machine

/-- The effect of a command on everything but the queue. -/
def exec (i : Instr) (s : State) : Host.Outcome State Fault Refusal :=
  match i with
  | .instructionDispatch core bad => Sys2Proof.Machine.execInstructionDispatch core bad s
  | .stationRetire core stn => Sys2Proof.Machine.execStationRetire core stn s
  | .coreHalt core => Sys2Proof.Machine.execCoreHalt core s
  | .ctAdd core sd sa sb => Sys2Proof.Machine.execCtAdd core sd sa sb s
  | .ctSub core sd sa sb => Sys2Proof.Machine.execCtSub core sd sa sb s
  | .ctAnd core sd sa sb => Sys2Proof.Machine.execCtAnd core sd sa sb s
  | .ctOr core sd sa sb => Sys2Proof.Machine.execCtOr core sd sa sb s
  | .ctXor core sd sa sb => Sys2Proof.Machine.execCtXor core sd sa sb s
  | .ctSll core sd sa sb => Sys2Proof.Machine.execCtSll core sd sa sb s
  | .ctSrl core sd sa sb => Sys2Proof.Machine.execCtSrl core sd sa sb s
  | .ctSra core sd sa sb => Sys2Proof.Machine.execCtSra core sd sa sb s
  | .ctSlt core sd sa sb => Sys2Proof.Machine.execCtSlt core sd sa sb s
  | .ctSltu core sd sa sb => Sys2Proof.Machine.execCtSltu core sd sa sb s
  | .ctMin core sd sa sb => Sys2Proof.Machine.execCtMin core sd sa sb s
  | .ctMax core sd sa sb => Sys2Proof.Machine.execCtMax core sd sa sb s
  | .ctMul core sd sa sb => Sys2Proof.Machine.execCtMul core sd sa sb s
  | .ctMulhu core sd sa sb => Sys2Proof.Machine.execCtMulhu core sd sa sb s
  | .ctDivu core sd sa sb => Sys2Proof.Machine.execCtDivu core sd sa sb s
  | .ctRemu core sd sa sb => Sys2Proof.Machine.execCtRemu core sd sa sb s
  | .ctAddi core sd sa imm => Sys2Proof.Machine.execCtAddi core sd sa imm s
  | .ctAndi core sd sa imm => Sys2Proof.Machine.execCtAndi core sd sa imm s
  | .ctOri core sd sa imm => Sys2Proof.Machine.execCtOri core sd sa imm s
  | .ctXori core sd sa imm => Sys2Proof.Machine.execCtXori core sd sa imm s
  | .ctSlli core sd sa imm => Sys2Proof.Machine.execCtSlli core sd sa imm s
  | .ctSrli core sd sa imm => Sys2Proof.Machine.execCtSrli core sd sa imm s
  | .ctSrai core sd sa imm => Sys2Proof.Machine.execCtSrai core sd sa imm s
  | .ctLui core sd sa imm => Sys2Proof.Machine.execCtLui core sd sa imm s
  | .ctLds core sd sa imm => Sys2Proof.Machine.execCtLds core sd sa imm s
  | .ctSts core sd sa imm => Sys2Proof.Machine.execCtSts core sd sa imm s
  | .ctBeq core sa sb off => Sys2Proof.Machine.execCtBeq core sa sb off s
  | .ctBne core sa sb off => Sys2Proof.Machine.execCtBne core sa sb off s
  | .ctBlt core sa sb off => Sys2Proof.Machine.execCtBlt core sa sb off s
  | .ctBge core sa sb off => Sys2Proof.Machine.execCtBge core sa sb off s
  | .ctBltu core sa sb off => Sys2Proof.Machine.execCtBltu core sa sb off s
  | .ctBgeu core sa sb off => Sys2Proof.Machine.execCtBgeu core sa sb off s
  | .ctJmp core off => Sys2Proof.Machine.execCtJmp core off s
  | .ctCall core off => Sys2Proof.Machine.execCtCall core off s
  | .ctRet core => Sys2Proof.Machine.execCtRet core s
  | .ctTkw core tk sa => Sys2Proof.Machine.execCtTkw core tk sa s
  | .ctTset core t sa => Sys2Proof.Machine.execCtTset core t sa s
  | .ctTbase core t sa imm => Sys2Proof.Machine.execCtTbase core t sa imm s
  | .ctTget core sd t => Sys2Proof.Machine.execCtTget core sd t s
  | .ctCcfg core sa imm => Sys2Proof.Machine.execCtCcfg core sa imm s
  | .ctRopen core f => Sys2Proof.Machine.execCtRopen core f s
  | .ctRclose core stn => Sys2Proof.Machine.execCtRclose core stn s
  | .ctNop core => Sys2Proof.Machine.execCtNop core s
  | .ctHalt core => Sys2Proof.Machine.execCtHalt core s
  | .ctBrk core => Sys2Proof.Machine.execCtBrk core s
  | .ctTrap core => Sys2Proof.Machine.execCtTrap core s
  | .inLdt core => Sys2Proof.Machine.execInLdt core s
  | .inLdd core => Sys2Proof.Machine.execInLdd core s
  | .inRcv core => Sys2Proof.Machine.execInRcv core s
  | .mxMma core => Sys2Proof.Machine.execMxMma core s
  | .mxProm core => Sys2Proof.Machine.execMxProm core s
  | .promotionComplete core acc => Sys2Proof.Machine.execPromotionComplete core acc s
  | .amSave core => Sys2Proof.Machine.execAmSave core s
  | .amRest core => Sys2Proof.Machine.execAmRest core s
  | .amZero core => Sys2Proof.Machine.execAmZero core s
  | .amMove core => Sys2Proof.Machine.execAmMove core s
  | .vcEw core => Sys2Proof.Machine.execVcEw core s
  | .vcUn core => Sys2Proof.Machine.execVcUn core s
  | .vcRed core => Sys2Proof.Machine.execVcRed core s
  | .vcBc core => Sys2Proof.Machine.execVcBc core s
  | .vcCvt core => Sys2Proof.Machine.execVcCvt core s
  | .vcUpd core => Sys2Proof.Machine.execVcUpd core s
  | .vcRng core => Sys2Proof.Machine.execVcRng core s
  | .ofSt core => Sys2Proof.Machine.execOfSt core s
  | .ofStl core => Sys2Proof.Machine.execOfStl core s
  | .ofSnd core => Sys2Proof.Machine.execOfSnd core s
  | .ofPut core => Sys2Proof.Machine.execOfPut core s
  | .ofGsnd core => Sys2Proof.Machine.execOfGsnd core s
  | .syFsig core at_ => Sys2Proof.Machine.execSyFsig core at_ s
  | .syFwait core at_ => Sys2Proof.Machine.execSyFwait core at_ s
  | .sySacq core at_ => Sys2Proof.Machine.execSySacq core at_ s
  | .syStry core at_ => Sys2Proof.Machine.execSyStry core at_ s
  | .sySrel core at_ => Sys2Proof.Machine.execSySrel core at_ s
  | .syEset core at_ => Sys2Proof.Machine.execSyEset core at_ s
  | .syErst core at_ => Sys2Proof.Machine.execSyErst core at_ s
  | .syEwait core at_ => Sys2Proof.Machine.execSyEwait core at_ s
  | .syWeir core at_ => Sys2Proof.Machine.execSyWeir core at_ s
  | .syWarr core at_ => Sys2Proof.Machine.execSyWarr core at_ s
  | .syWwait core at_ => Sys2Proof.Machine.execSyWwait core at_ s
  | .alAlloc core nf sd sa => Sys2Proof.Machine.execAlAlloc core nf sd sa s
  | .alFree core nf sd sa => Sys2Proof.Machine.execAlFree core nf sd sa s
  | .cpId core sd => Sys2Proof.Machine.execCpId core sd s
  | .cpCap core sd imm => Sys2Proof.Machine.execCpCap core sd imm s
  | .cpCfg core sd imm => Sys2Proof.Machine.execCpCfg core sd imm s
  | .cpMode core sd => Sys2Proof.Machine.execCpMode core sd s
  | .runnelOpenRequest part rid => Sys2Proof.Machine.execRunnelOpenRequest part rid s
  | .openAcknowledgement part rid => Sys2Proof.Machine.execOpenAcknowledgement part rid s
  | .canalTileArrival part rid => Sys2Proof.Machine.execCanalTileArrival part rid s
  | .creditReturn part rid => Sys2Proof.Machine.execCreditReturn part rid s
  | .closeAcknowledgement part rid => Sys2Proof.Machine.execCloseAcknowledgement part rid s
  | .siphonDescriptor sec k => Sys2Proof.Machine.execSiphonDescriptor sec k s
  | .siphonGroupDelivery sec k => Sys2Proof.Machine.execSiphonGroupDelivery sec k s
  | .siphonDescriptorComplete sec k => Sys2Proof.Machine.execSiphonDescriptorComplete sec k s
  | .siphonFenceReached sec k => Sys2Proof.Machine.execSiphonFenceReached sec k s
  | .freedBlockScrub sec => Sys2Proof.Machine.execFreedBlockScrub sec s
  | .aquiferRead sec dva => Sys2Proof.Machine.execAquiferRead sec dva s
  | .aquiferFrameArrival sec dva frame macOk => Sys2Proof.Machine.execAquiferFrameArrival sec dva frame macOk s
  | .catchmentFill sec dva => Sys2Proof.Machine.execCatchmentFill sec dva s
  | .catchmentAgeTick => Sys2Proof.Machine.execCatchmentAgeTick s
  | .aquiferTagTimeout port => Sys2Proof.Machine.execAquiferTagTimeout port s
  | .readEyeWindow sl ch lane lo hi => Sys2Proof.Machine.execReadEyeWindow sl ch lane lo hi s
  | .sluiceRead sl line part epoch cls => Sys2Proof.Machine.execSluiceRead sl line part epoch cls s
  | .stackBurstArrival sl tag burst => Sys2Proof.Machine.execStackBurstArrival sl tag burst s
  | .sluiceWrite sl line part epoch off data cls => Sys2Proof.Machine.execSluiceWrite sl line part epoch off data cls s
  | .groupReencryption sl line part epoch off data cls => Sys2Proof.Machine.execGroupReencryption sl line part epoch off data cls s
  | .reencryptionComplete sl => Sys2Proof.Machine.execReencryptionComplete sl s
  | .metadataEviction sl level index => Sys2Proof.Machine.execMetadataEviction sl level index s
  | .counterPrefetch sl group cls => Sys2Proof.Machine.execCounterPrefetch sl group cls s
  | .writeBufferDrain sl => Sys2Proof.Machine.execWriteBufferDrain sl s
  | .groupRewrite sl group => Sys2Proof.Machine.execGroupRewrite sl group s
  | .sluiceTagTimeout sl tag => Sys2Proof.Machine.execSluiceTagTimeout sl tag s
  | .lnkEnable port => Sys2Proof.Machine.execLnkEnable port s
  | .lnkDisable port => Sys2Proof.Machine.execLnkDisable port s
  | .lnkRetrain port => Sys2Proof.Machine.execLnkRetrain port s
  | .lnkFence port => Sys2Proof.Machine.execLnkFence port s
  | .lnkUnfence port => Sys2Proof.Machine.execLnkUnfence port s
  | .portDrainComplete port => Sys2Proof.Machine.execPortDrainComplete port s
  | .equalisationAndFecLock port rev inv rx tx => Sys2Proof.Machine.execEqualisationAndFecLock port rev inv rx tx s
  | .linkKeying port ev => Sys2Proof.Machine.execLinkKeying port ev s
  | .keysInstalled port occ => Sys2Proof.Machine.execKeysInstalled port occ s
  | .trainingTimeout port => Sys2Proof.Machine.execTrainingTimeout port s
  | .enableRetry port => Sys2Proof.Machine.execEnableRetry port s
  | .lossOfSignal port lane => Sys2Proof.Machine.execLossOfSignal port lane s
  | .noFlitTimeout port => Sys2Proof.Machine.execNoFlitTimeout port s
  | .flitReceive port rx => Sys2Proof.Machine.execFlitReceive port rx s
  | .flitTransmit port => Sys2Proof.Machine.execFlitTransmit port s
  | .flowMoveTimeout port => Sys2Proof.Machine.execFlowMoveTimeout port s
  | .txTapStep port stp => Sys2Proof.Machine.execTxTapStep port stp s
  | .linkMargin port heavy total => Sys2Proof.Machine.execLinkMargin port heavy total s
  | .packetArrival port pkt => Sys2Proof.Machine.execPacketArrival port pkt s
  | .packetEgress slot => Sys2Proof.Machine.execPacketEgress slot s
  | .epochMessage pkt => Sys2Proof.Machine.execEpochMessage pkt s
  | .fabricTileArrival pkt => Sys2Proof.Machine.execFabricTileArrival pkt s
  | .rcredArrival pkt => Sys2Proof.Machine.execRcredArrival pkt s
  | .failureReport pos => Sys2Proof.Machine.execFailureReport pos s
  | .heartbeatMiss pos => Sys2Proof.Machine.execHeartbeatMiss pos s
  | .routeTablesComputed => Sys2Proof.Machine.execRouteTablesComputed s
  | .routePacket version time table => Sys2Proof.Machine.execRoutePacket version time table s
  | .routeCommit groups => Sys2Proof.Machine.execRouteCommit groups s
  | .rgJoin gid expect step => Sys2Proof.Machine.execRgJoin gid expect step s
  | .rgJoinTimeout gid => Sys2Proof.Machine.execRgJoinTimeout gid s
  | .redupArrival pkt => Sys2Proof.Machine.execRedupArrival pkt s
  | .shardComplete gid => Sys2Proof.Machine.execShardComplete gid s
  | .shardReport gid shard twin cnt => Sys2Proof.Machine.execShardReport gid shard twin cnt s
  | .commit gid => Sys2Proof.Machine.execCommit gid s
  | .reddnArrival pkt => Sys2Proof.Machine.execReddnArrival pkt s
  | .contributorLost gid lost => Sys2Proof.Machine.execContributorLost gid lost s
  | .remoteFenceSignal pkt => Sys2Proof.Machine.execRemoteFenceSignal pkt s
  | .fabricWeirArrival pkt => Sys2Proof.Machine.execFabricWeirArrival pkt s
  | .fabricWeirRelease pkt => Sys2Proof.Machine.execFabricWeirRelease pkt s
  | .fabricWeirJoin pkt => Sys2Proof.Machine.execFabricWeirJoin pkt s
  | .fabricWeirJoinTimeout part vid => Sys2Proof.Machine.execFabricWeirJoinTimeout part vid s
  | .fabricWeirMemberFailure part vid => Sys2Proof.Machine.execFabricWeirMemberFailure part vid s
  | .waitRelease grant => Sys2Proof.Machine.execWaitRelease grant s
  | .weirReleaseComplete part vid => Sys2Proof.Machine.execWeirReleaseComplete part vid s
  | .deadlock part => Sys2Proof.Machine.execDeadlock part s
  | .sqtDoorbell fn q idx pkts => Sys2Proof.Machine.execSqtDoorbell fn q idx pkts s
  | .cqhDoorbell fn q idx => Sys2Proof.Machine.execCqhDoorbell fn q idx s
  | .commandFetch fn q rd => Sys2Proof.Machine.execCommandFetch fn q rd s
  | .commandCompletion fn q => Sys2Proof.Machine.execCommandCompletion fn q s
  | .nopCmd fn q => Sys2Proof.Machine.execNopCmd fn q s
  | .ctxOpen fn q => Sys2Proof.Machine.execCtxOpen fn q s
  | .ctxClose fn q => Sys2Proof.Machine.execCtxClose fn q s
  | .deathSequenceDone fn ctx => Sys2Proof.Machine.execDeathSequenceDone fn ctx s
  | .qCreate fn q => Sys2Proof.Machine.execQCreate fn q s
  | .qDestroy fn q => Sys2Proof.Machine.execQDestroy fn q s
  | .qResume fn q => Sys2Proof.Machine.execQResume fn q s
  | .memAlloc fn q => Sys2Proof.Machine.execMemAlloc fn q s
  | .memFree fn q => Sys2Proof.Machine.execMemFree fn q s
  | .mapCmd fn q => Sys2Proof.Machine.execMapCmd fn q s
  | .unmap fn q => Sys2Proof.Machine.execUnmap fn q s
  | .copyIn fn q rd => Sys2Proof.Machine.execCopyIn fn q rd s
  | .copyOut fn q bad => Sys2Proof.Machine.execCopyOut fn q bad s
  | .loadImage fn q => Sys2Proof.Machine.execLoadImage fn q s
  | .launch fn q => Sys2Proof.Machine.execLaunch fn q s
  | .stopCmd fn q => Sys2Proof.Machine.execStopCmd fn q s
  | .synCreate fn q => Sys2Proof.Machine.execSynCreate fn q s
  | .synDestroy fn q => Sys2Proof.Machine.execSynDestroy fn q s
  | .synExport fn q => Sys2Proof.Machine.execSynExport fn q s
  | .synSignal fn q => Sys2Proof.Machine.execSynSignal fn q s
  | .synWait fn q => Sys2Proof.Machine.execSynWait fn q s
  | .sipStart fn q => Sys2Proof.Machine.execSipStart fn q s
  | .sipStop fn q => Sys2Proof.Machine.execSipStop fn q s
  | .aqCreate fn q => Sys2Proof.Machine.execAqCreate fn q s
  | .aqWrite fn q rd => Sys2Proof.Machine.execAqWrite fn q rd s
  | .aqSeal fn q => Sys2Proof.Machine.execAqSeal fn q s
  | .aqRelease fn q => Sys2Proof.Machine.execAqRelease fn q s
  | .rgCreate fn q => Sys2Proof.Machine.execRgCreate fn q s
  | .rgClose fn q => Sys2Proof.Machine.execRgClose fn q s
  | .cocPrepare fn q => Sys2Proof.Machine.execCocPrepare fn q s
  | .cocTake fn q => Sys2Proof.Machine.execCocTake fn q s
  | .cocStopEnd part => Sys2Proof.Machine.execCocStopEnd part s
  | .cocImageComplete part => Sys2Proof.Machine.execCocImageComplete part s
  | .cocTicketExpiry part => Sys2Proof.Machine.execCocTicketExpiry part s
  | .cocRestore fn q img => Sys2Proof.Machine.execCocRestore fn q img s
  | .cocRestoreComplete part => Sys2Proof.Machine.execCocRestoreComplete part s
  | .stepMark fn q => Sys2Proof.Machine.execStepMark fn q s
  | .ledgerRead fn q => Sys2Proof.Machine.execLedgerRead fn q s
  | .twinPolicy fn q => Sys2Proof.Machine.execTwinPolicy fn q s
  | .ledgerMirror part entry => Sys2Proof.Machine.execLedgerMirror part entry s
  | .sparePartitionsReady allowed parts regions hold => Sys2Proof.Machine.execSparePartitionsReady allowed parts regions hold s
  | .spareRegionTimeout => Sys2Proof.Machine.execSpareRegionTimeout s
  | .twinTransferComplete ok rx => Sys2Proof.Machine.execTwinTransferComplete ok rx s
  | .partCreate fn q => Sys2Proof.Machine.execPartCreate fn q s
  | .partDrain fn q => Sys2Proof.Machine.execPartDrain fn q s
  | .drainScrub part => Sys2Proof.Machine.execDrainScrub part s
  | .drainComplete part => Sys2Proof.Machine.execDrainComplete part s
  | .partPreempt fn q => Sys2Proof.Machine.execPartPreempt fn q s
  | .partResume fn q => Sys2Proof.Machine.execPartResume fn q s
  | .partMode fn q => Sys2Proof.Machine.execPartMode fn q s
  | .partStatus fn q => Sys2Proof.Machine.execPartStatus fn q s
  | .lockInterface vf => Sys2Proof.Machine.execLockInterface vf s
  | .stopInterface vf => Sys2Proof.Machine.execStopInterface vf s
  | .ideFail vf => Sys2Proof.Machine.execIdeFail vf s
  | .ideKmKeyProg vf slot key => Sys2Proof.Machine.execIdeKmKeyProg vf slot key s
  | .spdmGetMeasurements vf nonce => Sys2Proof.Machine.execSpdmGetMeasurements vf nonce s
  | .functionLevelReset vf => Sys2Proof.Machine.execFunctionLevelReset vf s
  | .hostPortReset => Sys2Proof.Machine.execHostPortReset s
  | .chrGo fn => Sys2Proof.Machine.execChrGo fn s
  | .chrDoneClear fn => Sys2Proof.Machine.execChrDoneClear fn s
  | .getCerts fn => Sys2Proof.Machine.execGetCerts fn s
  | .getReport fn => Sys2Proof.Machine.execGetReport fn s
  | .keyInstall fn => Sys2Proof.Machine.execKeyInstall fn s
  | .keyDestroy fn => Sys2Proof.Machine.execKeyDestroy fn s
  | .slotInfo fn => Sys2Proof.Machine.execSlotInfo fn s
  | .compactLoad fn => Sys2Proof.Machine.execCompactLoad fn s
  | .compactRetire fn => Sys2Proof.Machine.execCompactRetire fn s
  | .policyLoad fn => Sys2Proof.Machine.execPolicyLoad fn s
  | .challenge fn => Sys2Proof.Machine.execChallenge fn s
  | .token fn => Sys2Proof.Machine.execToken fn s
  | .vaultRemask => Sys2Proof.Machine.execVaultRemask s
  | .trngFail => Sys2Proof.Machine.execTrngFail s
  | .controllerPeriod activity => Sys2Proof.Machine.execControllerPeriod activity s
  | .gainCalibration milliVolts milliAmps => Sys2Proof.Machine.execGainCalibration milliVolts milliAmps s
  | .vbedSettled bed => Sys2Proof.Machine.execVbedSettled bed s
  | .droop bed => Sys2Proof.Machine.execDroop bed s
  | .droopStretchEnd bed => Sys2Proof.Machine.execDroopStretchEnd bed s
  | .junctionSensorSample idx temp => Sys2Proof.Machine.execJunctionSensorSample idx temp s
  | .stackTempSample idx temp => Sys2Proof.Machine.execStackTempSample idx temp s
  | .coolantSample inlet outlet => Sys2Proof.Machine.execCoolantSample inlet outlet s
  | .throttleHoldExpiry reason => Sys2Proof.Machine.execThrottleHoldExpiry reason s
  | .thermalTrip idx => Sys2Proof.Machine.execThermalTrip idx s
  | .inputOvervoltage => Sys2Proof.Machine.execInputOvervoltage s
  | .inputRecovery => Sys2Proof.Machine.execInputRecovery s
  | .supplySag decivolts => Sys2Proof.Machine.execSupplySag decivolts s
  | .supplyResetSag => Sys2Proof.Machine.execSupplyResetSag s
  | .enPin high => Sys2Proof.Machine.execEnPin high s
  | .pwrCapWrite path v => Sys2Proof.Machine.execPwrCapWrite path v s
  | .pwrSagWrite path v => Sys2Proof.Machine.execPwrSagWrite path v s
  | .pwrSleepEnter path district => Sys2Proof.Machine.execPwrSleepEnter path district s
  | .pwrSleepWake path district => Sys2Proof.Machine.execPwrSleepWake path district s
  | .diapauseEntryComplete => Sys2Proof.Machine.execDiapauseEntryComplete s
  | .wakeComplete => Sys2Proof.Machine.execWakeComplete s
  | .timeExchange port offset ann => Sys2Proof.Machine.execTimeExchange port offset ann s
  | .masterElection cands => Sys2Proof.Machine.execMasterElection cands s
  | .timSet path v => Sys2Proof.Machine.execTimSet path v s
  | .timSetApply order => Sys2Proof.Machine.execTimSetApply order s
  | .ppsInEdge offset => Sys2Proof.Machine.execPpsInEdge offset s
  | .ppsInLoss => Sys2Proof.Machine.execPpsInLoss s
  | .ptpSync => Sys2Proof.Machine.execPtpSync s
  | .ptpDelayReq req => Sys2Proof.Machine.execPtpDelayReq req s
  | .moduleReset cause => Sys2Proof.Machine.execModuleReset cause s
  | .rom digestOk digest straps => Sys2Proof.Machine.execRom digestOk digest straps s
  | .otp => Sys2Proof.Machine.execOtp s
  | .chrysalisTest ok trngOk => Sys2Proof.Machine.execChrysalisTest ok trngOk s
  | .firmware copies => Sys2Proof.Machine.execFirmware copies s
  | .identity => Sys2Proof.Machine.execIdentity s
  | .rails => Sys2Proof.Machine.execRails s
  | .memoryTest fails => Sys2Proof.Machine.execMemoryTest fails s
  | .logicTest fails => Sys2Proof.Machine.execLogicTest fails s
  | .stacks fails => Sys2Proof.Machine.execStacks fails s
  | .keys fails => Sys2Proof.Machine.execKeys fails s
  | .aquifer ports gib ok => Sys2Proof.Machine.execAquifer ports gib ok s
  | .ready plan => Sys2Proof.Machine.execReady plan s
  | .runtimeBedFence sec fault => Sys2Proof.Machine.execRuntimeBedFence sec fault s
  | .rasRecord => Sys2Proof.Machine.execRasRecord s
  | .flashRecordCopy => Sys2Proof.Machine.execFlashRecordCopy s
  | .monCmdReset path => Sys2Proof.Machine.execMonCmdReset path s
  | .monCmdClrfence path => Sys2Proof.Machine.execMonCmdClrfence path s
  | .monFwctlStage path len => Sys2Proof.Machine.execMonFwctlStage path len s
  | .monFwctlCommit path img copy => Sys2Proof.Machine.execMonFwctlCommit path img copy s
  | .monFwctlAbort path => Sys2Proof.Machine.execMonFwctlAbort path s
  | .firmwareCommitDone => Sys2Proof.Machine.execFirmwareCommitDone s
  | .smbusSetOffset off => Sys2Proof.Machine.execSmbusSetOffset off s
  | .smbusRead => Sys2Proof.Machine.execSmbusRead s
  | .smbusWrite off v => Sys2Proof.Machine.execSmbusWrite off v s
  | .l2RegisterRead off count => Sys2Proof.Machine.execL2RegisterRead off count s
  | .l2RegisterWrite off vs => Sys2Proof.Machine.execL2RegisterWrite off vs s
  | .cablePresent port cable => Sys2Proof.Machine.execCablePresent port cable s
  | .csrBadAccess path off isWrite => Sys2Proof.Machine.execCsrBadAccess path off isWrite s
  | .registerWrite path off v => Sys2Proof.Machine.execRegisterWrite path off v s
  | .idnAqctlWrite fn v => Sys2Proof.Machine.execIdnAqctlWrite fn v s
  | .synQuotaWrite path part reg v => Sys2Proof.Machine.execSynQuotaWrite path part reg v s
  | .synStagWrite path part v => Sys2Proof.Machine.execSynStagWrite path part v s
  | .secCenstagClr path sec entry v => Sys2Proof.Machine.execSecCenstagClr path sec entry v s
  | .secMxcntRead path core => Sys2Proof.Machine.execSecMxcntRead path core s
  | .secVccntRead path core => Sys2Proof.Machine.execSecVccntRead path core s
  | .secVcwatchRead path core => Sys2Proof.Machine.execSecVcwatchRead path core s
  | .secCensusRead path sec entry word => Sys2Proof.Machine.execSecCensusRead path sec entry word s
  | .sluCounterRead path sl reg => Sys2Proof.Machine.execSluCounterRead path sl reg s
  | .sluEyeRead path sl ch => Sys2Proof.Machine.execSluEyeRead path sl ch s
  | .sipStallRead path sec => Sys2Proof.Machine.execSipStallRead path sec s
  | .aqfCatchRead path sec => Sys2Proof.Machine.execAqfCatchRead path sec s
  | .lnkCntRead path port => Sys2Proof.Machine.execLnkCntRead path port s
  | .hwkDropRead path port => Sys2Proof.Machine.execHwkDropRead path port s
  | .hwkRgCounterRead path e reg => Sys2Proof.Machine.execHwkRgCounterRead path e reg s
  | .synCntRead path part => Sys2Proof.Machine.execSynCntRead path part s
  | .synStagstRead path part => Sys2Proof.Machine.execSynStagstRead path part s
  | .idnPerfRead path o => Sys2Proof.Machine.execIdnPerfRead path o s
  | .pwrThrRead path reg => Sys2Proof.Machine.execPwrThrRead path reg s
  | .pwrSleepDropsRead path => Sys2Proof.Machine.execPwrSleepDropsRead path s
  | .startInterface vf => Sys2Proof.Machine.execStartInterface vf s
  | .powerOn => Sys2Proof.Machine.execPowerOn s
  | .perstRelease => Sys2Proof.Machine.execPerstRelease s
  | .laneLossOfLock port lane => Sys2Proof.Machine.execLaneLossOfLock port lane s
  | .deferredEpochAdvance cid => Sys2Proof.Machine.execDeferredEpochAdvance cid s
  | .mgmtResend idx => Sys2Proof.Machine.execMgmtResend idx s
  | .ppsOutEdge high => Sys2Proof.Machine.execPpsOutEdge high s

end Sys2Proof.Machine
end

