-- ==== Sys2Proof/WellFormed.lean ====
section
/-! DEFINITION. Well-formedness: which Pezal instructions have an encoding (03 R73-R97), and which commands name units that the
device has (00 R6, R7). -/

namespace Sys2Proof

/-! ### Pezal instructions -/

/-- A vector operation without its unused field: SC is VC.EW's only for AXPY (03 R90). -/
def VcOp.wf : VcOp → Bool
  | .ew f _ _ _ sc => decide (f = .axpy) || decide (sc = 0)
  | .un _ _ _ => true
  | .red _ _ _ _ => true
  | .bc _ _ _ _ _ => true
  | .cvt _ _ _ _ => true
  | .upd _ _ _ _ _ => true
  | .rng _ _ => true
/-- An instruction that some word encodes: a field that it does not use is zero (03 R73). -/
def PInstr.wf : PInstr → Bool
  | .alu _ _ _ _ => true
  | .imm o _ _ i => immOk o i.toNat
  | .lds _ _ _ => true
  | .sts _ _ _ => true
  | .br _ _ _ _ => true
  | .jmp _ => true
  | .call _ => true
  | .ret => true
  | .tkw _ _ => true
  | .tset _ _ => true
  | .tbase _ _ _ => true
  | .tget _ _ => true
  | .ccfg _ _ => true
  | .ropen f => f.role || decide (f.depth = 0)
  | .rclose _ _ => true
  | .nop => true
  | .halt => true
  | .brk => true
  | .trap => true
  | .inn _ _ => true
  | .mx _ _ => true
  | .am _ _ => true
  | .vc o _ => o.wf
  | .outf _ _ => true
  | .sy o _ u nf sd _ sb => (!nf || decide (u = .scalar)) && (nf || decide (sd = 0)) && (syUsesSb o || decide (sb = 0))
  | .alloc _ _ _ => true
  | .free nf sd _ => nf || decide (sd = 0)
  | .cpId _ => true
  | .cpCap _ _ => true
  | .cpCfg _ _ => true
  | .cpMode _ => true

/-! ### Commands -/

/-- The units of 00 R6. -/
def coreOk (c : Nat) : Bool := decide (c < 2560)
def secOk (n : Nat) : Bool := decide (n < 10)
def sluOk (n : Nat) : Bool := decide (n < 20)
def portOk (n : Nat) : Bool := decide (n < 48)
def fnOk (f : Nat) : Bool := decide (f < 11)
def partOk (p : Nat) : Bool := decide (p < 10)
def queueOk (q : Nat) : Bool := decide (q < 64)
/-- A virtual function, VF1 to VF10. -/
def vfOk (f : Nat) : Bool := decide (1 ≤ f ∧ f < 11)
/-- A path names a virtual function of the device. -/
def pathOk : Path → Bool
  | .vf k => vfOk k
  | _ => true

/-- A command names only units that the device has. -/
def Instr.wf : Instr → Bool
  | .instructionDispatch core _ => coreOk core
  | .stationRetire core _ => coreOk core
  | .coreHalt core => coreOk core
  | .ctAdd core _ _ _ => coreOk core
  | .ctSub core _ _ _ => coreOk core
  | .ctAnd core _ _ _ => coreOk core
  | .ctOr core _ _ _ => coreOk core
  | .ctXor core _ _ _ => coreOk core
  | .ctSll core _ _ _ => coreOk core
  | .ctSrl core _ _ _ => coreOk core
  | .ctSra core _ _ _ => coreOk core
  | .ctSlt core _ _ _ => coreOk core
  | .ctSltu core _ _ _ => coreOk core
  | .ctMin core _ _ _ => coreOk core
  | .ctMax core _ _ _ => coreOk core
  | .ctMul core _ _ _ => coreOk core
  | .ctMulhu core _ _ _ => coreOk core
  | .ctDivu core _ _ _ => coreOk core
  | .ctRemu core _ _ _ => coreOk core
  | .ctAddi core _ _ _ => coreOk core
  | .ctAndi core _ _ _ => coreOk core
  | .ctOri core _ _ _ => coreOk core
  | .ctXori core _ _ _ => coreOk core
  | .ctSlli core _ _ _ => coreOk core
  | .ctSrli core _ _ _ => coreOk core
  | .ctSrai core _ _ _ => coreOk core
  | .ctLui core _ _ _ => coreOk core
  | .ctLds core _ _ _ => coreOk core
  | .ctSts core _ _ _ => coreOk core
  | .ctBeq core _ _ _ => coreOk core
  | .ctBne core _ _ _ => coreOk core
  | .ctBlt core _ _ _ => coreOk core
  | .ctBge core _ _ _ => coreOk core
  | .ctBltu core _ _ _ => coreOk core
  | .ctBgeu core _ _ _ => coreOk core
  | .ctJmp core _ => coreOk core
  | .ctCall core _ => coreOk core
  | .ctRet core => coreOk core
  | .ctTkw core _ _ => coreOk core
  | .ctTset core _ _ => coreOk core
  | .ctTbase core _ _ _ => coreOk core
  | .ctTget core _ _ => coreOk core
  | .ctCcfg core _ _ => coreOk core
  | .ctRopen core _ => coreOk core
  | .ctRclose core _ => coreOk core
  | .ctNop core => coreOk core
  | .ctHalt core => coreOk core
  | .ctBrk core => coreOk core
  | .ctTrap core => coreOk core
  | .inLdt core => coreOk core
  | .inLdd core => coreOk core
  | .inRcv core => coreOk core
  | .mxMma core => coreOk core
  | .mxProm core => coreOk core
  | .promotionComplete core _ => coreOk core
  | .amSave core => coreOk core
  | .amRest core => coreOk core
  | .amZero core => coreOk core
  | .amMove core => coreOk core
  | .vcEw core => coreOk core
  | .vcUn core => coreOk core
  | .vcRed core => coreOk core
  | .vcBc core => coreOk core
  | .vcCvt core => coreOk core
  | .vcUpd core => coreOk core
  | .vcRng core => coreOk core
  | .ofSt core => coreOk core
  | .ofStl core => coreOk core
  | .ofSnd core => coreOk core
  | .ofPut core => coreOk core
  | .ofGsnd core => coreOk core
  | .syFsig core _ => coreOk core
  | .syFwait core _ => coreOk core
  | .sySacq core _ => coreOk core
  | .syStry core _ => coreOk core
  | .sySrel core _ => coreOk core
  | .syEset core _ => coreOk core
  | .syErst core _ => coreOk core
  | .syEwait core _ => coreOk core
  | .syWeir core _ => coreOk core
  | .syWarr core _ => coreOk core
  | .syWwait core _ => coreOk core
  | .alAlloc core _ _ _ => coreOk core
  | .alFree core _ _ _ => coreOk core
  | .cpId core _ => coreOk core
  | .cpCap core _ _ => coreOk core
  | .cpCfg core _ _ => coreOk core
  | .cpMode core _ => coreOk core
  | .runnelOpenRequest part _ => partOk part
  | .openAcknowledgement part _ => partOk part
  | .canalTileArrival part _ => partOk part
  | .creditReturn part _ => partOk part
  | .closeAcknowledgement part _ => partOk part
  | .siphonDescriptor sec _ => secOk sec
  | .siphonGroupDelivery sec _ => secOk sec
  | .siphonDescriptorComplete sec _ => secOk sec
  | .siphonFenceReached sec _ => secOk sec
  | .freedBlockScrub sec => secOk sec
  | .aquiferRead sec _ => secOk sec
  | .aquiferFrameArrival sec _ _ _ => secOk sec
  | .catchmentFill sec _ => secOk sec
  | .catchmentAgeTick => true
  | .aquiferTagTimeout port => portOk port
  | .readEyeWindow sl _ _ _ _ => sluOk sl
  | .sluiceRead sl _ part _ _ => sluOk sl && partOk part
  | .stackBurstArrival sl _ _ => sluOk sl
  | .sluiceWrite sl _ part _ _ _ _ => sluOk sl && partOk part
  | .groupReencryption sl _ part _ _ _ _ => sluOk sl && partOk part
  | .reencryptionComplete sl => sluOk sl
  | .metadataEviction sl _ _ => sluOk sl
  | .counterPrefetch sl _ _ => sluOk sl
  | .writeBufferDrain sl => sluOk sl
  | .groupRewrite sl _ => sluOk sl
  | .sluiceTagTimeout sl _ => sluOk sl
  | .lnkEnable port => portOk port
  | .lnkDisable port => portOk port
  | .lnkRetrain port => portOk port
  | .lnkFence port => portOk port
  | .lnkUnfence port => portOk port
  | .portDrainComplete port => portOk port
  | .equalisationAndFecLock port _ _ _ _ => portOk port
  | .linkKeying port _ => portOk port
  | .keysInstalled port _ => portOk port
  | .trainingTimeout port => portOk port
  | .enableRetry port => portOk port
  | .lossOfSignal port _ => portOk port
  | .noFlitTimeout port => portOk port
  | .flitReceive port _ => portOk port
  | .flitTransmit port => portOk port
  | .flowMoveTimeout port => portOk port
  | .txTapStep port _ => portOk port
  | .linkMargin port _ _ => portOk port
  | .packetArrival port _ => portOk port
  | .packetEgress _ => true
  | .epochMessage _ => true
  | .fabricTileArrival _ => true
  | .rcredArrival _ => true
  | .failureReport _ => true
  | .heartbeatMiss _ => true
  | .routeTablesComputed => true
  | .routePacket _ _ _ => true
  | .routeCommit _ => true
  | .rgJoin _ _ _ => true
  | .rgJoinTimeout _ => true
  | .redupArrival _ => true
  | .shardComplete _ => true
  | .shardReport _ _ _ _ => true
  | .commit _ => true
  | .reddnArrival _ => true
  | .contributorLost _ _ => true
  | .remoteFenceSignal _ => true
  | .fabricWeirArrival _ => true
  | .fabricWeirRelease _ => true
  | .fabricWeirJoin _ => true
  | .fabricWeirJoinTimeout part _ => partOk part
  | .fabricWeirMemberFailure part _ => partOk part
  | .waitRelease _ => true
  | .weirReleaseComplete part _ => partOk part
  | .deadlock part => partOk part
  | .sqtDoorbell fn q _ pkts => fnOk fn && queueOk q && pkts.all (fun p => p.length == 64)
  | .cqhDoorbell fn q _ => fnOk fn && queueOk q
  | .commandFetch fn q _ => fnOk fn && queueOk q
  | .commandCompletion fn q => fnOk fn && queueOk q
  | .nopCmd fn q => fnOk fn && queueOk q
  | .ctxOpen fn q => fnOk fn && queueOk q
  | .ctxClose fn q => fnOk fn && queueOk q
  | .deathSequenceDone fn _ => fnOk fn
  | .qCreate fn q => fnOk fn && queueOk q
  | .qDestroy fn q => fnOk fn && queueOk q
  | .qResume fn q => fnOk fn && queueOk q
  | .memAlloc fn q => fnOk fn && queueOk q
  | .memFree fn q => fnOk fn && queueOk q
  | .mapCmd fn q => fnOk fn && queueOk q
  | .unmap fn q => fnOk fn && queueOk q
  | .copyIn fn q _ => fnOk fn && queueOk q
  | .copyOut fn q _ => fnOk fn && queueOk q
  | .loadImage fn q => fnOk fn && queueOk q
  | .launch fn q => fnOk fn && queueOk q
  | .stopCmd fn q => fnOk fn && queueOk q
  | .synCreate fn q => fnOk fn && queueOk q
  | .synDestroy fn q => fnOk fn && queueOk q
  | .synExport fn q => fnOk fn && queueOk q
  | .synSignal fn q => fnOk fn && queueOk q
  | .synWait fn q => fnOk fn && queueOk q
  | .sipStart fn q => fnOk fn && queueOk q
  | .sipStop fn q => fnOk fn && queueOk q
  | .aqCreate fn q => fnOk fn && queueOk q
  | .aqWrite fn q _ => fnOk fn && queueOk q
  | .aqSeal fn q => fnOk fn && queueOk q
  | .aqRelease fn q => fnOk fn && queueOk q
  | .rgCreate fn q => fnOk fn && queueOk q
  | .rgClose fn q => fnOk fn && queueOk q
  | .cocPrepare fn q => fnOk fn && queueOk q
  | .cocTake fn q => fnOk fn && queueOk q
  | .cocStopEnd part => partOk part
  | .cocImageComplete part => partOk part
  | .cocTicketExpiry part => partOk part
  | .cocRestore fn q _ => fnOk fn && queueOk q
  | .cocRestoreComplete part => partOk part
  | .stepMark fn q => fnOk fn && queueOk q
  | .ledgerRead fn q => fnOk fn && queueOk q
  | .twinPolicy fn q => fnOk fn && queueOk q
  | .ledgerMirror part _ => partOk part
  | .sparePartitionsReady _ _ _ _ => true
  | .spareRegionTimeout => true
  | .twinTransferComplete _ _ => true
  | .partCreate fn q => fnOk fn && queueOk q
  | .partDrain fn q => fnOk fn && queueOk q
  | .drainScrub part => partOk part
  | .drainComplete part => partOk part
  | .partPreempt fn q => fnOk fn && queueOk q
  | .partResume fn q => fnOk fn && queueOk q
  | .partMode fn q => fnOk fn && queueOk q
  | .partStatus fn q => fnOk fn && queueOk q
  | .lockInterface vf => vfOk vf
  | .stopInterface vf => vfOk vf
  | .ideFail vf => vfOk vf
  | .ideKmKeyProg vf _ _ => vfOk vf
  | .spdmGetMeasurements vf _ => vfOk vf
  | .functionLevelReset vf => vfOk vf
  | .hostPortReset => true
  | .chrGo fn => fnOk fn
  | .chrDoneClear fn => fnOk fn
  | .getCerts fn => fnOk fn
  | .getReport fn => fnOk fn
  | .keyInstall fn => fnOk fn
  | .keyDestroy fn => fnOk fn
  | .slotInfo fn => fnOk fn
  | .compactLoad fn => fnOk fn
  | .compactRetire fn => fnOk fn
  | .policyLoad fn => fnOk fn
  | .challenge fn => fnOk fn
  | .token fn => fnOk fn
  | .vaultRemask => true
  | .trngFail => true
  | .controllerPeriod _ => true
  | .gainCalibration _ _ => true
  | .vbedSettled bed => decide (bed < 160)
  | .droop bed => decide (bed < 160)
  | .droopStretchEnd bed => decide (bed < 160)
  | .junctionSensorSample idx _ => decide (idx < 48)
  | .stackTempSample idx _ => decide (idx < 20)
  | .coolantSample _ _ => true
  | .throttleHoldExpiry reason => decide (reason < 8)
  | .thermalTrip idx => decide (idx < 48)
  | .inputOvervoltage => true
  | .inputRecovery => true
  | .supplySag _ => true
  | .supplyResetSag => true
  | .enPin _ => true
  | .pwrCapWrite path _ => pathOk path
  | .pwrSagWrite path _ => pathOk path
  | .pwrSleepEnter path _ => pathOk path
  | .pwrSleepWake path _ => pathOk path
  | .diapauseEntryComplete => true
  | .wakeComplete => true
  | .timeExchange port _ _ => portOk port
  | .masterElection _ => true
  | .timSet path _ => pathOk path
  | .timSetApply _ => true
  | .ppsInEdge _ => true
  | .ppsInLoss => true
  | .ptpSync => true
  | .ptpDelayReq _ => true
  | .moduleReset _ => true
  | .rom _ _ _ => true
  | .otp => true
  | .chrysalisTest _ _ => true
  | .firmware _ => true
  | .identity => true
  | .rails => true
  | .memoryTest _ => true
  | .logicTest _ => true
  | .stacks _ => true
  | .keys _ => true
  | .aquifer _ _ _ => true
  | .ready _ => true
  | .runtimeBedFence sec fault => secOk sec && (match fault with | .logic b | .memory b => decide (b < 16))
  | .rasRecord => true
  | .flashRecordCopy => true
  | .monCmdReset path => pathOk path
  | .monCmdClrfence path => pathOk path
  | .monFwctlStage path _ => pathOk path
  | .monFwctlCommit path _ _ => pathOk path
  | .monFwctlAbort path => pathOk path
  | .firmwareCommitDone => true
  | .smbusSetOffset _ => true
  | .smbusRead => true
  | .smbusWrite _ _ => true
  | .l2RegisterRead _ _ => true
  | .l2RegisterWrite _ _ => true
  | .cablePresent port _ => portOk port
  | .csrBadAccess path _ _ => pathOk path
  | .registerWrite path _ _ => pathOk path
  | .idnAqctlWrite fn _ => fnOk fn
  | .synQuotaWrite path part _ _ => pathOk path && partOk part
  | .synStagWrite path part _ => pathOk path && partOk part
  | .secCenstagClr path sec _ _ => pathOk path && secOk sec
  | .secMxcntRead path core => pathOk path && coreOk core
  | .secVccntRead path core => pathOk path && coreOk core
  | .secVcwatchRead path core => pathOk path && coreOk core
  | .secCensusRead path sec _ _ => pathOk path && secOk sec
  | .sluCounterRead path sl _ => pathOk path && sluOk sl
  | .sluEyeRead path sl _ => pathOk path && sluOk sl
  | .sipStallRead path sec => pathOk path && secOk sec
  | .aqfCatchRead path sec => pathOk path && secOk sec
  | .lnkCntRead path port => pathOk path && portOk port
  | .hwkDropRead path port => pathOk path && portOk port
  | .hwkRgCounterRead path e _ => pathOk path && decide (e < 64)
  | .synCntRead path part => pathOk path && partOk part
  | .synStagstRead path part => pathOk path && partOk part
  | .idnPerfRead path o => pathOk path && secOk o
  | .pwrThrRead path _ => pathOk path
  | .pwrSleepDropsRead path => pathOk path
  | .startInterface vf => vfOk vf
  | .powerOn => true
  | .perstRelease => true
  | .laneLossOfLock port _ => portOk port
  | .deferredEpochAdvance _ => true
  | .mgmtResend _ => true
  | .ppsOutEdge _ => true

end Sys2Proof
end

