-- ==== Sys2Proof/Certificates/Slice0/Obligations.lean ====
section
/-! DEFINITION. The statements for the provers. Each says, in the terms of the spec's numbered rules, what a command does, what it
leaves alone, or what every command keeps. The helpers in Sys2Proof.Claims name conditions and results that several statements
share. -/

section
open Sys2Proof Sys2Proof.Machine

namespace Sys2Proof.Claims

/-- Core c exists and dispatches: it runs, no stop is under way, and no SY instruction of its scalar unit is outstanding. -/
def Dispatching (c : Nat) (s : State) : Prop := c < 2560 ∧ (s.core c).dispatches = true
/-- Core c becomes k, the partition of the core makes progress (11 R323), and nothing else changes. -/
def coreNext (c : Nat) (s : State) (k : Core) : Out := .next ((s.setCore c k).progress (s.partOf c))

/-- The row of opcode_table.json that executes an instruction of the scalar unit (03 R98): for CT.RCLOSE and the instructions of the
stations, and for a SY instruction that names a token, none here. -/
def scalarRow (c : Nat) : PInstr → Option Instr
  | .alu .add sd sa sb => some (.ctAdd c sd sa sb)
  | .alu .sub sd sa sb => some (.ctSub c sd sa sb)
  | .alu .and sd sa sb => some (.ctAnd c sd sa sb)
  | .alu .or sd sa sb => some (.ctOr c sd sa sb)
  | .alu .xor sd sa sb => some (.ctXor c sd sa sb)
  | .alu .sll sd sa sb => some (.ctSll c sd sa sb)
  | .alu .srl sd sa sb => some (.ctSrl c sd sa sb)
  | .alu .sra sd sa sb => some (.ctSra c sd sa sb)
  | .alu .slt sd sa sb => some (.ctSlt c sd sa sb)
  | .alu .sltu sd sa sb => some (.ctSltu c sd sa sb)
  | .alu .min sd sa sb => some (.ctMin c sd sa sb)
  | .alu .max sd sa sb => some (.ctMax c sd sa sb)
  | .alu .mul sd sa sb => some (.ctMul c sd sa sb)
  | .alu .mulhu sd sa sb => some (.ctMulhu c sd sa sb)
  | .alu .divu sd sa sb => some (.ctDivu c sd sa sb)
  | .alu .remu sd sa sb => some (.ctRemu c sd sa sb)
  | .imm .addi sd sa i => some (.ctAddi c sd sa i)
  | .imm .andi sd sa i => some (.ctAndi c sd sa i)
  | .imm .ori sd sa i => some (.ctOri c sd sa i)
  | .imm .xori sd sa i => some (.ctXori c sd sa i)
  | .imm .slli sd sa i => some (.ctSlli c sd sa i)
  | .imm .srli sd sa i => some (.ctSrli c sd sa i)
  | .imm .srai sd sa i => some (.ctSrai c sd sa i)
  | .imm .lui sd sa i => some (.ctLui c sd sa i)
  | .br .beq sa sb off => some (.ctBeq c sa sb off)
  | .br .bne sa sb off => some (.ctBne c sa sb off)
  | .br .blt sa sb off => some (.ctBlt c sa sb off)
  | .br .bge sa sb off => some (.ctBge c sa sb off)
  | .br .bltu sa sb off => some (.ctBltu c sa sb off)
  | .br .bgeu sa sb off => some (.ctBgeu c sa sb off)
  | .lds sd sa i => some (.ctLds c sd sa i)
  | .sts sd sa i => some (.ctSts c sd sa i)
  | .jmp off => some (.ctJmp c off)
  | .call off => some (.ctCall c off)
  | .ret => some (.ctRet c)
  | .tkw tk sa => some (.ctTkw c tk sa)
  | .tset t sa => some (.ctTset c t sa)
  | .tbase t sa i => some (.ctTbase c t sa i)
  | .tget sd t => some (.ctTget c sd t)
  | .ccfg sa i => some (.ctCcfg c sa i)
  | .ropen f => some (.ctRopen c f)
  | .nop => some (.ctNop c)
  | .halt => some (.ctHalt c)
  | .brk => some (.ctBrk c)
  | .trap => some (.ctTrap c)
  | .sy .fsig ⟨none, none⟩ .scalar nf sd sa sb => some (.syFsig c (.scalar nf sd sa sb))
  | .sy .fwait ⟨none, none⟩ .scalar nf sd sa sb => some (.syFwait c (.scalar nf sd sa sb))
  | .sy .sacq ⟨none, none⟩ .scalar nf sd sa sb => some (.sySacq c (.scalar nf sd sa sb))
  | .sy .stry ⟨none, none⟩ .scalar nf sd sa sb => some (.syStry c (.scalar nf sd sa sb))
  | .sy .srel ⟨none, none⟩ .scalar nf sd sa sb => some (.sySrel c (.scalar nf sd sa sb))
  | .sy .eset ⟨none, none⟩ .scalar nf sd sa sb => some (.syEset c (.scalar nf sd sa sb))
  | .sy .erst ⟨none, none⟩ .scalar nf sd sa sb => some (.syErst c (.scalar nf sd sa sb))
  | .sy .ewait ⟨none, none⟩ .scalar nf sd sa sb => some (.syEwait c (.scalar nf sd sa sb))
  | .sy .weir ⟨none, none⟩ .scalar nf sd sa sb => some (.syWeir c (.scalar nf sd sa sb))
  | .sy .warr ⟨none, none⟩ .scalar nf sd sa sb => some (.syWarr c (.scalar nf sd sa sb))
  | .sy .wwait ⟨none, none⟩ .scalar nf sd sa sb => some (.syWwait c (.scalar nf sd sa sb))
  | .alloc nf sd sa => some (.alAlloc c nf sd sa)
  | .free nf sd sa => some (.alFree c nf sd sa)
  | .cpId sd => some (.cpId c sd)
  | .cpCap sd i => some (.cpCap c sd i)
  | .cpCfg sd i => some (.cpCfg c sd i)
  | .cpMode sd => some (.cpMode c sd)
  | _ => none
/-- The token that an instruction names has reached its threshold, or it names none (02 R47, 03 R100). -/
def tokenAt (k : Core) (t : TokF) : Bool := match t.tkw with
  | none => true
  | some (tk, r) => decide ((k.tok tk.toNat - (k.reg r).truncate 32).toNat < 2 ^ 31)
/-- The outcome of a SY instruction of the scalar unit that names a token to increment (03 R95, R100): as that of one which names none, but
that the token is incremented where it completes, and kept for its completion where it waits. -/
def posting (tki : Option Tok) (c : Nat) : Out → Out
  | .next t =>
    let k := t.core c
    if k.stop.isSome then .next t else
    match k.syPend with
    | some p => .next (t.setCore c { k with syPend := some { p with tki } })
    | none => .next (t.setCore c (k.incOpt tki))
  | o => o
/-- Entry e is at the head of station u of core c, has not started, and nothing holds it back: its token has reached the threshold
(03 R100), no earlier instruction that has not retired conflicts with it (02 R46), and no promotion holds a slot it names (04 R124). -/
def AtHead (c : Nat) (u : Stn) (s : State) (e : QEntry) : Prop :=
  c < 2560 ∧ (s.core c).halt = false ∧ (s.core c).head u = some e ∧ e.stage = .queued ∧ (s.core c).gate e = none
/-- The instruction at the head of station u has taken the first tile of local runnel l of core k, which leaves `rest`: the consumer end's
position is one more (02 R63), and the place is free again once the instruction retires (02 R61). -/
def tookLocal (k : Core) (u : Stn) (l : Spec) (rest : List Tile) : Core :=
  let n := 2 * lnum l + 1
  let k := { k.setLq l rest with lpos := sset 0 k.lpos n (sget 0 k.lpos n + 1) }
  k.setQ u (listMod (fun e => { e with tookL := e.tookL ++ [l] }) 0 (k.q u))
/-- The instruction at the head of a station has had its effect, which led to t, and may retire. -/
def stationDone (c : Nat) (u : Stn) (t : State) : Out :=
  .next (t.setCore c (((t.core c).setStage u .done).setWait u .none))
/-- The instruction at the head of a station has started, which led to t, and waits for an event. -/
def stationStarts (c : Nat) (u : Stn) (t : State) (w : Wait) : Out :=
  .next (t.setCore c (((t.core c).setStage u .running).setWait u w))
/-- Entry e is at the head of station u of core c and its row may run: it has not started, or its accesses are under way (03 R87, R92), and
nothing holds it back, as in AtHead. -/
def Runs (c : Nat) (u : Stn) (s : State) (e : QEntry) : Prop :=
  c < 2560 ∧ (s.core c).halt = false ∧ (s.core c).head u = some e ∧ (e.stage = .queued ∨ e.resumes = true) ∧ (s.core c).gate e = none
/-- The instruction e at the head of a station has faulted in t with a status: it leaves its queue, and the core stops (03 R104). -/
def stationFaults (c : Nat) (u : Stn) (t : State) (e : QEntry) (status : Nat) : Out :=
  .next (t.setCore c (((t.core c).setQ u (((t.core c).q u).drop 1)).fault status u e.pc e.seq))
/-- The instruction at the head of a station waits, with no effect so far. -/
def stationWaits (c : Nat) (u : Stn) (s : State) (w : Wait) : Out := .next (s.setCore c ((s.core c).setWait u w))
/-- What a station does with the outcome of accesses to memory: it goes on where every one gave OK, faults with the status of the first
that did not, and is under way while one waits. -/
def onLines (c : Nat) (u : Stn) (e : QEntry) (kept : State) (done : State → State) : State × LineRes → Out
  | (_, .wait) => stationStarts c u kept .none
  | (t, .done st) => if st = 0 then stationDone c u (done t) else stationFaults c u t e st

/-- A slot may be read: it has no open chunk, or the promotion engine is idle and promotes it first (04 R125). -/
def slotOpen (k : Core) (a : Nat) : Bool := k.d12 || decide ((k.slot a).kc = 0) || !k.engineBusy
/-- The core after that promotion. -/
def slotClosed (k : Core) (a : Nat) : Core := if k.d12 = true ∨ (k.slot a).kc = 0 then k else k.promoteNow a
/-- A source operand of the vector station as its instruction takes it (03 R102; 05 R135): a Pond tile, the values of a slot, the next
tile of L.V, or the next tile of a runnel. None where it is not there yet. -/
def vcTook (c : Nat) (s : State) (k : Core) (e : QEntry) : Spec → Option (Got × Core × Hwk)
  | .pond t => some (⟨k.readTile (e.d t), false⟩, k, s.hwk)
  | .slot a => if slotOpen k a.toNat then some (⟨((slotClosed k a.toNat).slot a.toNat).tile, true⟩, slotClosed k a.toNat, s.hwk) else none
  | .lV => match k.lV with
    | [] => none
    | x :: r => some (⟨x, false⟩, tookLocal k .vector .lV r, s.hwk)
  | .handle q => match takeTile c s k .vector q.toNat with
    | .tile x k' h => some (⟨x, false⟩, k'.noteTake .vector q.toNat, h)
    | _ => none
  | _ => none
/-- The result tile of a VC instruction put to its destination (05 R135, R139): a Pond tile, a slot, L.O or a runnel. None where no place is
free yet. -/
def vcPlaced (c : Nat) (s : State) (k : Core) (e : QEntry) (t : Tile) : Spec → Option State
  | .pond d => some (s.setCore c (k.writeTile (e.d d) t))
  | .slot a => some (s.setCore c (k.setSlot a.toNat (Slot.ofElems t.elems)))
  | .lO => if k.room .lO then some (s.setCore c (k.putLocal .lO t)) else none
  | .handle q =>
    if (sendReady k .vector q.toNat t.fmt).isNone ∧ (sendTile c s k e q.toNat t).2 = false then some (sendTile c s k e q.toNat t).1 else none
  | _ => none
/-- A VC instruction has its result r, from operands whose slot values are `cen`: the tile goes to its destination and the counters and the
census take the counts (05 R143; 06 R174). -/
def vcResult (c : Nat) (s : State) (k : Core) (e : QEntry) (dst : Spec) (r : VcOut) (cen : List (List Elem)) (o : Out) : Prop :=
  let k := (k.countSats r.sats).countSpecials r.specials
  ∀ t, vcPlaced c s k e r.tile dst = some t → o = stationDone c .vector (t.census c k e cen r.once)
/-- The SRC tile of the outflow station (03 R91): a Pond tile, the values of a slot, or the next tile of L.O. -/
def ofTook (k : Core) (e : QEntry) : Spec → Option (Got × Core)
  | .pond t => some (⟨k.readTile (e.d t), false⟩, k)
  | .slot a => if slotOpen k a.toNat then some (⟨((slotClosed k a.toNat).slot a.toNat).tile, true⟩, slotClosed k a.toNat) else none
  | .lO => match k.lO with
    | [] => none
    | x :: r => some (⟨x, false⟩, tookLocal k .outflow .lO r)
  | _ => none

/-- A SY instruction of the scalar unit of core c has completed with a status, the operation having led to t (03 R95): the status goes
into sd with NF, and the core goes on. -/
def syDone (c : Nat) (s t : State) (nf : Bool) (sd : Reg) (status : Nat) : Out :=
  let k := t.core c
  .next ((t.setCore c (if nf then k.setReg sd (BitVec.ofNat 64 status) else k).advance).progress (s.partOf c))
/-- A SY instruction of the scalar unit of core c waits on an identifier, having joined the object in t (03 R94). -/
def syWaits (c : Nat) (s t : State) (nf : Bool) (sd : Reg) (vid arg : Nat) : Out :=
  .next ((t.setCore c ({ t.core c with syPend := some ⟨nf, sd, none⟩ }.setWait .scalar (.sync vid arg))).progress (s.partOf c))
/-- A SY instruction of the scalar unit with NF 0 stops its core with a status other than OK, the operation having led to t (03 R95). -/
def syFails (c : Nat) (t : State) (status : Nat) : Out := .next (t.setCore c ((t.core c).scalarFault status))
/-- The row of opcode_table.json of a SY operation. -/
def syRow (op : SyOp) (c : Nat) (a : SyAt) : Instr := match op with
  | .fsig => .syFsig c a
  | .fwait => .syFwait c a
  | .sacq => .sySacq c a
  | .stry => .syStry c a
  | .srel => .sySrel c a
  | .eset => .syEset c a
  | .erst => .syErst c a
  | .ewait => .syEwait c a
  | .weir => .syWeir c a
  | .warr => .syWarr c a
  | .wwait => .syWwait c a
/-- Identifier vid of partition p names the Live object o with key x (11 R301, R303). -/
def Names (s : State) (p vid x : Nat) (o : SynObj) : Prop := s.synFind p vid = some (x, o) ∧ o.life = .live

/-- Blocks in ascending order of base. -/
def Ascending (l : List Block) : Prop := l.Pairwise (fun a b => a.base ≤ b.base)
/-- The blocks of every section, and those of every image a partition may go back to, are in ascending order. -/
def BlocksAscending (s : State) : Prop :=
  (∀ e ∈ s.secs, Ascending e.2.live) ∧
  (∀ e ∈ s.parts, (∀ x, e.2.saved = some x → ∀ a ∈ x.allocs, Ascending a.2.1) ∧
    (∀ i ∈ e.2.images, ∀ a ∈ i.2.allocs, Ascending a.2.1))

/-- The counter of a line of a sluice: MAJOR of its group and its MINOR (08 R218). -/
def counterOf (x : Sluice) (line : Nat) : Nat × Nat := ((x.node 0 (line / 64)).major, (x.node 0 (line / 64)).minor (line % 64))
/-- One counter comes before another. -/
def Before (a b : Nat × Nat) : Prop := a.1 < b.1 ∨ (a.1 = b.1 ∧ a.2 < b.2)

/-- Command c of an opcode is in hand on queue q of function f, the device serves the queue, and its work may begin. -/
def InHand (opc f q : Nat) (s : State) (c : Cmd) : Prop :=
  f < 11 ∧ q < 64 ∧ (s.queue f q).cur = some c ∧ c.opc = opc ∧ c.stage = .ready ∧ s.served f q = true
/-- As InHand, on a queue of the VF of partition p, which is neither Stopped nor has its units stopped. -/
def InHandVf (opc p q : Nat) (s : State) (c : Cmd) : Prop :=
  InHand opc (p + 1) q s c ∧ (s.part p).state ≠ .stopped ∧ s.stopped p = false
/-- As InHand, on a queue of PF0, in Ready, for partition p. -/
def InHandPf (opc p q : Nat) (s : State) (c : Cmd) : Prop := InHand opc 0 q s c ∧ s.mon.phase = .ready ∧ c.arg 24 1 = p
/-- The command in hand on queue q of function f is done, with its status and results, after its work led to t. -/
def cmdDone (f q : Nat) (t : State) (status r0 r1 : Nat) : Out := .next (t.finish f q status r0 r1)
/-- The command in hand on queue q of function f has begun, which led to t, and finishes later. -/
def cmdRuns (f q : Nat) (t : State) : Out := .next (Res.apply f q t (.runs t))

/-- The commands that a VF alone issues, with their opcodes (12 R345). -/
def vfRows (f q : Nat) (rd : HostRead) (bad : Option Nat) (img : CocRead) : List (Nat × Instr) := [
  (0x02, .ctxOpen f q), (0x03, .ctxClose f q), (0x10, .memAlloc f q), (0x11, .memFree f q), (0x12, .mapCmd f q), (0x13, .unmap f q),
  (0x14, .copyIn f q rd), (0x15, .copyOut f q bad), (0x20, .loadImage f q), (0x21, .launch f q), (0x22, .stopCmd f q),
  (0x30, .synCreate f q), (0x31, .synDestroy f q), (0x32, .synExport f q), (0x33, .synSignal f q), (0x34, .synWait f q),
  (0x40, .sipStart f q), (0x41, .sipStop f q), (0x48, .aqCreate f q), (0x49, .aqWrite f q rd), (0x4A, .aqSeal f q),
  (0x4B, .aqRelease f q), (0x50, .rgCreate f q), (0x51, .rgClose f q), (0x60, .cocPrepare f q), (0x61, .cocTake f q),
  (0x62, .cocRestore f q img), (0x63, .stepMark f q), (0x64, .ledgerRead f q), (0x65, .twinPolicy f q)]
/-- The commands that PF0 alone issues. -/
def pfRows (f q : Nat) : List (Nat × Instr) := [
  (0x70, .partCreate f q), (0x71, .partDrain f q), (0x72, .partPreempt f q), (0x73, .partResume f q), (0x74, .partMode f q),
  (0x75, .partStatus f q)]
/-- The commands that either issues. -/
def anyRows (f q : Nat) : List (Nat × Instr) :=
  [(0x01, .nopCmd f q), (0x04, .qCreate f q), (0x05, .qDestroy f q), (0x06, .qResume f q)]

/-- The command in hand on queue q of function f cannot begin yet; what it has asked for, which led to t, is under way. -/
def cmdWaits (f q : Nat) (t : State) : Out := .next (Res.apply f q t (.waits t))

/-- A request of an opcode and length in the mailbox of function f is the one that Chrysalis serves next (14 R390), in Ready. -/
def Asked (opc f len : Nat) (s : State) : Prop :=
  f < 11 ∧ s.mboxNext = some f ∧ (s.fn f).mbox.opc = opc ∧ (s.fn f).mbox.len = len ∧ s.mon.phase = .ready

/-- A row of the mailbox: the opcode it serves, whether PF0 and a VF may send it, the lengths it takes, and whether it is served outside Ready
as well (14 R391; 17 R461). -/
structure MboxRow where
  row : Instr
  opc : Nat
  pf : Bool
  vf : Bool
  len : Nat → Bool
  always : Bool
/-- The rows of the mailbox of function f. -/
def mboxRows (f : Nat) : List MboxRow := [
  ⟨.getCerts f, 0x01, true, true, (· == 8), true⟩,
  ⟨.getReport f, 0x02, true, true, (· == 56), true⟩,
  ⟨.keyInstall f, 0x03, false, true, (· == 152), false⟩,
  ⟨.keyDestroy f, 0x04, false, true, (· == 9), false⟩,
  ⟨.slotInfo f, 0x05, true, true, (· == 9), false⟩,
  ⟨.compactLoad f, 0x10, true, false, (fun n => decide (72 ≤ n ∧ (n - 72) % 288 = 0 ∧ n ≤ 4392)), false⟩,
  ⟨.compactRetire f, 0x11, true, false, (· == 10), false⟩,
  ⟨.policyLoad f, 0x12, true, false, (· == 312), false⟩,
  ⟨.challenge f, 0x20, true, false, (· == 9), false⟩,
  ⟨.token f, 0x21, true, false, (· == 360), false⟩]

/-- The memory of the hosts, the plaintext of the Reservoir and the stores of units are in their canonical form: keys rising, nothing
listed that equals what an unlisted key reads as. -/
def Canonical (s : State) : Prop :=
  Memory.wf s.hostMem ∧ Memory.wf s.resv ∧ swf {} s.cores = true ∧ swf {} s.secs = true ∧ swf {} s.sluices = true ∧
  swf {} s.links = true ∧ swf {} s.rgs = true ∧ swf {} s.fns = true ∧ swf {} s.parts = true ∧ swf {} s.syn.parts = true

/-- A read command answers value v and leads to t where its path sees the register; else it answers zero and clears nothing. -/
def Reads (c : Instr) (s : State) (path : Path) (w : Win) (r : CsrName) (v : Nat) (t : State) : Prop :=
  (s.sees path w r = true → exec c s = .next (t.answer Status.ok [BitVec.ofNat 64 v])) ∧
  (s.sees path w r = false → exec c s = .next (s.answer Status.ok [0]))

end Sys2Proof.Claims

open Sys2Proof.Claims

/-- The device takes one command at a time, the front of the queue, and runs it on the rest; an idle device lets a
nanosecond pass (the queue is the model's own; log entry 8). -/
def Obligations.FrontCommandIsExecuted : Prop :=
  ∀ (c : Instr) (rest : List Instr) (s : State),
    step { s with pending := c :: rest } = exec c { s with pending := rest } ∧
    step { s with pending := [] } = .next ({ s with pending := [] }).tick

/-- Scalar arithmetic (03 R75, R81): sd takes the value of the table, 64-bit with wrap-around, shift counts modulo 64; IMM is sign-extended but
in LUI, which keeps sa[31:0] below it; the core goes on at PC + 8. -/
def Obligations.ScalarArithmeticResults : Prop :=
  (∀ (c : Nat) (sd sa sb : Reg) (s : State), Dispatching c s →
     let a := (s.core c).reg sa
     let b := (s.core c).reg sb
     let out (v : Word) : Out := coreNext c s ((s.core c).setReg sd v).advance
     exec (.ctAdd c sd sa sb) s = out (a + b) ∧
     exec (.ctSub c sd sa sb) s = out (a - b) ∧
     exec (.ctAnd c sd sa sb) s = out (a &&& b) ∧
     exec (.ctOr c sd sa sb) s = out (a ||| b) ∧
     exec (.ctXor c sd sa sb) s = out (a ^^^ b) ∧
     exec (.ctSll c sd sa sb) s = out (a <<< (b.toNat % 64)) ∧
     exec (.ctSrl c sd sa sb) s = out (a >>> (b.toNat % 64)) ∧
     exec (.ctSra c sd sa sb) s = out (BitVec.ofInt 64 (a.toInt / 2 ^ (b.toNat % 64))) ∧
     exec (.ctSlt c sd sa sb) s = out (if a.toInt < b.toInt then 1 else 0) ∧
     exec (.ctSltu c sd sa sb) s = out (if a.toNat < b.toNat then 1 else 0) ∧
     exec (.ctMin c sd sa sb) s = out (BitVec.ofInt 64 (min a.toInt b.toInt)) ∧
     exec (.ctMax c sd sa sb) s = out (BitVec.ofInt 64 (max a.toInt b.toInt)) ∧
     exec (.ctMul c sd sa sb) s = out (BitVec.ofNat 64 (a.toNat * b.toNat)) ∧
     exec (.ctMulhu c sd sa sb) s = out (BitVec.ofNat 64 (a.toNat * b.toNat / 2 ^ 64)) ∧
     exec (.ctDivu c sd sa sb) s = out (if b = 0 then BitVec.allOnes 64 else BitVec.ofNat 64 (a.toNat / b.toNat)) ∧
     exec (.ctRemu c sd sa sb) s = out (if b = 0 then a else BitVec.ofNat 64 (a.toNat % b.toNat))) ∧
  (∀ (c : Nat) (sd sa : Reg) (i : BitVec 32) (s : State), Dispatching c s →
     let a := (s.core c).reg sa
     let x : Word := BitVec.ofInt 64 i.toInt
     let n := i.toNat % 64
     let out (v : Word) : Out := coreNext c s ((s.core c).setReg sd v).advance
     exec (.ctAddi c sd sa i) s = out (a + x) ∧
     exec (.ctAndi c sd sa i) s = out (a &&& x) ∧
     exec (.ctOri c sd sa i) s = out (a ||| x) ∧
     exec (.ctXori c sd sa i) s = out (a ^^^ x) ∧
     exec (.ctSlli c sd sa i) s = out (a <<< n) ∧
     exec (.ctSrli c sd sa i) s = out (a >>> n) ∧
     exec (.ctSrai c sd sa i) s = out (BitVec.ofInt 64 (a.toInt / 2 ^ n)) ∧
     exec (.ctLui c sd sa i) s = out (BitVec.ofNat 64 (i.toNat * 2 ^ 32 + a.toNat % 2 ^ 32)))

/-- Branches, JMP, CALL and RET (03 R81, R82, R84): with OFF a multiple of 8 a taken branch goes to PC + OFF and another to PC + 8; CALL pushes
PC + 8 and RET pops. A full or empty return stack, and an offset that is no multiple of 8, stop the core with no other effect: it holds
the record of the fault, with FSTN 0b000 and its offset, and dispatches no more. -/
def Obligations.ControlFlowRows : Prop :=
  (∀ (c : Nat) (sa sb : Reg) (off : BitVec 32) (s : State), Dispatching c s → off.toNat % 8 = 0 →
     let k := s.core c
     let a := k.reg sa
     let b := k.reg sb
     let tgt := (((k.pc : Int) + off.toInt) % 2 ^ 64).toNat
     let nxt := (k.pc + 8) % 2 ^ 64
     let goes (t : Bool) : Out := coreNext c s (k.retireScalar (if t then tgt else nxt))
     exec (.ctBeq c sa sb off) s = goes (decide (a = b)) ∧
     exec (.ctBne c sa sb off) s = goes (decide (a ≠ b)) ∧
     exec (.ctBlt c sa sb off) s = goes (decide (a.toInt < b.toInt)) ∧
     exec (.ctBge c sa sb off) s = goes (decide (b.toInt ≤ a.toInt)) ∧
     exec (.ctBltu c sa sb off) s = goes (decide (a.toNat < b.toNat)) ∧
     exec (.ctBgeu c sa sb off) s = goes (decide (b.toNat ≤ a.toNat)) ∧
     exec (.ctJmp c off) s = goes true ∧
     (k.rstack.length < 16 →
       exec (.ctCall c off) s = coreNext c s ({ k with rstack := nxt :: k.rstack }.retireScalar tgt)) ∧
     (∀ (p : Nat) (r : List Nat), k.rstack = p :: r →
       exec (.ctRet c) s = coreNext c s ({ k with rstack := r }.retireScalar p))) ∧
  (∀ (c : Nat) (off : BitVec 32) (s : State), Dispatching c s →
     let k := s.core c
     let stops (status : Nat) : Out :=
       .next (s.setCore c { k.flush with
         waits := sset .none k.waits 0 .none
         stop := some { drain := false, status, stn := .scalar, pc := k.pc % 65536, seq := k.dseq } })
     (16 ≤ k.rstack.length → off.toNat % 8 = 0 → exec (.ctCall c off) s = stops 0x44) ∧
     (k.rstack = [] → exec (.ctRet c) s = stops 0x44) ∧
     (off.toNat % 8 ≠ 0 → ∀ sa sb : Reg,
       exec (.ctBeq c sa sb off) s = stops 0x41 ∧ exec (.ctBne c sa sb off) s = stops 0x41 ∧
       exec (.ctBlt c sa sb off) s = stops 0x41 ∧ exec (.ctBge c sa sb off) s = stops 0x41 ∧
       exec (.ctBltu c sa sb off) s = stops 0x41 ∧ exec (.ctBgeu c sa sb off) s = stops 0x41 ∧
       exec (.ctJmp c off) s = stops 0x41 ∧ exec (.ctCall c off) s = stops 0x41))

/-- LDS and STS move 8 little-endian bytes between an s register and the Pond (03 R81, R83) at sa + IMM, a multiple of 8 up to
0x9_FFF8 outside the live receive rings, once no earlier instruction that has not retired conflicts on the bytes, as R46 checks a
descriptor; before that they wait with no effect. Elsewhere they stop the core with MISALIGNED or BOUNDS and have no effect. -/
def Obligations.PondLoadsAndStores : Prop :=
  ∀ (c : Nat) (sd sa : Reg) (i : BitVec 32) (s : State), Dispatching c s →
    let k := s.core c
    let a := (k.reg sa + BitVec.ofInt 64 i.toInt).toNat
    (a % 8 = 0 → a ≤ 0x9FFF8 → overlaps [(a, a + 8)] k.rings = false →
      (k.hazardFree k.dseq ([.pond a (a + 8)], []) = true →
        exec (.ctLds c sd sa i) s = coreNext c s (k.setReg sd (BitVec.ofNat 64 (leNat (k.bytes a 8)))).advance) ∧
      (k.hazardFree k.dseq ([], [.pond a (a + 8)]) = true →
        exec (.ctSts c sd sa i) s = coreNext c s (k.setBytes a (leBytes 8 (k.reg sd).toNat)).advance) ∧
      (k.hazardFree k.dseq ([.pond a (a + 8)], []) = false →
        exec (.ctLds c sd sa i) s = .next (s.setCore c { k with waits := sset .none k.waits 0 .hazard })) ∧
      (k.hazardFree k.dseq ([], [.pond a (a + 8)]) = false →
        exec (.ctSts c sd sa i) s = .next (s.setCore c { k with waits := sset .none k.waits 0 .hazard }))) ∧
    (a % 8 ≠ 0 →
      exec (.ctLds c sd sa i) s = .next (s.setCore c (k.scalarFault 0x41)) ∧
      exec (.ctSts c sd sa i) s = .next (s.setCore c (k.scalarFault 0x41))) ∧
    (a % 8 = 0 → (0x9FFF8 < a ∨ overlaps [(a, a + 8)] k.rings = true) →
      exec (.ctLds c sd sa i) s = .next (s.setCore c (k.scalarFault 0x01)) ∧
      exec (.ctSts c sd sa i) s = .next (s.setCore c (k.scalarFault 0x01)))

/-- TKW, TSET, TBASE, TGET, CCFG, NOP and the CP class (02 R47; 03 R81, R85, R97; 12 R337): a token that has reached its threshold lets TKW
pass, TSET forces the reserved bits of a descriptor to zero, TBASE writes BASE alone, CCFG takes each word in its range; CP gives the
identity word, an entry of the capability table, a configuration word or the modes of the launch, and stops on an index beyond them. -/
def Obligations.ScalarStateRows : Prop :=
  (∀ (c : Nat) (sd sa : Reg) (t : TReg) (tk : Tok) (i : BitVec 32) (s : State), Dispatching c s →
     let k := s.core c
     let a := k.reg sa
     let out (k' : Core) : Out := coreNext c s k'.advance
     let td (v : Word) : Core := { k with tds := sset 0 k.tds t.toNat (v &&& 0x3FFFFDFFFFFFFFFF#64) }
     ((k.tok tk.toNat - a.truncate 32).toNat < 2 ^ 31 → exec (.ctTkw c tk sa) s = out k) ∧
     exec (.ctTset c t sa) s = out (td a) ∧
     exec (.ctTbase c t sa i) s =
       out (td ((k.td t >>> 20 <<< 20) ||| ((a + BitVec.ofInt 64 i.toInt) &&& 0xFFFFF#64))) ∧
     exec (.ctTget c sd t) s = out (k.setReg sd (k.td t)) ∧
     (64 ≤ a.toNat → a.toNat ≤ 512 → a.toNat % 32 = 0 →
       exec (.ctCcfg c sa 0) s = out { k with cfg := { k.cfg with chunk := a } }) ∧
     exec (.ctCcfg c sa 1) s = out { k with cfg := { k.cfg with seed := a } } ∧
     exec (.ctCcfg c sa 2) s = out { k with cfg := { k.cfg with stream := a } } ∧
     (a.toNat < 65536 → exec (.ctCcfg c sa 3) s = out { k with cfg := { k.cfg with ctag := a } }) ∧
     exec (.ctNop c) s = out k) ∧
  (∀ (c : Nat) (sd : Reg) (i : BitVec 32) (s : State), Dispatching c s →
     let k := s.core c
     let p := s.partOf c
     let me := match k.launch with | some l => l.coord | none => s.coord
     let out (v : Nat) : Out := coreNext c s (k.setReg sd (BitVec.ofNat 64 v)).advance
     exec (.cpId c sd) s = out (c % 4096 + p % 16 * 2 ^ 12 + s.ordinal p (c / 256) * 2 ^ 16 + (s.partSecs p).length * 2 ^ 20 +
       me % 16 * 2 ^ 32 + me / 16 % 16 * 2 ^ 36 + me / 256 % 16 * 2 ^ 40 + me / 4096 % 2 * 2 ^ 44) ∧
     exec (.cpCap c sd 0) s = out (0xD020 + 2 ^ 16 + 9 * 2 ^ 24) ∧
     (s.corePart c = some p → exec (.cpCap c sd 2) s = out (121241 - (s.part p).catchC + (s.part p).catchC * 2 ^ 17)) ∧
     exec (.cpCap c sd 3) s = out (s.aqf.gib + 64 * 2 ^ 16) ∧
     exec (.cpCap c sd 5) s = out (64 + 512 * 2 ^ 10 + 256 * 2 ^ 20) ∧
     (9 ≤ i.toNat → exec (.cpCap c sd i) s = .next (s.setCore c (k.scalarFault 0x01))) ∧
     exec (.cpCfg c sd 0) s = coreNext c s (k.setReg sd k.cfg.chunk).advance ∧
     exec (.cpCfg c sd 3) s = coreNext c s (k.setReg sd k.cfg.ctag).advance ∧
     (4 ≤ i.toNat → exec (.cpCfg c sd i) s = .next (s.setCore c (k.scalarFault 0x0C))) ∧
     (∀ l : Launch, k.launch = some l → exec (.cpMode c sd) s = out ((if l.d12 then 1 else 0) + 2 * (if l.census then 1 else 0))))

/-- HALT, BRK and TRAP stop dispatch with the status OK, BREAK or TRAP (03 R81), and nothing else changes. CORE_HALT halts the core once
no instruction of it runs: of a HALT, BRK or TRAP, once every dispatched instruction has retired; of a fault or a stop, once those left only
block (03 R104). The core records that status, STATE for a HALT that leaves a handle bound (03 R106), and FSTN and FPC of the instruction
where it is not OK (02 R70); its queues and local runnels are empty, and its registers, scratchpad and slots stay. Until then, and with no
stop under way, CORE_HALT changes nothing. -/
def Obligations.HaltBreakTrapAndCoreHalt : Prop :=
  (∀ (c : Nat) (s : State), Dispatching c s →
    let k := s.core c
    let stopped (status : Nat) : State :=
      (s.setCore c { k with
        stop := some { drain := true, status, stn := .scalar, pc := k.pc % 65536, seq := k.dseq }
        dseq := k.dseq + 1, waits := sset .none k.waits 0 .none }).progress (s.partOf c)
    exec (.ctHalt c) s = .next (stopped 0x00) ∧
    exec (.ctBrk c) s = .next (stopped 0x45) ∧
    exec (.ctTrap c) s = .next (stopped 0x46)) ∧
  (∀ (c : Nat) (s : State), c < 2560 → swf {} s.cores = true →
    let k := s.core c
    (k.stop = none → exec (.coreHalt c) s = .next s) ∧
    (∀ x : Stop, k.stop = some x → k.drained x.drain = false → exec (.coreHalt c) s = .next s) ∧
    (∀ x : Stop, k.stop = some x → k.drained x.drain = true →
      let bound := k.handles.any (fun e => e.2.state ≠ .unbound)
      let status := if x.drain = true ∧ x.status = 0 ∧ bound = true then 0x02 else x.status
      ∃ t, exec (.coreHalt c) s = .next t ∧
        (t.core c).halt = true ∧ (t.core c).run = false ∧ (t.core c).stop = none ∧ (t.core c).fstat = status ∧
        (t.core c).fstn = (if status = 0 then .scalar else x.stn) ∧ (t.core c).fpc = (if status = 0 then 0 else x.pc) ∧
        (t.core c).queues = [] ∧ (t.core c).lA = [] ∧ (t.core c).lB = [] ∧ (t.core c).lV = [] ∧ (t.core c).lO = [] ∧
        (t.core c).regs = k.regs ∧ (t.core c).pond = k.pond ∧ (t.core c).slots = k.slots ∧
        t.secs = s.secs ∧ t.sluices = s.sluices ∧ t.resv = s.resv ∧ t.hostMem = s.hostMem))

/-- INSTRUCTION_DISPATCH (02 R42-R44; 03 R73, R79, R84, R98), on a core that dispatches: the word at the program counter runs as the command
of its row where the scalar unit executes it, a SY instruction of the scalar unit once the token it names has reached its threshold, its own token
then incremented as it completes (03 R100); a station's instruction goes to the tail of its queue with the registers it names copied, unless 16
wait there. A program counter at or beyond the image is FETCH, a word that encodes nothing is ILLEGAL, a VC.CVT whose SC its source does
not use is ILLEGAL, an end or slot kind of the wrong sort is OPERAND, a CT.RCLOSE of a handle that is not bound is STATE, and an instruction
store that reports an uncorrectable error in the word faults the core with POISONED (R107; its record is the model's choice, log entry 95).
STATION_RETIRE removes an instruction that has had its effect, increments the token it names (03 R100) and returns the credit of every tile
it took, in order (02 R61). -/
def Obligations.DispatchAndRetirement : Prop :=
  (∀ (c : Nat) (s : State), Dispatching c s →
    let k := s.core c
    let word := sget 0 k.istore (k.pc / 8)
    (∀ bad : Bool, ∃ t, exec (.instructionDispatch c bad) s = .next t) ∧
    (∀ bad : Bool, k.ilen ≤ k.pc → exec (.instructionDispatch c bad) s = .next (s.setCore c (k.scalarFault 0x42))) ∧
    (k.pc < k.ilen → ∃ t, exec (.instructionDispatch c true) s = .next t ∧ (t.core c).stop =
      some { drain := false, status := 0x06, stn := .scalar, pc := k.pc % 65536, seq := k.dseq }) ∧
    (k.pc < k.ilen → decodePezal word = none →
      exec (.instructionDispatch c false) s = .next (s.setCore c (k.scalarFault 0x40))) ∧
    (∀ i : PInstr, k.pc < k.ilen → decodePezal word = some i →
      (k.cvtBad i = true → exec (.instructionDispatch c false) s = .next (s.setCore c (k.scalarFault 0x40))) ∧
      (k.cvtBad i = false → k.operandBad i = true →
        exec (.instructionDispatch c false) s = .next (s.setCore c (k.scalarFault 0x43))) ∧
      (∀ row, scalarRow c i = some row → exec (.instructionDispatch c false) s = exec row s) ∧
      (∀ (op : SyOp) (tok : TokF) (nf : Bool) (sd sa sb : Reg) (row : Instr), i = .sy op tok .scalar nf sd sa sb →
        scalarRow c (.sy op ⟨none, none⟩ .scalar nf sd sa sb) = some row →
        (tokenAt k tok = true → exec (.instructionDispatch c false) s = posting tok.tki c (exec row s)) ∧
        (∀ (tk : Tok) (r : Reg), tok.tkw = some (tk, r) → tokenAt k tok = false → exec (.instructionDispatch c false) s =
          .next (s.setCore c (k.setWait .scalar (.token tk.toNat ((k.reg r).toNat % 2 ^ 32)))))) ∧
      (∀ (tok : TokF) (q : QReg), i = .rclose tok q → (k.handle q.toNat).state = .unbound →
        exec (.instructionDispatch c false) s = .next (s.setCore c (k.scalarFault 0x02))) ∧
      (∀ (u : Stn), k.cvtBad i = false → k.operandBad i = false → insStn k i = some u →
        (∀ tok q, i = .rclose tok q → (k.handle q.toNat).state ≠ .unbound) →
        (((k.q u).filter (fun e => e.stage = .queued)).length < 16 →
          exec (.instructionDispatch c false) s =
            .next ((s.setCore c (k.setQ u (k.q u ++ [k.entry i])).advance).progress (s.partOf c))) ∧
        (16 ≤ ((k.q u).filter (fun e => e.stage = .queued)).length →
          exec (.instructionDispatch c false) s = .next (s.setCore c (k.setWait .scalar .queueFull)))))) ∧
  (∀ (c : Nat) (u : Stn) (s : State) (e : QEntry), c < 2560 → (s.core c).head u = some e →
    (e.stage = .done → exec (.stationRetire c u) s = .next ((e.took.foldl (State.returnCredit c)
      (s.setCore c (((s.core c).setQ u (((s.core c).q u).drop 1)).incOpt (insTok e.ins).tki))).progress (s.partOf c))) ∧
    (e.stage ≠ .done → exec (.stationRetire c u) s = .next s))

/-- The intake station (03 R87; 02 R55, R59): a Pond tile, a tile of a section's DVA window or the next tile of a runnel goes into
the local runnel, once the checks pass and the local runnel has room; where it has none the instruction waits for a credit. An IN.LDD reads
every page and line of its ranges: it delivers the tile where each gives OK, faults with the status of the first that does not, and is under
way while one waits. The checks on the STRIDE that IN.LDD's descriptor names are the model's reading (log entry 92). -/
def Obligations.IntakeRows : Prop :=
  (∀ (c : Nat) (s : State) (e : QEntry) (tok : TokF) (d : LDst) (t : TReg), AtHead c .intake s e → e.ins = .inn (.ldt t d) tok →
    let k := s.core c
    Fmt.reserved (e.d t).fmt = false → (e.d t).okBounds = true → intakeOk k.d12 (e.d t).fmt = true → overlaps (e.d t).ranges k.rings = false →
    (k.room (lspec d) = true → exec (.inLdt c) s = stationDone c .intake (s.setCore c (k.putLocal (lspec d) (k.readTile (e.d t))))) ∧
    (k.room (lspec d) = false → exec (.inLdt c) s = stationWaits c .intake s .credit)) ∧
  (∀ (c : Nat) (s : State) (e : QEntry) (tok : TokF) (d : LDst) (t : TReg) (sa sb sc : Reg), Runs c .intake s e →
    e.ins = .inn (.ldd t d sa sb sc) tok →
    let k := s.core c
    let x := e.d t
    let p := s.partOf c
    let n := coreSec c
    let rows := (List.range 32).map (fun i => (((e.s sa) + BitVec.ofNat 64 i * e.s sb).toNat, Fmt.rowBytes x.fmt))
    let scales := if Fmt.isMx x.fmt then [((e.s sc).toNat, 32)] else []
    Fmt.reserved x.fmt = false → x.stride % 16 = 0 → x.stride ≠ 0xFFFF → Fmt.rowBytes x.fmt ≤ x.stride → intakeOk k.d12 x.fmt = true →
    (e.resumes = false → (rows ++ scales).all (fun y => s.coreRange p n y.1 y.2) = true) →
    (k.room (lspec d) = false → exec (.inLdd c) s = stationWaits c .intake s .credit) ∧
    (k.room (lspec d) = true →
      let read := (if e.resumes then s else s.lookedUp (.core c)).beforeScrub e.past n (fun s => s.readDva (.core c) p n (rows ++ scales))
      let tile := tileOfRows x.fmt x.tr (rows.map (fun y => s.dvaBytes p n y.1 y.2)) ((scales.map (fun y => s.dvaBytes p n y.1 y.2)).flatten)
      exec (.inLdd c) s = onLines c .intake e read.1 (fun r => r.setCore c (k.putLocal (lspec d) tile)) read)) ∧
  (∀ (c : Nat) (s : State) (e : QEntry) (tok : TokF) (d : LDst) (q : QReg), AtHead c .intake s e → e.ins = .inn (.rcv d q) tok →
    let k := s.core c
    let h := k.handle q.toNat
    h.state = .opened → h.consumer = true → h.stn = .intake → intakeOk k.d12 h.fmt = true →
    let takes (ring : List RingItem) : Core :=
      (k.setHandle q.toNat { h with ring, pos := (h.pos + 1) % 2 ^ 32 }).noteTake .intake q.toNat
    (∀ (x : Tile) (rest : List RingItem), h.kind = .canal → h.ring = .tile x :: rest →
      (k.room (lspec d) = true → exec (.inRcv c) s = stationDone c .intake (s.setCore c ((takes rest).putLocal (lspec d) x))) ∧
      (k.room (lspec d) = false → exec (.inRcv c) s = stationWaits c .intake s .credit)) ∧
    (h.kind = .canal → h.ring = [] → exec (.inRcv c) s = stationWaits c .intake s .tile) ∧
    (∀ pkt : Packet, h.kind = .fabric → sget (0, noPacket) s.hwk.rings (ringKey c q.toNat (h.pos % h.depth)) = (1, pkt) → pkt.pos = h.pos →
      k.room (lspec d) = true → exec (.inRcv c) s = stationDone c .intake
        ({ s with hwk := { s.hwk with rings := sset (0, noPacket) s.hwk.rings (ringKey c q.toNat (h.pos % h.depth)) (0, noPacket) } }.setCore c
          ((takes h.ring).putLocal (lspec d) (tileOfPayload h.fmt pkt.payload)))))

/-- The matrix and accumulator-memory stations (03 R88, R89; 04 R113-R126): MX.MMA adds the product of a tile of L.A and one of L.B into the run
plane of its slot, from zero with Z, and hands a whole or last chunk to the promotion engine, for which it waits while the engine is busy; in
D12-emulation it adds into the wide-48 values, each pass rounded as 06 R180 has it, and counts the clamps. Formats that do not go together are
UNSUPPORTED. MX.PROM retires at once where nothing is open, else when the engine has the plane added; PROMOTION_COMPLETE adds the plane into the
wide-48 values; SAVE, REST, ZERO and MOVE keep a slot's image, an open chunk of the slot read being promoted first. -/
def Obligations.MatrixAndAccumulatorRows : Prop :=
  ((∀ (c : Nat) (s : State) (e : QEntry) (tok : TokF) (acc : Acc) (z last : Bool) (a b : Tile) (ra rb : List Tile),
     AtHead c .matrix s e → e.ins = .mx (.mma acc z last) tok →
     let k := s.core c
     k.lA = a :: ra → k.lB = b :: rb →
     let x := if z then {} else k.slot acc.toNat
     let k' := tookLocal (tookLocal k .matrix .lA ra) .matrix .lB rb
     (mxAccepts k.d12 a.fmt b.fmt = false → exec (.mxMma c) s = stationFaults c .matrix s e 0x0C) ∧
     (mxAccepts k.d12 a.fmt b.fmt = true → k.d12 = false →
       let run := sputs 0 [] 0 (List.zipWith runElem (sgets 0 x.run 0 1024) (tilePasses false a b))
       (last = false → x.kc + 32 < e.cfg.chunk.toNat →
         exec (.mxMma c) s = stationDone c .matrix (s.setCore c
           (k'.setSlot acc.toNat { x with run, kc := x.kc + 32 }))) ∧
       ((last = true ∨ e.cfg.chunk.toNat ≤ x.kc + 32) → k.engineBusy = false →
         exec (.mxMma c) s = stationDone c .matrix (s.setCore c
           (k'.setSlot acc.toNat { x with promo := some run, run := [], kc := 0 }))) ∧
       ((last = true ∨ e.cfg.chunk.toNat ≤ x.kc + 32) → k.engineBusy = true →
         exec (.mxMma c) s = stationWaits c .matrix s .engine)) ∧
     (mxAccepts k.d12 a.fmt b.fmt = true → k.d12 = true →
       let l := List.zipWith d12Elem (sgets 0 x.w48 0 1024) (tilePasses true a b)
       exec (.mxMma c) s = stationDone c .matrix (s.setCore c
         ((k'.setSlot acc.toNat { x with w48 := sputs 0 [] 0 (l.map (·.1)) }).countMx (l.map (·.2)).sum)))) ∧
   (∀ (c : Nat) (s : State) (e : QEntry) (tok : TokF) (acc : Acc), AtHead c .matrix s e → e.ins = .mx (.prom acc) tok →
     let x := (s.core c).slot acc.toNat
     ((s.core c).d12 = true ∨ x.kc = 0 → exec (.mxProm c) s = stationDone c .matrix s) ∧
     ((s.core c).d12 = false → x.kc ≠ 0 → (s.core c).engineBusy = false →
       exec (.mxProm c) s = stationStarts c .matrix
         (s.setCore c ((s.core c).setSlot acc.toNat { x with promo := some x.run, run := [], kc := 0 })) .engine) ∧
     ((s.core c).d12 = false → x.kc ≠ 0 → (s.core c).engineBusy = true → exec (.mxProm c) s = stationWaits c .matrix s .engine)) ∧
   (∀ (c : Nat) (s : State) (acc : Acc) (r : Store (BitVec 34)), c < 2560 → ((s.core c).slot acc.toNat).promo = some r →
     let x := (s.core c).slot acc.toNat
     let l := List.zipWith promoteElem (sgets 0 x.w48 0 1024) (sgets 0 r 0 1024)
     let k' := ((s.core c).setSlot acc.toNat { x with w48 := sputs 0 [] 0 (l.map (·.1)), promo := none }).countPromotion
         (l.filter (·.2.1)).length (l.filter (·.2.2)).length
     ((s.core c).promWaits acc = false → exec (.promotionComplete c acc) s = .next (s.setCore c k')) ∧
     ((s.core c).promWaits acc = true → exec (.promotionComplete c acc) s = stationDone c .matrix (s.setCore c k')))) ∧
  (∀ (c : Nat) (s : State) (e : QEntry) (tok : TokF) (a b : Acc) (t : TReg), AtHead c .accmem s e →
     let k := s.core c
     let d := e.d t
     let fits := d.fmt = Fmt.w48 ∧ d.okBounds = true ∧ overlaps d.ranges k.rings = false
     let ka := slotClosed k a.toNat
     let kb := slotClosed k b.toNat
     let ra := slotRead k.d12 (ka.slot a.toNat).elems
     let rb := slotRead k.d12 (kb.slot b.toNat).elems
     (e.ins = .am (.save a t) tok → fits → d.tr = false →
       (slotOpen k a.toNat = true → exec (.amSave c) s = stationDone c .accmem (s.setCore c ((ka.countMx ra.2).writeTile d
         { fmt := Fmt.w48, elems := ra.1, scales := [], tr := false }))) ∧
       (slotOpen k a.toNat = false → exec (.amSave c) s = stationWaits c .accmem s .engine)) ∧
     (e.ins = .am (.rest a t) tok → fits →
       exec (.amRest c) s = stationDone c .accmem (s.setCore c
         (k.setSlot a.toNat { w48 := sputs 0 [] 0 ((k.readTile d).elems.map w48Value) }))) ∧
     (e.ins = .am (.zero a) tok → exec (.amZero c) s = stationDone c .accmem (s.setCore c (k.setSlot a.toNat {}))) ∧
     (e.ins = .am (.move a b) tok →
       (slotOpen k b.toNat = true →
         exec (.amMove c) s = stationDone c .accmem (s.setCore c ((kb.countMx rb.2).setSlot a.toNat (Slot.ofElems rb.1)))) ∧
       (slotOpen k b.toNat = false → exec (.amMove c) s = stationWaits c .accmem s .engine)))

/-- The vector station (03 R90; 05 R135-R154): with operands that pass the checks and are there, EW, UN, RED, BC and CVT put the tile of their
function at the destination, whatever their forms, and count what was clamped and what became NaN or infinite; RED keeps what it does not
replace; RNG gives the words of 256 calls of Philox; UPD in its plain function on Pond operands updates the master values and writes the BF16
weights, and a record with CNT 0 changes nothing and counts a drop. -/
def Obligations.VectorRows : Prop :=
  (∀ (c : Nat) (s : State) (e : QEntry) (tok : TokF) (dst a b : Spec) (ga gb : Got) (k1 k2 : Core) (h1 h2 : Hwk),
     AtHead c .vector s e →
     let k := s.core c
     let fmt := k.dstFmt e dst
     let taken1 := vcTook c s k e a = some (ga, k1, h1) ∧ vcSrcOk k.d12 false ga.tile.fmt = true
     let taken2 := taken1 ∧ vcTook c { s with hwk := h1 } k1 e b = some (gb, k2, h2) ∧ vcSrcOk k.d12 false gb.tile.fmt = true
     let s1 : State := { s with hwk := h1 }
     let s2 : State := { s with hwk := h2 }
     (∀ (fn : EwFn) (sc : Reg), e.ins = .vc (.ew fn dst a b sc) tok → vcCheck k e false dst [a, b] = none → taken2 →
       vcResult c s2 k2 e dst (ewTile k.d12 fn fmt ga gb (flush32 k.d12 (f32 ((e.s sc).toNat % 2 ^ 32)))) (ga.census ++ gb.census)
         (exec (.vcEw c) s)) ∧
     (∀ fn : UnFn, e.ins = .vc (.un fn dst a) tok → vcCheck k e false dst [a] = none → taken1 →
       vcResult c s1 k1 e dst (unTile k.d12 fn fmt ga) ga.census (exec (.vcUn c) s)) ∧
     (∀ (fn : BcFn) (col : Bool), e.ins = .vc (.bc fn col dst a b) tok → vcCheck k e false dst [a, b] = none → taken2 →
       vcResult c s2 k2 e dst (bcTile k.d12 (bcEw fn) col fmt ga gb) (ga.census ++ bcCensus col gb) (exec (.vcBc c) s)) ∧
     (∀ (fn : RedFn) (rows : Bool), e.ins = .vc (.red fn rows dst a) tok → vcCheck k e false dst [a] = none → taken1 →
       let o := redOut k.d12 fn rows fmt ga
       let sats := (o.map (·.sats)).sum
       let put (i : Nat) (x : Elem) : Elem :=
         if rows then (if i % 32 = 0 then (o.map (·.enc)).getD (i / 32) 0 else x)
         else (if i < 32 then (o.map (·.enc)).getD i 0 else x)
       let result (kept : List Elem) : VcOut :=
         ⟨{ fmt, elems := kept.zipIdx.map (fun (x, i) => put i x), scales := [], tr := false }, sats, (o.filter (·.special)).length, sats⟩
       (∀ t : TReg, dst = .pond t → vcResult c s1 (k1.countMx 0) e dst (result (k1.readTile (e.d t)).elems) ga.census (exec (.vcRed c) s)) ∧
       (∀ x : Acc, dst = .slot x → slotOpen k1 x.toNat = true →
         let kx := slotClosed k1 x.toNat
         let raw := (kx.slot x.toNat).elems
         let kept := (raw.zipIdx.filter (fun y => if rows then y.2 % 32 ≠ 0 else 32 ≤ y.2)).map (·.1)
         vcResult c s1 (kx.countMx (slotRead k.d12 kept).2) e dst (result (slotRead k.d12 raw).1) ga.census (exec (.vcRed c) s)) ∧
       ((dst = .lO ∨ ∃ q : QReg, dst = .handle q) →
         vcResult c s1 (k1.countMx 0) e dst (result (List.replicate 1024 0)) ga.census (exec (.vcRed c) s))) ∧
     (∀ (toZero : Bool) (sc : Reg), e.ins = .vc (.cvt toZero dst a sc) tok → vcCheck k e true dst [a] = none →
       vcTook c s k e a = some (ga, k1, h1) → vcSrcOk k.d12 true ga.tile.fmt = true →
       (sc = 0 ∨ ga.tile.fmt = Fmt.int32 ∨ ga.tile.fmt = Fmt.bs8) →
       vcResult c s1 k1 e dst (cvtTile k.d12 (if toZero then .toZero else .rne) fmt ga (e.s sc)) ga.census (exec (.vcCvt c) s))) ∧
  (∀ (c : Nat) (s : State) (e : QEntry) (tok : TokF) (dst : Spec) (sc : Reg), AtHead c .vector s e → e.ins = .vc (.rng dst sc) tok →
     let k := s.core c
     let ds := e.descs [dst]
     (∀ x : Acc, dst ≠ .slot x) → (∀ f, k.specFmt e dst = some f → f = Fmt.int32) →
     ds.all (fun d => d.okBounds && !d.tr && !overlaps d.ranges k.rings) = true → k.handleBad [dst] = false → (e.s sc).toNat < 2 ^ 55 →
     vcResult c s k e dst ⟨{ fmt := Fmt.int32, elems := rngElems e.cfg (e.s sc).toNat, scales := [], tr := false }, 0, 0, 0⟩ [] (exec (.vcRng c) s)) ∧
  (∀ (c : Nat) (s : State) (e : QEntry) (tok : TokF) (td ta tb : TReg) (sc : Reg), AtHead c .vector s e →
     e.ins = .vc (.upd .plain (.pond td) (.pond ta) (.pond tb) sc) tok →
     let k := s.core c
     let at_ := (e.s sc).toNat % 2 ^ 20
     let h := Hyper.of k.d12 (k.bytes at_ 64)
     updCheck k e .plain (.pond td) (.pond ta) (.pond tb) at_ h = none → h.rem = false → k.censusOn = false →
     let zeros := List.replicate 1024 Machine.Num.zero
     let master := ({ fmt := Fmt.fp32, elems := k.readPlane (e.d tb) Fmt.fp32 0, scales := [], tr := false : Tile}.flush k.d12).vals
     let olds := List.zipWith (fun (x : Machine.Num × Machine.Num) (y : Machine.Num × Machine.Num) => UpdElem.mk x.1 x.2 y.1 y.2 0) (master.zip zeros) (zeros.zip zeros)
     let gs := Got.vals ⟨k.readTile (e.d ta), false⟩ k.d12 false
     let news := if h.cnt = 0 then olds
       else List.zipWith (fun (g : Machine.Num × Nat) o => updElem k.d12 .plain h g.1 { o with sats := g.2 }) gs olds
     let outs := news.zipIdx.map (fun (x, i) => updWeight k.d12 e.cfg h i x.w)
     let sats := (news.map (·.sats)).sum + (outs.filter (·.2)).length
     let fin := List.zipWith (fun (g : Machine.Num × Nat) (o : UpdElem) => g.1.isFin && o.finite && (h.lr.isFin && h.wd.isFin)) gs olds
     let specs := ((List.zipWith (fun f (o : UpdElem) => f && !o.finite) fin news).filter id).length
     let k' := if h.cnt = 0 then { k with vcDrops := min (k.vcDrops + 1) 255 }
       else k.writePlane (e.d tb) Fmt.fp32 0 ((news.map (·.w)).map (fun v => BitVec.ofNat 48 (Fmt.conv Fmt.fp32 .rne v).1))
     exec (.vcUpd c) s = stationDone c .vector (s.setCore c (((k'.countSats sats).countSpecials specs).writeTile (e.d td)
       { fmt := Fmt.bf16, elems := outs.map (·.1), scales := [], tr := false })))

/-- The outflow station (03 R91-R93; 05 R143; 10 R280, R281, R292): OF.ST and OF.STL write every line of SRC in the Reservoir and retire once each
is committed, fault with the status of the first line that fails, and are under way while one waits; OF.SND sends SRC for one credit on a canal
runnel or, where the tenancy's epoch is current, on a fabric one, and on a gather end once this module's lines are written; OF.PUT converts SRC
into a Pond tile; OF.GSND puts the block of a slot into a contribution runnel, as BS8 bytes, or as signs with the residual left in the slot, and
the engine takes what it is ready for (the order of its work is the model's, log entry 114). -/
def Obligations.OutflowRows : Prop :=
  (∀ (c : Nat) (s : State) (e : QEntry) (tok : TokF) (src : Spec) (sa sb sc : Reg) (g : Got) (k1 : Core), Runs c .outflow s e →
    let k := s.core c
    let p := s.partOf c
    let fmt := g.tile.fmt
    ofTook k e src = some (g, k1) →
    let wrote (rs : List (Nat × Nat)) : Out :=
      let used := g.src k1.d12
      let w := (s.setCore c (if g.slot then k1.countMx used.2 else k1)).writeRanges p (rs.zip (storeBytes used.1 (e.s sb)))
      onLines c .outflow e s (fun t => t.census c (t.core c) e g.census used.2) w
    (e.ins = .outf (.st src sa sb sc) tok → ofCheck k e src none true false = none → (Fmt.isMx fmt && k.d12) = false →
      s.storeCheck p (coreSec c) (storeRanges fmt (e.s sa) (e.s sb) (e.s sc)) = none →
      exec (.ofSt c) s = wrote (storeRanges fmt (e.s sa) (e.s sb) (e.s sc))) ∧
    (e.ins = .outf (.stl src sa sb) tok → ofCheck k e src none true true = none → Fmt.isMx fmt = false →
      (lineRule fmt (e.s sa) (e.s sb) = false → exec (.ofStl c) s = stationFaults c .outflow s e 0x43) ∧
      (lineRule fmt (e.s sa) (e.s sb) = true →
        s.storeCheck p (coreSec c) (storeRanges fmt (e.s sa) (e.s sb) 0) = none →
        exec (.ofStl c) s = wrote (storeRanges fmt (e.s sa) (e.s sb) 0)))) ∧
  (∀ (c : Nat) (s : State) (e : QEntry) (tok : TokF) (src : Spec) (q : QReg) (g : Got) (k1 : Core), AtHead c .outflow s e →
    e.ins = .outf (.snd src q) tok →
    let k := s.core c
    let h := k.handle q.toNat
    ofCheck k e src none true false (some q) = none → ofTook k e src = some (g, k1) → (Fmt.isMx g.tile.fmt && k.d12) = false →
    h.state = .opened → h.consumer = false → h.stn = .outflow → g.tile.fmt = h.fmt → 0 < h.credits →
    let used := g.src k1.d12
    let k2 := if g.slot then k1.countMx used.2 else k1
    let sent := s.setCore c (k2.setHandle q.toNat
      { h with credits := h.credits - 1, pos := (h.pos + 1) % 2 ^ 32, spc := e.pc, sseq := e.seq })
    let after (t : State) : Out := stationDone c .outflow (t.census c (t.core c) e g.census used.2)
    (h.kind = .canal → exec (.ofSnd c) s =
      after (sent.sendCanal (.item (s.partOf c) h.rid h.peer h.peerQ (.tile used.1)))) ∧
    (h.kind = .fabric → s.tagCurrent (s.coreTag c) = true → exec (.ofSnd c) s =
      after (sent.sendPacket (s.fabricPacket c h 1 h.pos 0 used.1.payload))) ∧
    (h.kind = .fabric → s.tagCurrent (s.coreTag c) = false → exec (.ofSnd c) s = stationFaults c .outflow s e 0x03) ∧
    (∀ gid : Nat, h.kind = .gather gid → s.tagCurrent (s.coreTag c) = true → exec (.ofSnd c) s =
      match s.sendGather c k2 e q.toNat gid used.1 with
      | none => stationWaits c .outflow s .none
      | some t => after t)) ∧
  (∀ (c : Nat) (s : State) (e : QEntry) (tok : TokF) (src : Spec) (ta : TReg) (toZero : Bool) (g : Got) (k1 : Core), AtHead c .outflow s e →
    e.ins = .outf (.put src ta toZero) tok →
    let k := s.core c
    ofCheck k e src (some ta) false false = none → ofTook k e src = some (g, k1) → (Fmt.isMx g.tile.fmt && k.d12) = false →
    k.censusOn = false →
    let used := g.src k1.d12
    let r := tileOfVals (e.d ta).fmt (if toZero then .toZero else .rne) used.1.vals
    exec (.ofPut c) s = stationDone c .outflow
      (s.setCore c (((if g.slot then k1.countMx used.2 else k1).writeTile (e.d ta) r.1).countSats r.2))) ∧
  (∀ (c : Nat) (s : State) (e : QEntry) (tok : TokF) (a : Acc) (q : QReg) (sb : Reg) (gid x : Nat), AtHead c .outflow s e →
    e.ins = .outf (.gsnd a q sb) tok →
    let k := s.core c
    let h := k.handle q.toNat
    h.state = .opened → h.kind = .contribution gid → s.tagCurrent (s.coreTag c) = true → s.findRg gid = some x →
    0 < h.credits → slotOpen k a.toNat = true → k.censusOn = false →
    let k1 := slotClosed k a.toNat
    let r := slotRead k1.d12 (k1.slot a.toNat).elems
    let ex := signedOf 8 (e.s sb).toNat
    let sends (k' : Core) (vals : List Nat) (clamps : Nat) : Out :=
      let tile : Tile := { fmt := Fmt.bs8, elems := vals.map (BitVec.ofNat 48), scales := [(e.s sb).toNat % 256], tr := false }
      stationDone c .outflow ((s.setCore c ((k'.countSats clamps).setHandle q.toNat
        { h with credits := h.credits - 1, pos := (h.pos + 1) % 2 ^ 32, ring := h.ring ++ [.tile tile] })).runEngine x)
    ((s.rg x).sign1 = false →
      let bs := r.1.map (bs8Elem ex)
      exec (.ofGsnd c) s = sends (k1.countMx r.2) (bs.map (·.1)) (bs.filter (·.2)).length) ∧
    ((s.rg x).sign1 = true →
      let bs := r.1.map (sign1Elem ex)
      exec (.ofGsnd c) s = sends ((k1.countMx r.2).setSlot a.toNat (Slot.ofElems (bs.map (·.2.2)))) (bs.map (·.1)) (bs.filter (·.2.1)).length))

/-- Fences, semaphores and events (03 R94, R95; 11 R305-R313). From the scalar unit: a legal forward signal sets the fence and releases the
waiters it reaches, another one is ORDER and is counted; a wait passes at once where its threshold is reached and joins the fence where it is
not; an acquire takes a unit or joins, and STRY without one is UNDERFLOW; a release hands its units to waiters first; and an event is set,
reset and
waited for, one that resets itself releasing one waiter. A status other than OK goes into sd with NF, and stops the core without. From a station's
queue every SY instruction does its operation on the registers copied: it retires with OK, faults with another status, and blocks its
station where it joins. -/
def Obligations.FenceSemaphoreAndEventRows : Prop :=
  (∀ (c : Nat) (nf : Bool) (sd sa sb : Reg) (s : State) (x : Nat) (o : SynObj), Dispatching c s →
    let p := s.partOf c
    let vid := ((s.core c).reg sa).toNat % 65536
    let v := ((s.core c).reg sb).toNat % 2 ^ 48
    let n := ((s.core c).reg sb).toNat % 2 ^ 32
    let dist (a b : Nat) := (b % 2 ^ 48 + 2 ^ 48 - a % 2 ^ 48) % 2 ^ 48
    let at_ : SyAt := .scalar nf sd sa sb
    let joins (thr arg : Nat) : Out :=
      syWaits c s (s.setObj x (some { o with waiters := o.waiters ++ [⟨.core c .scalar, p, vid, thr, false⟩] })) nf sd vid arg
    let answers (t : State) (status : Nat) : Out := if nf then syDone c s t nf sd status else syFails c t status
    Names s p vid x o →
    (o.kind = .fence → 0 < dist o.value v → dist o.value v < 2 ^ 47 →
      let go := o.waiters.filter (fun w => fenceReached v w.thr)
      exec (.syFsig c at_) s = syDone c s ((s.putObj x { o with
        value := v, waiters := o.waiters.filter (fun w => !fenceReached v w.thr) }).grantAll go x 0) nf sd 0) ∧
    (o.kind = .fence → (dist o.value v = 0 ∨ 2 ^ 47 ≤ dist o.value v) →
      exec (.syFsig c at_) s = answers (s.setSynPart p { s.synPart p with cOrder := min ((s.synPart p).cOrder + 1) 65535 }) 0x09) ∧
    (o.kind = .fence → dist v o.value < 2 ^ 47 → exec (.syFwait c at_) s = syDone c s s nf sd 0) ∧
    (o.kind = .fence → 2 ^ 47 ≤ dist v o.value → exec (.syFwait c at_) s = joins v v) ∧
    (o.kind = .sem → 0 < o.value →
      let t := s.putObj x { o with value := o.value - 1, taken := o.taken + 1 }
      exec (.sySacq c at_) s = syDone c s t nf sd 0 ∧ exec (.syStry c at_) s = syDone c s t nf sd 0) ∧
    (o.kind = .sem → o.value = 0 → exec (.sySacq c at_) s = joins 0 0 ∧
      exec (.syStry c at_) s = answers (s.setSynPart p { s.synPart p with cUnder := min ((s.synPart p).cUnder + 1) 65535 }) 0x08) ∧
    (let w := min n o.waiters.length
     o.kind = .sem → 0 < n → n < 2 ^ 32 - 1 → o.value + (n - w) < 2 ^ 32 →
      exec (.sySrel c at_) s = syDone c s ((s.putObj x { o with
        value := o.value + (n - w), given := o.given + n, taken := o.taken + w
        waiters := o.waiters.drop w }).grantAll (o.waiters.take w) x 0) nf sd 0) ∧
    (o.kind = .event → o.set = true → exec (.syEset c at_) s = syDone c s s nf sd 0) ∧
    (o.kind = .event → o.set = false → o.auto = false →
      exec (.syEset c at_) s = syDone c s ((s.putObj x { o with set := true, waiters := [] }).grantAll o.waiters x 0) nf sd 0) ∧
    (o.kind = .event → o.set = false → o.auto = true → o.waiters = [] →
      exec (.syEset c at_) s = syDone c s (s.putObj x { o with set := true }) nf sd 0) ∧
    (∀ (w : Waiter) (r : List Waiter), o.kind = .event → o.set = false → o.auto = true → o.waiters = w :: r →
      exec (.syEset c at_) s = syDone c s ((s.putObj x { o with waiters := r }).grant w x 0) nf sd 0) ∧
    (o.kind = .event → exec (.syErst c at_) s = syDone c s (if o.set then s.putObj x { o with set := false } else s) nf sd 0) ∧
    (o.kind = .event → o.set = true →
      exec (.syEwait c at_) s = syDone c s (if o.auto then s.putObj x { o with set := false } else s) nf sd 0) ∧
    (o.kind = .event → o.set = false → exec (.syEwait c at_) s = joins 0 0)) ∧
  (∀ (c : Nat) (u : Stn) (op : SyOp) (tok : TokF) (v : Stn) (nf : Bool) (sd sa sb : Reg) (s : State) (e : QEntry), AtHead c u s e →
    e.ins = .sy op tok v nf sd sa sb →
    let vid := (e.s sa).toNat % 65536
    let arg := syArg op (e.s sb)
    exec (syRow op c (.queued u)) s = match s.synOp (s.partOf c) vid op arg (.core c u) with
      | (t, .done st) => if st = 0 then stationDone c u t else stationFaults c u t e st
      | (t, .waits) => stationStarts c u t (.sync vid arg))

/-- Weirs, releases and synchronisation from the fabric (03 R94; 11 R306, R309, R314-R318): an arrival is counted once per phase; the last one
flips the sense and releases the waiters; WWAIT waits for the phase the core arrived in; a granted release reaches its waiter, in the scalar
unit, at the head of a station or in a command in hand; a release that is complete lets the arrivals held meanwhile be counted; a current fence
signal to an exported fence is applied; an arrival and a release of a fabric weir go on; the root counts joins and answers each member once all
have joined, a member's creation completes with the answer, a join that comes early is kept, a timeout ends a creation and a failed member
the weir's life. -/
def Obligations.WeirAndFabricSyncRows : Prop :=
  ((∀ (c : Nat) (nf : Bool) (sd sa sb : Reg) (s : State) (x : Nat) (o : SynObj), Dispatching c s →
     let p := s.partOf c
     let vid := ((s.core c).reg sa).toNat % 65536
     let at_ : SyAt := .scalar nf sd sa sb
     let arrived := o.arrived ++ [c]
     let came := (s.putObj x { o with arrived }).setCore c
       { s.core c with weirPhase := sset 0 (s.core c).weirPhase x (b2n o.sense + 1) }
     Names s p vid x o → o.kind = .weir → s.obj x = some o → o.mask.contains c = true → o.releasing = false →
     o.arrived.contains c = false →
     (o.mask.all arrived.contains = false →
       exec (.syWarr c at_) s = syDone c s came nf sd 0 ∧
       exec (.syWeir c at_) s = syWaits c s
         (came.setObj x (some { o with arrived, waiters := o.waiters ++ [⟨.core c .scalar, p, vid, b2n o.sense, false⟩] })) nf sd vid 0) ∧
     (o.mask.all arrived.contains = true →
       let t := came.weirFlip x { o with arrived }
       exec (.syWarr c at_) s = syDone c s t nf sd 0 ∧ exec (.syWeir c at_) s = syDone c s t nf sd 0)) ∧
   (∀ (c : Nat) (nf : Bool) (sd sa sb : Reg) (s : State) (x ph : Nat) (o : SynObj), Dispatching c s →
     let p := s.partOf c
     let vid := ((s.core c).reg sa).toNat % 65536
     let at_ : SyAt := .scalar nf sd sa sb
     Names s p vid x o → (o.kind = .weir ∨ o.kind = .fweir) → sget 0 (s.core c).weirPhase x = ph + 1 →
     (ph ≠ b2n o.sense → exec (.syWwait c at_) s = syDone c s s nf sd 0) ∧
     (ph = b2n o.sense → exec (.syWwait c at_) s = syWaits c s
       (s.setObj x (some { o with waiters := o.waiters ++ [⟨.core c .scalar, p, vid, ph, false⟩] })) nf sd vid 0)) ∧
   (∀ (g : Nat) (s : State) (r : Grant), sget none s.syn.grants g = some r → s.frozen r.part = false →
     let t : State := { s with syn := { s.syn with grants := sset none s.syn.grants g none } }
     (∀ (c : Nat) (pd : ScalarSy), r.who = .core c .scalar → (s.core c).halt = false → (s.core c).stopped = false →
       (s.core c).syPend = some pd → exec (.waitRelease g) s = .next ((t.setCore c
         ({ s.core c with syPend := none }.sySettle pd.nf pd.sd pd.tki r.status)).progress r.part)) ∧
     (∀ (c : Nat) (u : Stn) (e : QEntry), r.who = .core c u → u ≠ .scalar → (s.core c).halt = false → (s.core c).stopped = false →
       (s.core c).head u = some e → e.stage = .running → exec (.waitRelease g) s =
         if r.status = 0 then stationDone c u t
         else .next (t.setCore c ((((s.core c).setQ u (((s.core c).q u).drop 1)).setWait u .none).fault r.status u e.pc e.seq))) ∧
     (∀ (f q : Nat) (x : Cmd), r.who = .host f q → (s.queue f q).cur = some x →
       let y : Cmd := if x.stage = .waiting ∧ r.status = 0 then { x with stage := .ready } else { x with stage := .done, status := r.status }
       exec (.waitRelease g) s = .next (t.setQueue f q { s.queue f q with cur := some y }))) ∧
   (∀ (p vid x : Nat) (s : State) (o : SynObj), p < 10 → s.synAt p vid = some (x, o) → o.releasing = true →
     s.syn.grants.all (fun g => match g.2 with | some g => g.obj != x || s.frozen g.part | none => true) = true →
     let t := s.putObj x { o with releasing := false, held := [] }
     exec (.weirReleaseComplete p vid) s = .next (t.countHeld p x o.held) ∧
     (o.held = [] → exec (.weirReleaseComplete p vid) s = .next (t.weirCheck p x)))) ∧
  ((∀ (pkt : Packet) (s : State) (p vid x v : Nat) (o : SynObj),
     pkt.arg % 16 = p → p < 10 → pkt.arg / 256 % 65536 = vid → field pkt.payload 0 6 = v → s.tagCurrent pkt.tag = true →
     (s.part p).state ≠ .free → (s.part p).saved = none → (s.part p).cid = pkt.tag % 65536 → Names s p vid x o → o.kind = .fence →
     o.fabric = true → fenceLegal o.value v = true →
     let go := o.waiters.filter (fun w => fenceReached (v % 2 ^ 48) w.thr)
     exec (.remoteFenceSignal pkt) s = .next (((s.takeInbox pkt).putObj x { o with
       value := v % 2 ^ 48, waiters := o.waiters.filter (fun w => !fenceReached (v % 2 ^ 48) w.thr) }).grantAll go x 0)) ∧
   (∀ (pkt : Packet) (s : State) (p x : Nat) (o : SynObj),
     s.tagCurrent pkt.tag = true → s.findFweir (pkt.tag % 65536) (pkt.arg / 256 % 65536) = some (p, x, o) →
     let t := s.takeInbox pkt
     let o' : SynObj := { o with joined := (o.joined ++ [pkt.src]).dedup }
     let counted := t.setObj x (some o')
     (o.life = .live → o.upArr.contains pkt.src = false → exec (.fabricWeirArrival pkt) s =
       .next ((t.putObj x { o with upArr := o.upArr ++ [pkt.src] }).weirCheck p x)) ∧
     (o.life = .live → o.passed = true → (pkt.payload.getD 0 0).toNat % 2 = b2n o.sense →
       exec (.fabricWeirRelease pkt) s = .next (t.fweirRelease p x o)) ∧
     ((s.coord ≠ boxRoot o.box s.coord ∨ (o.box.tw = true ∧ cd s.coord = 1)) →
       exec (.fabricWeirJoin pkt) s = .next (t.fweirCreated x o 0)) ∧
     (s.coord = boxRoot o.box s.coord → (o.box.tw = false ∨ cd s.coord ≠ 1) →
       exec (.fabricWeirJoin pkt) s = .next (if o'.joined.length < fweirMembers o.box then counted
         else (o'.joined.foldl (fun u m => if m = u.coord then u else u.sendSync m 4 p o.number 0 (u.tagOf (u.part p).cid)) counted).fweirCreated
           x o' 0))) ∧
   (∀ (pkt : Packet) (s : State), s.tagCurrent pkt.tag = true → s.findFweir (pkt.tag % 65536) (pkt.arg / 256 % 65536) = none →
     exec (.fabricWeirJoin pkt) s = .next (let t := s.takeInbox pkt
       { t with syn := { t.syn with joins := t.syn.joins.filter (fun j => s.tim.up < j.at_ + 1000000000) ++
         [⟨pkt.tag, pkt.arg / 256 % 65536, pkt.src, s.tim.up⟩] } })) ∧
   (∀ (s : State) (p vid x : Nat) (o : SynObj), p < 10 → s.synAt p vid = some (x, o) → o.kind = .fweir →
     (o.creating.isSome = true → o.since + 1000000000 ≤ s.tim.up →
       exec (.fabricWeirJoinTimeout p vid) s = .next (((s.fweirCreated x o 0x07).bindId p vid 0).setObj x none)) ∧
     (s.tim.up < o.since + 1000000000 → exec (.fabricWeirJoinTimeout p vid) s = .next s) ∧
     (o.life = .live → exec (.fabricWeirMemberFailure p vid) s = .next (s.abandon x))))

/-- An allocation gives the lowest free run that fits (07 R189): the new block lies in the part of the window that may be handed out,
shares no granule with a live block, holds the bytes asked for, and starts and ends at a multiple of 32 granules where it takes 32
or more; the list of blocks stays in ascending order. Where the section holds fewer than 4,096 objects and some place of that size and
alignment is free, the allocation succeeds, at no higher a place. -/
def Obligations.AllocatedBlocksAreFreeAndAligned : Prop :=
  (∀ (c c' : Sec) (bytes a : Nat) (role : BlkRole) (ctx : Option Nat), Ascending c.live →
    c.alloc bytes role ctx = .ok (some a, c') →
    ∃ n, n * 65536 < bytes + 32 * 65536 ∧ bytes ≤ n * 65536 ∧ a + n ≤ c.usable ∧
      (32 ≤ n → a % 32 = 0 ∧ n % 32 = 0) ∧
      (∀ b ∈ c.live, a + n ≤ b.base ∨ b.base + b.n ≤ a) ∧
      (⟨a, n, role, ctx⟩ : Block) ∈ c'.live ∧ (∀ b ∈ c.live, b ∈ c'.live) ∧ Ascending c'.live) ∧
  (∀ (c : Sec) (bytes g : Nat) (role : BlkRole) (ctx : Option Nat), Ascending c.live → 0 < bytes → bytes < 2 ^ 64 - 1 → c.objects < 4096 →
    let k := (bytes + 65535) / 65536
    let n := if 32 ≤ k then (k + 31) / 32 * 32 else k
    g + n ≤ c.usable → (32 ≤ n → g % 32 = 0) → (∀ b ∈ c.live, g + n ≤ b.base ∨ b.base + b.n ≤ g) →
    ∃ a c', c.alloc bytes role ctx = .ok (some a, c') ∧ a ≤ g)

/-- The lists of blocks stay in ascending order of base in every section and every saved image, whatever command runs. -/
def Obligations.BlocksStayAscending : Prop :=
  ∀ (s t : State), BlocksAscending s → step s = .next t → BlocksAscending t

/-- AL.ALLOC and AL.FREE (03 R96; 07 R189; 13 R368) and FREED_BLOCK_SCRUB (07 R191): the DVA of the new block of the core's own section
goes into sd, zero for zero bytes, and a failure's code with NF, without which the core stops; a freed block leaves the live blocks, the reads
of it under way keep its contents (R192), and its granules wait for their scrub; a block of an output or commons object is DENIED, and DVA 0 does
nothing; a scrub waits for the accesses checked against the old block (R192), rewrites the lowest freed block, lets the accesses that waited for
it go on, and audits the tags of the section's sluices (08 R235). -/
def Obligations.AllocationRows : Prop :=
  (∀ (c : Nat) (nf : Bool) (sd sa : Reg) (s : State) (p : Nat), Dispatching c s → s.corePart c = some p →
    let k := s.core c
    let x := (k.reg sa).toNat
    let n := coreSec c
    let fails (status : Nat) : Out :=
      if nf then coreNext c s (k.setReg sd (BitVec.ofNat 64 (2 ^ 63 + status))).advance else .next (s.setCore c (k.scalarFault status))
    (exec (.alAlloc c nf sd sa) s = match (s.sec n).alloc x .priv (s.coreCtx k) with
      | .ok (some a, y) => .next (((s.setSec n y).setCore c
          (k.setReg sd (BitVec.ofNat 64 (s.ordinal p n * 2 ^ 38 + a * 65536))).advance).progress p)
      | .ok (none, _) => coreNext c s (k.setReg sd 0).advance
      | .error st => fails st) ∧
    (x = 0 → exec (.alAlloc c nf sd sa) s = coreNext c s (k.setReg sd 0).advance) ∧
    (∀ (m : Nat) (b : Block), x ≠ 2 ^ 64 - 1 → s.blockBase p x = some (m, b) →
      (b.role = .priv →
        let t := s.markPast p m b
        let u := t.setSec m { t.sec m with
          live := (t.sec m).live.filter (fun y => !(y.base == b.base && y.n == b.n && y.role != .retired))
          scrub := (t.sec m).scrub ++ (t.sec m).unscrubbed b }
        exec (.alFree c nf sd sa) s = .next ((u.setCore c (if nf then (u.core c).setReg sd 0 else u.core c).advance).progress p)) ∧
      (b.role ≠ .priv → exec (.alFree c nf sd sa) s = fails 0x0B)) ∧
    (x = 0 → s.blockBase p 0 = none →
      exec (.alFree c nf sd sa) s = coreNext c s (if nf then k.setReg sd 0 else k).advance)) ∧
  (∀ (n a g : Nat) (s : State), n < 10 → lowestScrub (s.sec n).scrub = some (a, g) →
    (s.scrubWaits n a g = true → exec (.freedBlockScrub n) s = .next s) ∧
    (s.scrubWaits n a g = false →
      let t := s.scrubGranules n a g
      let u := ((t.setSec n { t.sec n with scrub := (t.sec n).scrub.erase (a, g) }).runAllWaiting (2 * n)).runAllWaiting (2 * n + 1)
      exec (.freedBlockScrub n) s = .next
        (if (u.slu (2 * n)).tagsOk ∧ (u.slu (2 * n + 1)).tagsOk then u else u.report (Rec.mk' 0x05 3 0x07 (2 * n)))))

/-- The siphon (07 R192, R203-R206; 02 R48): a Running schedule reads its next descriptor and takes it once it passes every check, faults
with BOUNDS where it does not, and waits where its fence has not been reached; the schedules with a group to deliver are served in rotation, and
a group of at most 8 KiB, read with the contents its block had at the check (R192), goes to the named cores in order; a read that fails faults
the schedule with its status, and one that waits leaves it asking; a finished descriptor moves the schedule on, to Done after the last and to
Idle after a Stop; a reached fence lets a waiting schedule go on, and an abandoned one faults it. -/
def Obligations.SiphonRows : Prop :=
  (∀ (n k p : Nat) (s : State), n < 10 → s.secPart n = some p →
    let x := (s.sec n).sched k
    let at_ := x.list + 64 * x.index
    let y : Sched := { x with asked := false }
    x.state = .running → x.cur = none → x.index < x.count →
    (s.coreRange p n at_ 64 = false → exec (.siphonDescriptor n k) s = .next (s.schedFault n k 0x01)) ∧
    (s.coreRange p n at_ 64 = true → exec (.siphonDescriptor n k) s = .next (match s.readDva (.siphon n k) p n [(at_, 64)] with
      | (t, .wait) => t.setSched n k { x with asked := true }
      | (t, .done st) =>
        if st ≠ 0 then t.schedFault n k st else
        match WinDesc.parse (s.dvaBytes p n at_ 64) with
        | none => t.schedFault n k 0x01
        | some d =>
          if s.windowBad p n d then t.schedFault n k 0x01
          else if d.waitf = false then t.setSched n k { y with cur := some d, moved := 0 }
          else match t.synOp p d.fence .fwait d.fval (.siphon n k) with
            | (u, .waits) => u.setSched n k { y with state := .waiting, cur := some d, moved := 0 }
            | (u, .done st) => if st = 0 then u.setSched n k { y with cur := some d, moved := 0 } else u.schedFault n k st))) ∧
  (∀ (n k p : Nat) (s : State) (d : WinDesc), n < 10 → s.secPart n = some p →
    let x := (s.sec n).sched k
    let g := min 8192 (d.len - x.moved)
    let u := s.setSec n { s.sec n with sipTurn := (k + 1) % 8 }
    x.cur = some d →
    ((s.sec n).sipNext ≠ some k → exec (.siphonGroupDelivery n k) s = .next s) ∧
    ((s.sec n).sipNext = some k → exec (.siphonGroupDelivery n k) s = .next (
      match u.beforeScrub x.past n (fun s => s.readDva (.siphon n k) p n [(d.src + x.moved, g)]) with
      | (t, .wait) => t.setSched n k { x with asked := true }
      | (t, .done st) => if st ≠ 0 then t.schedFault n k st else
        ((d.cores.zipIdx.foldl (fun t c => t.deliverCore n d x.moved (u.dvaBytes p n (d.src + x.moved) g) c.2 c.1) t).setSched n k
          { x with moved := x.moved + g, asked := false }).progress p))) ∧
  (∀ (n k : Nat) (s : State) (d : WinDesc), n < 10 →
    let x := (s.sec n).sched k
    x.state = .running → x.cur = some d → d.len ≤ x.moved →
    exec (.siphonDescriptorComplete n k) s = .next ((if d.len = 0 then
        d.cores.foldl (fun t c => t.setCore (n * 256 + c) ((t.core (n * 256 + c)).incTok d.tok)) s else s).setSched n k { x with
      cur := none, moved := 0, past := [], index := x.index + 1, pos := (x.pos + 1) % 2 ^ 32, stopAsked := false
      state := if x.stopAsked then .idle else if x.count ≤ x.index + 1 then .done else .running })) ∧
  (∀ (n k i : Nat) (s : State) (g : Grant), n < 10 →
    s.syn.grants.find? (fun e => e.2.any (fun g => g.who == .siphon n k && !s.frozen g.part)) = some (i, some g) →
    let x := (s.sec n).sched k
    let goes (y : Sched) : Out := .next (({ s with syn := { s.syn with grants := sset none s.syn.grants i none } }).setSec n
      { s.sec n with scheds := sset {} (s.sec n).scheds k y })
    x.state = .waiting →
    (g.status = 0 → exec (.siphonFenceReached n k) s = goes { x with state := .running }) ∧
    (g.status ≠ 0 → exec (.siphonFenceReached n k) s = goes { x with state := .faulted, fstat := g.status }))

/-- The Aquifer port and the catchment (07 R197-R202, R208): a page lookup that hits sets the slot's age to 0 and reads the line through the
slot's sluice, going on as a bypass miss where the slot's line fails; one that misses starts the fetch of all frames, into a victim slot, or
takes what its fetch has brought; a frame whose locator and MAC verify joins its fetch decoded, an altered one fails it with INTEGRITY, one that
is no frame fails it with POISONED and a Device-fatal record, and the last frame returns the read tag; a complete page fills its slot, or
is served
from its fetch where a line of the slot fails; a tick ages what was not hit in the interval and in use by no read; a tag outstanding for 1 ms
raises a Device-fatal TIMEOUT record. -/
def Obligations.AquiferRows : Prop :=
  (∀ (n p dva q i : Nat) (s : State), n < 10 → s.secPart n = some p →
    let a := dva / 128 * 128
    let pg := pageOf a
    s.regionAt p a = some (q, i) →
    (∀ (m j : Nat), s.findPage (s.catchSecs p n) q pg = some (m, j) →
      let u := s.noteLook (.port n) n q pg (some (m, j))
      exec (.aquiferRead n dva) s = .next (
        match u.readLines .core p m ((rangePieces ((u.sec m).slotOff j + a % 65536) 128).map (·.1)) with
        | (t, .wait) => t
        | (t, .done st) => if st ≠ 0 ∨ (t.findPage [m] q pg).isSome then t.lookedUp (.port n) else t.startFetch p n q pg false)) ∧
    (s.findPage (s.catchSecs p n) q pg = none →
      let u := s.noteLook (.port n) n q pg none
      (u.aqf.fetch n q pg = none → exec (.aquiferRead n dva) s = .next (u.startFetch p n q pg)) ∧
      (∀ f : Fetch, u.aqf.fetch n q pg = some f → exec (.aquiferRead n dva) s = .next (
        if f.bad ≠ 0 then (u.endFetch f).lookedUp (.port n)
        else if f.complete then (if f.fill.isSome then u else u.endFetch f).lookedUp (.port n) else u)))) ∧
  (∀ (n dva fr : Nat) (s : State) (f : Fetch), n < 10 →
    s.aqf.fetches.find? (fun f => f.sec = n ∧ f.dva = pageOf dva ∧ (keyGet fr f.frames).isNone ∧ decide (fr < 16)) = some f → f.discard = false →
    let got (b : List Byte) (st : Nat) : State :=
      let g := { f with frames := keyPut fr b f.frames, bad := if f.bad = 0 then st else f.bad }
      { s with aqf := { s.aqf with
        fetches := s.aqf.fetches.map (fun x => if x = f then g else x)
        tagsOut := if 16 ≤ g.frames.length then s.aqf.tagsOut.filter (fun e => e.1 != f.tag) else s.aqf.tagsOut } }
    exec (.aquiferFrameArrival n dva fr false) s = .next (got [] 0x05) ∧
    (∀ (i : Nat) (r : Region), (s.part f.part).regions.find? (fun r => decide (r.2.base ≤ f.dva ∧ f.dva < r.2.base + r.2.size)) = some (i, r) →
      exec (.aquiferFrameArrival n dva fr true) s = .next (match s.readFrame f.part i ((f.dva - r.base) / 65536) fr with
        | .ok b => got b 0
        | .error st => if st = 0x06 then (got [] st).report (Rec.mk' 0x06 3 0x09 0 ((s.secPart n).getD 0xFF)) else got [] st))) ∧
  (∀ (n dva m i : Nat) (s : State) (f : Fetch), n < 10 →
    s.aqf.fetches.find? (fun f => f.sec = n ∧ f.dva = pageOf dva ∧ f.complete ∧ f.bad = 0 ∧ f.fill.isSome ∧ !f.discard) = some f →
    f.fill = some (m, i) →
    (∀ (t u : State) (e : CSlot), s.fillSlot m i f.bytes = (t, .done 0) → u = { t with aqf := { t.aqf with fetches := t.aqf.fetches.erase f } } →
      (u.sec m).cslot i = some e → e.filling = true →
      exec (.catchmentFill n dva) s = .next (u.setSlot m i { e with valid := true, filling := false, pinned := false })) ∧
    (∀ t : State, s.fillSlot m i f.bytes = (t, .wait) → exec (.catchmentFill n dva) s = .next s) ∧
    (∀ (t : State) (st : Nat), s.fillSlot m i f.bytes = (t, .done st) → st ≠ 0 → ∃ u, exec (.catchmentFill n dva) s = .next u ∧
      (u.sec n).bypass = min ((t.sec n).bypass + 1) 65535 ∧
      u.aqf.fetches = t.aqf.fetches.map (fun x => if x = f then { x with fill := none } else x))) ∧
  (∀ s : State, swf {} s.secs = true → ∃ t, exec .catchmentAgeTick s = .next t ∧ t = { s with secs := t.secs } ∧
    ∀ n : Nat, t.sec n = { s.sec n with catchment := (s.sec n).catchment.map (fun e => (e.1, { e.2 with
      age := if e.2.valid ∧ e.2.pinned = false ∧ e.2.hit = false ∧ s.pageInUse e.2.part e.2.dva = false then min 15 (e.2.age + 1) else e.2.age
      hit := false })) }) ∧
  (∀ (port : Nat) (s : State),
    ((∃ e ∈ s.aqf.tagsOut, e.1 / 512 = port ∧ e.2 + 1000000 ≤ s.tim.up) →
      exec (.aquiferTagTimeout port) s = .next (s.report (Rec.mk' 0x07 3 0x09 0))) ∧
    ((∀ e ∈ s.aqf.tagsOut, e.1 / 512 = port → s.tim.up < e.2 + 1000000) → exec (.aquiferTagTimeout port) s = .next s))

/-- No counter of a line is used twice (08 R216, R218, R227, R228): a write that completes, of a whole line or of part of a line outside the
catchment, moves the counter of its line forward, a rewrite of a group that completes moves the counter of each of its lines forward,
and neither moves any counter of the sluice back. (Part of a catchment line that fails is answered OK with its slot retired, R230.) -/
def Obligations.EveryWriteTakesAFreshCounter : Prop :=
  (∀ (s t : State) (cls : ReqClass) (p n off : Nat) (data : List Byte), off < 2 ^ 38 → swf {} s.sluices = true →
    let sl := stackOf n off
    (128 ≤ data.length ∨ ∀ k, s.lineClass sl (lineIdx off) ≠ .catchment k) → s.writeLine cls p n off data = (t, .done 0) →
    Before (counterOf (s.slu sl) (lineIdx off)) (counterOf (t.slu sl) (lineIdx off)) ∧
    ∀ j < 2 ^ 30, counterOf (t.slu sl) j = counterOf (s.slu sl) j ∨ Before (counterOf (s.slu sl) j) (counterOf (t.slu sl) j)) ∧
  (∀ (s t : State) (sl g : Nat), g < 2 ^ 24 → swf {} s.sluices = true → s.rewriteGroup sl g = (t, 0) →
    (∀ i < 64, Before (counterOf (s.slu sl) (g * 64 + i)) (counterOf (t.slu sl) (g * 64 + i))) ∧
    ∀ j < 2 ^ 30, counterOf (t.slu sl) j = counterOf (s.slu sl) j ∨ Before (counterOf (s.slu sl) j) (counterOf (t.slu sl) j))

/-- Requests at a sluice (08 R213, R223, R225, R226, R230, R234-R236; 07 R210, R211): a read, and a partial write, takes a tag once nothing
holds its line; it is STATE before READY, REVOKED for a stale epoch or another's section and POISONED at a stopped sluice, and joins those that
wait for an earlier access, a busy group or a scrub. Bursts whose counters and MAC verify return the tag and give the decrypted line, or take
the partial write to its commit; others fail as R230 has it for the line. A whole line commits: it is in the write buffer, sealed under a counter
one further on, its plaintext is the line's contents, and its status is left. The oldest committed line drains; a tag outstanding for 1 ms is a
Device-fatal TIMEOUT; in even windows a lane's sampling phase moves one step toward fewer disagreements, and a margin that falls to 3 is recorded
(how a sweep becomes a margin is the model's reading, log entry 102). -/
def Obligations.SluiceRequestRows : Prop :=
  (∀ (sl line p ep off : Nat) (cls : ReqClass) (data : List Byte) (s : State), sl < 20 → off < 128 → data.length ≤ 128 - off →
    let x := s.slu sl
    let rd : TagReq := { write := false, line, part := p, epoch := ep, off := 0, data := [], engine := false, cls, since := s.tim.up }
    let wr : TagReq := { write := true, line, part := p, epoch := ep, off, data, engine := false, cls, since := s.tim.up }
    let noted := s.setSlu sl (x.noteClass cls line)
    (x.ready = false →
      exec (.sluiceRead sl line p ep cls) s = .next (s.release sl rd 0x02 []) ∧
      exec (.sluiceWrite sl line p ep off data cls) s = .next (s.release sl wr 0x02 [])) ∧
    (x.ready = true → s.sluAdmits sl line p ep false = false → exec (.sluiceRead sl line p ep cls) s = .next (s.release sl rd 0x03 [])) ∧
    (x.ready = true → s.sluAdmits sl line p ep true = false →
      exec (.sluiceWrite sl line p ep off data cls) s = .next (s.release sl wr 0x03 [])) ∧
    (x.ready = true → s.sluAdmits sl line p ep false = true →
      (x.stopped = true → exec (.sluiceRead sl line p ep cls) s = .next (s.release sl rd 0x06 [])) ∧
      (x.stopped = false → s.reqWaits sl rd = true → exec (.sluiceRead sl line p ep cls) s = .next (s.park sl rd)) ∧
      (∀ tag : Nat, x.stopped = false → s.reqWaits sl rd = false → x.bad line = none → x.freeTag = some tag →
        exec (.sluiceRead sl line p ep cls) s = .next (noted.takeTag sl tag rd))) ∧
    (x.ready = true → s.sluAdmits sl line p ep true = true →
      (x.stopped = true → exec (.sluiceWrite sl line p ep off data cls) s = .next (s.release sl wr 0x06 [])) ∧
      (x.stopped = false → s.reqWaits sl wr = true → exec (.sluiceWrite sl line p ep off data cls) s = .next (s.park sl wr)) ∧
      (∀ tag : Nat, x.stopped = false → s.reqWaits sl wr = false → data.length < 128 → x.bad line = none → x.freeTag = some tag →
        exec (.sluiceWrite sl line p ep off data cls) s = .next (noted.takeTag sl tag wr)) ∧
      (Memory.wf s.resv → x.stopped = false → s.reqWaits sl wr = false → data.length = 128 → x.suspects sl (line / 64) = [] →
        x.lost line = false → x.ended.contains (line / 64) = false → (x.node 0 (line / 64)).minor (line % 64) < 63 →
        let n := x.node 0 (line / 64)
        let n' : Node := { n with minors := sset 0 n.minors (line % 64) (n.minor (line % 64) + 1) }
        ∃ t, exec (.sluiceWrite sl line p ep off data cls) s = .next t ∧
          (t.slu sl).released.getLast? = some ⟨wr, 0, []⟩ ∧ (t.slu sl).node 0 (line / 64) = n' ∧
          t.resBytes (sl / 2) (lineOff sl line) 128 = data ∧
          (t.slu sl).stored line = some (x.seal sl line (n'.minor (line % 64)) n'.major data)))) ∧
  (∀ (sl tag : Nat) (q : TagReq) (s : State), sl < 20 → keyGet tag (s.slu sl).tags = some q → q.engine = false →
    let x := s.slu sl
    let t := s.dropTag sl tag
    (s.sluAdmits sl q.line q.part q.epoch q.write = false →
      exec (.stackBurstArrival sl tag .clean) s = .next ((t.release sl q 0x03 []).runAllWaiting sl)) ∧
    (s.sluAdmits sl q.line q.part q.epoch q.write = true → x.stopped = false → x.suspects sl (q.line / 64) = [] →
      (x.busy (q.line / 64) = true → exec (.stackBurstArrival sl tag .clean) s = .next ((t.park sl q).runAllWaiting sl)) ∧
      (x.busy (q.line / 64) = false → x.bad q.line = none → x.verifies sl q.line = true → q.write = false →
        exec (.stackBurstArrival sl tag .clean) s = .next (((t.setSlu sl ((t.slu sl).look sl q.line)).endReq sl q 0
          (x.plain sl q.line)).runAllWaiting sl)) ∧
      (x.busy (q.line / 64) = false → x.bad q.line = none → x.verifies sl q.line = true → q.write = true →
        exec (.stackBurstArrival sl tag .clean) s = .next ((t.commitReq sl q).runAllWaiting sl)) ∧
      (∀ (b : Burst) (f : LineFault),
        ((b = .clean ∧ x.busy (q.line / 64) = false ∧ x.bad q.line = none ∧ x.verifies sl q.line = false ∧ f = .mac) ∨
          (b = .lineEcc ∧ f = .ecc) ∨ (b = .macMismatch ∧ f = .mac) ∨ ∃ l i, b = .bothBad l i ∧ f = .tree l i) →
        let failed := t.lineFault sl q.line q.part f
        exec (.stackBurstArrival sl tag b) s = .next ((failed.1.endReq sl q failed.2 []).runAllWaiting sl)))) ∧
  (∀ (sl : Nat) (s : State) (y : WbLine) (r : List WbLine), sl < 20 → (s.slu sl).wbuf = y :: r → (s.slu sl).stopped = false →
    exec (.writeBufferDrain sl) s = .next (s.setSlu sl { s.slu sl with
      wbuf := r, stackData := keyPut y.line y.cipher (s.slu sl).stackData
      stackMac := keyPut (8 * y.line) y.mac (s.slu sl).stackMac })) ∧
  (∀ (sl tag : Nat) (q : TagReq) (s : State), sl < 20 → keyGet tag (s.slu sl).tags = some q →
    (q.since + 1000000 ≤ s.tim.up →
      exec (.sluiceTagTimeout sl tag) s = .next (s.report (Rec.mk' 0x07 3 0x07 sl (s.sluOwner sl) q.line 0))) ∧
    (s.tim.up < q.since + 1000000 → exec (.sluiceTagTimeout sl tag) s = .next s)) ∧
  (∀ (sl ch lane lo hi : Nat) (s : State), sl < 20 → ch < 32 → lane < 64 →
    let e := sget {} (s.slu sl).eyes ch
    let w := sget 0 e.wins lane
    let old := eyeMargin e lane
    let m := (eyeSweep old (16 - sget 0 e.cands lane) w true).1
    w % 2 = 0 → lo + 64 < hi →
    ∃ t : State, exec (.readEyeWindow sl ch lane lo hi) s = .next t ∧
      t.slu sl = { s.slu sl with eyes := (t.slu sl).eyes } ∧
      (sget {} (t.slu sl).eyes ch).phases = sset 0 e.phases lane ((sget 0 e.phases lane + 63) % 64) ∧
      (sget {} (t.slu sl).eyes ch).vrefs = sset 0 e.vrefs lane (sget 0 e.vrefs lane) ∧
      (sget {} (t.slu sl).eyes ch).wins = sset 0 e.wins lane (w + 1) ∧
      (sget {} (t.slu sl).eyes ch).margins = sset 0 e.margins lane (16 - m) ∧
      (sget {} (t.slu sl).eyes ch).moves = min (e.moves + 1) 65535 ∧
      (3 < m ∨ old ≤ 3 → t = { s with sluices := t.sluices }) ∧
      (m ≤ 3 → 3 < old → ∃ r, t.ras.inbox = s.ras.inbox ++ [r] ∧ r.status = 0x51 ∧ r.sev = 0 ∧ r.block = 0x07 ∧ r.inst = sl ∧ r.loc0 = 0))

/-- The engines of a sluice (08 R220-R222, R227, R228, R233): a write at MINOR 63 takes the group's counters to MAJOR + 1 and starts its
re-encryption, its data in place of its line, holding one tag that it shares with the engine until that ends; the bursts of that tag rewrite the
job's next line; the end of a job rewrites the lines that are left, returns the tag, completes the write and lets what waited run, and the end of
a re-key lets what waited run; an evicted dirty entry moves its parent's MINOR on, or re-keys the parent at 63 unless the engine is full, both
copies being written; a stream prefetches 16 counter blocks, each verified first; a group rewrite gives 64 zero lines under MAJOR + 1, and waits
for a job. -/
def Obligations.SluiceEngineRows : Prop :=
  (∀ (sl line p ep tag : Nat) (cls : ReqClass) (data : List Byte) (s : State), sl < 20 → (s.slu sl).ready = true →
    s.sluAdmits sl line p ep true = true → Memory.wf s.resv →
    let x := s.slu sl
    let n := x.node 0 (line / 64)
    let q : TagReq := { write := true, line, part := p, epoch := ep, off := 0, data, engine := false, cls, since := s.tim.up }
    x.stopped = false → s.reqWaits sl q = false → data.length = 128 → x.suspects sl (line / 64) = [] → x.lost line = false →
    x.ended.contains (line / 64) = false → 63 ≤ n.minor (line % 64) → n.major < 2 ^ 64 - 1 → x.jobs.length + x.rekeys.length < 64 →
    x.freeTag = some tag →
    ∃ t, exec (.groupReencryption sl line p ep 0 data cls) s = .next t ∧
      (t.slu sl).jobs = x.jobs ++ [{ group := line / 64, old := n, next := 0, tag, whole := some (line % 64), holder := some q }] ∧
      (t.slu sl).node 0 (line / 64) = { major := n.major + 1, minors := [] } ∧
      ((keyGet tag (t.slu sl).tags).map (·.engine)) = some true ∧
      t.resBytes (sl / 2) (lineOff sl line) 128 = data) ∧
  (∀ (sl tag : Nat) (q : TagReq) (j : Job) (s : State), sl < 20 → keyGet tag (s.slu sl).tags = some q → q.engine = true →
    (s.slu sl).jobs.find? (fun j => j.tag == tag) = some j → (s.slu sl).stopped = false → j.next < 64 →
    exec (.stackBurstArrival sl tag .clean) s = .next (s.jobLine sl j none)) ∧
  (∀ (sl : Nat) (j : Job) (r : List Job) (s : State), sl < 20 → (s.slu sl).stopped = false → (s.slu sl).jobs = j :: r →
    let u := s.jobRest sl j.tag 64
    let x := u.slu sl
    exec (.reencryptionComplete sl) s = .next ((u.setSlu sl { x with
      jobs := x.jobs.filter (fun k => k.tag != j.tag)
      tags := x.tags.filter (fun e => e.1 != j.tag)
      released := x.released ++ j.holder.toList.map (fun q => ⟨q, 0, []⟩) }).runAllWaiting sl)) ∧
  (∀ (sl : Nat) (k : Nat × Nat) (r : List (Nat × Nat)) (s : State), sl < 20 → (s.slu sl).stopped = false → (s.slu sl).jobs = [] →
    (s.slu sl).rekeys = k :: r →
    exec (.reencryptionComplete sl) s = .next ((s.setSlu sl { s.slu sl with rekeys := r }).runAllWaiting sl)) ∧
  (∀ (sl l i : Nat) (s : State), sl < 20 → l < 4 → i * 64 ^ l < 2 ^ 24 →
    let x := s.slu sl
    let full := 64 ≤ x.jobs.length + x.rekeys.length
    let wraps := 63 ≤ (x.node (l + 1) (i / 64)).minor (i % 64)
    let z := Sluice.fetch sl 4 (l + 1) (i / 64) x
    let y := { z with cache := z.cache.filter (fun e => e.1 != nodeKey l i) }
    let up := z.node (l + 1) (i / 64)
    x.stopped = false → x.cached l i = true →
    (wraps → full → exec (.metadataEviction sl l i) s = .next s) ∧
    (¬(wraps ∧ full) → x.suspects sl (i * 64 ^ l) (l + 1) = [] → keyGet (nodeKey l i) z.cache = some ⟨true⟩ →
      (up.minor (i % 64) < 63 → exec (.metadataEviction sl l i) s = .next (s.setSlu sl
        (((y.setNode (l + 1) (i / 64) { up with minors := sset 0 up.minors (i % 64) (up.minor (i % 64) + 1) }).setCache (l + 1) (i / 64)
          true).writeCopies sl l i))) ∧
      (63 ≤ up.minor (i % 64) → exec (.metadataEviction sl l i) s = .next (s.setSlu sl
        ((List.range 64).foldl (fun x k => x.writeCopies sl l (i / 64 * 64 + k))
          (({ y with rekey := min (y.rekey + 1) 65535, rekeys := y.rekeys ++ [(l + 1, i / 64)] }.setNode (l + 1) (i / 64)
            { major := up.major + 1, minors := [] }).setCache (l + 1) (i / 64) true)))))) ∧
  (∀ (sl g : Nat) (cls : ReqClass) (s : State), sl < 20 → (s.slu sl).stopped = false →
    sget 0 (s.slu sl).prefetchDue (classKey cls) = g + 1 →
    exec (.counterPrefetch sl g cls) s = .next ((List.range 16).foldl
      (fun t i => if 2 ^ 24 ≤ g + 1 + i ∨ (t.slu sl).stuck = true then t else
        match t.checkChain sl (g + 1 + i) with
        | (u, none) => u.setSlu sl (Sluice.fetch sl 4 0 (g + 1 + i) (u.slu sl))
        | (_, some _) => t)
      (s.setSlu sl { s.slu sl with prefetchDue := sset 0 (s.slu sl).prefetchDue (classKey cls) 0 }))) ∧
  (∀ (sl g : Nat) (s : State), sl < 20 → g < 2 ^ 24 →
    ((s.slu sl).busy g = true →
      exec (.groupRewrite sl g) s = .next (s.setSlu sl { s.slu sl with rewriteDue := (s.slu sl).rewriteDue ++ [g] })) ∧
    ((s.slu sl).stopped = false → (s.slu sl).busy g = false → (s.slu sl).suspects sl g = [] → (s.slu sl).lost (g * 64) = false →
    (s.slu sl).ended.contains g = false → ((s.slu sl).node 0 g).major < 2 ^ 64 - 1 →
    ∃ t : State, exec (.groupRewrite sl g) s = .next t ∧ t = { s with sluices := t.sluices, resv := t.resv } ∧
      (t.slu sl).node 0 g = { major := ((s.slu sl).node 0 g).major + 1, minors := [] } ∧
      (∀ a, (a < resKey (sl / 2) (lineOff sl (g * 64)) ∨ resKey (sl / 2) (lineOff sl (g * 64)) + 8192 ≤ a) →
        sget 0 t.resv a = sget 0 s.resv a) ∧
      (∀ a, resKey (sl / 2) (lineOff sl (g * 64)) ≤ a → a < resKey (sl / 2) (lineOff sl (g * 64)) + 8192 → sget 0 t.resv a = 0) ∧
      (∀ w ∈ (t.slu sl).wbuf, w.line / 64 ≠ g)))

/-- What a port's change of state does (09 R249, R250; 14 R381): the port has the new state, no target and no accepted peer, its
ephemeral key is gone and so are its session keys and salts; a port that leaves Up notes when and which flows wait for it, a retrain is
counted, its replay buffer, queue and credits stay; every other port and every register outside the links, the security processor and the
state of a joining spare is unchanged. -/
def Obligations.PortEntersAState : Prop :=
  ∀ (n : Nat) (g : LinkState) (s : State), swf {} s.links = true →
    let l := s.link n
    let t := s.enter n g
    (t.link n).state = g ∧ (t.link n).target = none ∧ (t.link n).accepted = false ∧ (t.link n).eph = none ∧
    (t.link n).akOld = false ∧ (t.link n).txKey = {} ∧ (t.link n).rxKey = {} ∧ (t.link n).txSalt = 0 ∧ (t.link n).rxSalt = 0 ∧
    (l.state = .up → (t.link n).leftUpAt = s.tim.up + 1) ∧ (l.state ≠ .up → (t.link n).leftUpAt = l.leftUpAt) ∧
    (t.link n).waitFlows = (if l.state = .up then (s.hwk.flows.filter (fun e => e.2 = n + 1)).map Prod.fst else l.waitFlows) ∧
    (t.link n).retrains = (if g = .retraining then satAdd 16 l.retrains 1 else l.retrains) ∧
    (t.link n).replay = l.replay ∧ (t.link n).txq = l.txq ∧ (t.link n).credits = l.credits ∧
    (∀ m, m ≠ n → t.link m = s.link m) ∧
    t = { s with links := t.links, chr := t.chr, join := t.join }

/-- The commands of LNK_CTRL and the attempts of a port (09 R249, R250; 18 R474), in Ready with fabric service, by the state of the
port: outside Ready every command is STATE; a port in Up drains; a port in Off enables only with a cable it accepts, and tries again until
it is fenced; a fenced port
answers only Fence and Unfence. -/
def Obligations.LinkCommandRows : Prop :=
  ∀ (n : Nat) (s : State), n < 48 →
    let l := s.link n
    let okSt := fun (u : State) (st : Nat) => u.setLink n { u.link n with cstat := st }
    (¬(s.mon.phase = .ready ∧ s.mon.fabric = true) →
      exec (.lnkEnable n) s = .next (okSt s Status.state) ∧ exec (.lnkDisable n) s = .next (okSt s Status.state) ∧
      exec (.lnkRetrain n) s = .next (okSt s Status.state) ∧ exec (.lnkFence n) s = .next (okSt s Status.state) ∧
      exec (.lnkUnfence n) s = .next (okSt s Status.state) ∧ exec (.enableRetry n) s = .next s) ∧
    (s.mon.phase = .ready → s.mon.fabric = true →
      (l.state = .off → exec (.lnkEnable n) s = .next ((s.setLink n { l with enabled := true, cstat := Status.ok }).tryEnable n)) ∧
      (l.state ≠ .off → exec (.lnkEnable n) s = .next (okSt s Status.state)) ∧
      (l.state = .off → exec (.enableRetry n) s = .next (s.tryEnable n)) ∧
      (l.state = .off → exec (.lnkDisable n) s = .next (s.setLink n { l with enabled := false, cstat := Status.ok })) ∧
      (l.state = .up → exec (.lnkDisable n) s = .next ((s.setLink n { l with enabled := false }).drainFor n .off)) ∧
      (l.state = .training ∨ l.state = .keying ∨ l.state = .retraining →
        exec (.lnkDisable n) s = .next ((s.setLink n { l with enabled := false, cstat := Status.ok }).enter n .off) ∧
        exec (.lnkFence n) s = .next ((okSt s Status.ok).enter n .fenced)) ∧
      (l.state = .off → exec (.lnkFence n) s = .next ((okSt s Status.ok).enter n .fenced)) ∧
      (l.state = .up → exec (.lnkFence n) s = .next (s.drainFor n .fenced) ∧ exec (.lnkRetrain n) s = .next (s.drainFor n .retraining)) ∧
      (l.state ≠ .up → exec (.lnkRetrain n) s = .next (okSt s Status.state)) ∧
      (l.state = .fenced → exec (.lnkDisable n) s = .next (okSt s Status.state) ∧ exec (.lnkFence n) s = .next (okSt s Status.ok)) ∧
      (l.state = .fenced → s.held n = false →
        exec (.lnkUnfence n) s = .next ((s.setLink n { l with attempts := 0, cstat := Status.ok }).enter n .off)) ∧
      (l.state = .fenced → s.held n = true → exec (.lnkUnfence n) s = .next (okSt s Status.state)) ∧
      (l.state ≠ .fenced → exec (.lnkUnfence n) s = .next (okSt s Status.state)))

/-- What moves a port between its states without a command (09 R243, R247-R249, R251, R258; 14 R381, R396; 18 R474): the end of a drain; the
lock of a trained port, whose full training finds the lanes and sets the equalisers, which a retraining keeps; keying, which makes and
answers this end's public key, nonce and signature of the transcript, or does not begin; a peer whose evidence fails is fenced with
PEER_REJECTED; the keys of each direction, held as two shares, which replace the ephemeral pair, or the rejection of an AK that has changed
since; and the ways a port fails, of which the tenth fences it with a LINK_DOWN record. The bytes of the transcript and of the key context
are the model's choice (assumption 105). A cable gives the port its supply. At an Up the sender holds each pool less what the receiver's
buffer holds, and what was not acknowledged is numbered anew and sent again. -/
def Obligations.LinkTransitionRows : Prop :=
  (∀ (n : Nat) (s : State), n < 48 →
     let l := s.link n
     let okSt := fun (u : State) (st : Nat) => u.setLink n { u.link n with cstat := st }
     (∀ g, l.target = some g → exec (.portDrainComplete n) s = .next (s.enter n g)) ∧
     (l.target = none → exec (.portDrainComplete n) s = .next s) ∧
     (∀ (rev : Bool) (inv : Nat) (rx tx : List Int),
       (l.state = .training → exec (.equalisationAndFecLock n rev inv rx tx) s =
         .next ((s.setLink n { l with laneRev := rev, laneInv := inv % 256, rxTaps := rx, txTaps := tx }).enter n .keying)) ∧
       (l.state = .retraining → exec (.equalisationAndFecLock n rev inv rx tx) s = .next (s.enter n .keying))) ∧
     (∀ ev : PeerEvidence, (l.state ≠ .keying ∨ l.accepted = true ∨ s.chr.trngFailed = true → exec (.linkKeying n ev) s = .next s) ∧
       (l.state = .keying → l.accepted = false → s.chr.trngFailed = false →
         (s.deviceServes 2 Usage.sign = false → exec (.linkKeying n ev) s = .next (okSt (s.attemptFailed n) Status.denied)) ∧
         (s.deviceServes 2 Usage.sign = true → s.chr.lcs = .blank ∨ s.chr.lcs = .endOfLife →
           exec (.linkKeying n ev) s = .next (okSt s Status.state)) ∧
         (s.deviceServes 2 Usage.sign = true → s.chr.lcs ≠ .blank → s.chr.lcs ≠ .endOfLife →
           (s.ephFree = none → exec (.linkKeying n ev) s = .next s) ∧
           (∀ i, s.ephFree = some i →
             let d := s.randPriv
             let r := d.2.trng
             let pub := p384Pub d.1
             let nonce := beBytes 32 r.1.toNat
             let h := transcript n ev pub nonce
             let ok := s.peerOk h ev
             let v := r.2.putPriv i d.1 Usage.ecdh
             let a := v.answer Status.ok [] (pub ++ nonce ++ ecdsaSign (v.privKey 2) h ++ Config.flashCerts ++
               leBytes 2 s.chr.akCert.length ++ s.chr.akCert)
             let u := a.setLink n { l with
               eph := some i, accepted := ok, thash := h, peerUid := ev.uid, peerPub := ev.pub
               peerPort := ev.port, px := ev.px, py := ev.py, pz := ev.pz, pdist := ev.dist }
             exec (.linkKeying n ev) s = .next (if ok then u else okSt (u.enter n .fenced) 0x70))))) ∧
     (∀ occ : List Nat,
       (l.state ≠ .keying ∨ l.accepted = false → exec (.keysInstalled n occ) s = .next s) ∧
       (l.state = .keying → l.accepted = true → l.akOld = true →
         exec (.keysInstalled n occ) s = .next (okSt (s.enter n .fenced) 0x70)) ∧
       (l.state = .keying → l.accepted = true → l.akOld = false → l.eph.any (fun i => s.deviceServes i Usage.ecdh) = false →
         exec (.keysInstalled n occ) s = .next (okSt (s.attemptFailed n) Status.denied)) ∧
       (∀ i, l.state = .keying → l.accepted = true → l.akOld = false → l.eph = some i → s.deviceServes i Usage.ecdh = true →
         let dir := if l.peerUid < Config.uid.toNat then 1 else 0
         let w := s.dropEph n
         let tk := w.split (s.linkKey n dir).1
         let rk := tk.2.split (s.linkKey n (1 - dir)).1
         let m := rk.2.link n
         let t := (({ rk.2 with free := rk.2.free + 1 } : State).setLink n { (m.resynced occ).rearmed (occ.getD 16 m.ackSeen) with
           state := .up, accepted := false, keyed := true, attempts := 0, margin := (Config.freeValue rk.2.free).toNat % 17
           txKey := tk.1, txSalt := (s.linkKey n dir).2
           rxKey := rk.1, rxSalt := (s.linkKey n (1 - dir)).2, credSent := m.freed }).answer Status.ok
             (((List.range 8).map (sget 0 m.occ) ++ (List.range 8).map (sget 0 m.freed) ++ [(m.rxNext + 65535) % 65536]).map (BitVec.ofNat 64))
         tk.1.key = (s.linkKey n dir).1 ∧ rk.1.key = (s.linkKey n (1 - dir)).1 ∧
         exec (.keysInstalled n occ) s =
           .next (if m.keyed = true ∧ (∃ v ∈ List.range 8, sget 0 m.credits v ≠ sget 0 (m.resynced occ).credits v) then
             t.report (Rec.mk' 0x72 Sev.corrected Blk.lnk n) else t))) ∧
     (l.state = .training ∨ l.state = .keying → l.attempts < 9 →
       exec (.trainingTimeout n) s = .next ((s.setLink n { l with attempts := l.attempts + 1 }).enter n .off) ∧
       (∀ lane, lane < 8 → exec (.lossOfSignal n lane) s = exec (.trainingTimeout n) s) ∧
       exec (.noFlitTimeout n) s = exec (.trainingTimeout n) s) ∧
     (l.state = .training ∨ l.state = .keying → 9 ≤ l.attempts →
       exec (.trainingTimeout n) s =
         .next (((s.setLink n { l with attempts := l.attempts + 1 }).enter n .fenced).report (Rec.mk' 0x74 Sev.corrected Blk.lnk n))) ∧
     (l.state = .retraining → exec (.trainingTimeout n) s = .next (s.enter n .off) ∧ exec (.noFlitTimeout n) s = .next (s.enter n .off)) ∧
     (l.state = .up → exec (.trainingTimeout n) s = .next s ∧ exec (.noFlitTimeout n) s = .next (s.enter n .retraining) ∧
       (∀ lane, lane < 8 → exec (.lossOfSignal n lane) s = .next (s.enter n .retraining) ∧
         exec (.laneLossOfLock n lane) s = .next (s.enter n .retraining))) ∧
     (∀ cable : Cable,
       exec (.cablePresent n cable) s = .next (s.setLink n { l with cable := cable, cv33 := cablePower n cable }) ∧
       cablePower n cable = (match cable with
         | .activeOptical cm =>
           if 42 ≤ n ∧ n ≤ 45 then (if cm ≤ 10000 then 4000 else 0) else if cm ≤ 500 then 1500 else 0
         | .passive cm => if (42 ≤ n ∧ n ≤ 45) ∨ 500 < cm then 0 else 500
         | .other | .none => 0))) ∧
  (∀ (l : Link) (occ : List Nat),
     (∀ v : Nat, v < 8 → sget 0 (l.resynced occ).credits v = (if v < 4 then 768 else 32) - occ.getD v 0 ∧
       (8 + v < occ.length → sget 0 (l.resynced occ).credSeen v = occ.getD (8 + v) 0)) ∧
     (l.keyed = false → (l.resynced occ).resync = satAdd 8 l.resync 0) ∧
     (l.keyed = true → (l.resynced occ).resync = satAdd 8 l.resync
       ((List.range 8).filter (fun v => decide (sget 0 l.credits v ≠ (if v < 4 then 768 else 32) - occ.getD v 0))).length) ∧
     l.resynced occ = { l with
       credits := (l.resynced occ).credits, credSeen := (l.resynced occ).credSeen, outst := (l.resynced occ).outst
       resync := (l.resynced occ).resync } ∧
     (∀ a : Nat, l.replay = [] → (l.rearmed a).resendAt = none ∧ (l.rearmed a).txSeq = l.txSeq % 65536 ∧ (l.rearmed a).leftUpAt = 0) ∧
     (∀ (a : Nat) (x : Sent) (r : List Sent), l.replay = x :: r → (∀ y ∈ x :: r, y.seq % 65536 ≠ a) →
       (l.rearmed a).resendAt = some 0 ∧ (l.rearmed a).txSeq = x.seq % 65536 + (r.length + 1) ∧
       (l.rearmed a).replay.map (·.seq) = List.range' (x.seq % 65536) (r.length + 1) ∧
       (l.rearmed a).replay.map (fun y => (y.flit.seq, y.flit.body)) = (x :: r).map (fun y => (y.flit.seq, y.flit.body))))

/-- Flits, flows and the receiver of a port that is Up (09 R242-R246, R248, R250, R252, R253, R257, R266): a codeword is put right and
counted once; a flit that authenticates with the next SEQ is taken, its ACK frees the replay buffer, its CRED the credits and its EQ asks for
a tap step, which waits for the end of the codeword being sent; an uncorrectable, unauthenticated or out-of-order flit is discarded and
answered with NAK, and the sixteenth authentication failure within 1 ms retrains; a NAK starts a replay from ACK + 1, the 64th replay within
1 ms retrains; what a port sends is encrypted under its key, its codeword dealt over the lanes, and a packet that sends its first flit leaves
its receive buffer: an idle flit where no packet may go, a packet of one flit when its slot, credit and share allow, no flit without a
credit; near 2^62
the port retrains; 10 ms after leaving Up the packets of a port go back to the buffers where other ports of the direction, or another
direction, take them; a tap step request rides at most once in 1 ms; a thin margin is recorded. -/
def Obligations.LinkFlitRows : Prop :=
  ∀ (n : Nat) (s : State), n < 48 →
    let l := s.link n
    let now := s.tim.up
    (∀ rx : FlitRx, l.state ≠ .up → exec (.flitReceive n rx) s = .next s) ∧
    (∀ rx : FlitRx, l.state = .up →
      let lanes := gatherLanes l.laneRev l.laneInv rx.lanes
      let m := if rx.lanes = [] then l else l.takeCodeword rx
      (rsDecode lanes = none → l.takeCodeword rx = { l with uncorr := satAdd 16 l.uncorr 1, rxFec := l.rxFec ++ [(false, 5140, 0)] }) ∧
      (∀ cw k, rsDecode lanes = some (cw, k) → l.takeCodeword rx = { l with
        rxTaps := l.rxTaps.zipIdx.map (fun e => e.1 + lmsStep rx.errs (dealLanes cw) e.2)
        corr := if k = 0 then l.corr else satAdd 32 l.corr 1
        rxFec := l.rxFec ++ [(true, 5140, (cw.take 514).foldr (fun x a => x % 1024 + 1024 * a) 0)] }) ∧
      (takeBits 2048 m.rxFec = none → exec (.flitReceive n rx) s = .next (s.setLink n m)) ∧
      (∀ v rest, takeBits 2048 m.rxFec = some (false, v, rest) → exec (.flitReceive n rx) s = .next (s.setLink n { m with
        replaying := true, nakDue := true, rxFec := rest, idleGap := m.idleGap + 1 })) ∧
      (∀ v rest, takeBits 2048 m.rxFec = some (true, v, rest) →
        let m : Link := { m with rxFec := rest }
        let late := m.authTimes.filter (fun t => now < t + 1000000)
        let naks := m.replayTimes.filter (fun t => now < t + 1000000)
        (m.openFlit (leBytes 256 v) = none →
          let u := s.setLink n { m with
            replaying := true, nakDue := true, authf := satAdd 8 m.authf 1, authTimes := now :: late, idleGap := m.idleGap + 1 }
          (late.length < 15 → exec (.flitReceive n rx) s = .next u) ∧
          (15 ≤ late.length → exec (.flitReceive n rx) s =
            .next ((u.enter n .retraining).report (Rec.mk' 0x71 Sev.corrected Blk.lnk n)))) ∧
        (∀ x seq, m.openFlit (leBytes 256 v) = some (x, seq) →
          let i : Link := if x.idle then { m with rxIdle := seq + 1, idleGap := 0 } else m
          let good := x.seq = (if x.idle then (i.rxNext + 65535) % 65536 else i.rxNext % 65536)
          let took : Link := if x.idle then { i with replaying := false, nakDue := false } else { i with
            rxNext := i.rxNext + 1, replaying := false, nakDue := false, rxAckDue := true
            occ := sset 0 i.occ rx.vc (sget 0 i.occ rx.vc + 1) }
          let w := ((took.ack x.ack).cred x.cvc x.cred).tapAsked x.eq
          let r := { w with
            replays := satAdd 16 w.replays 1, replayTimes := now :: w.replayTimes.filter (fun t => now < t + 1000000)
            nakAt := some (x.ack, now), resendAt := if w.replay = [] then none else some 0 }
          let again := match w.nakAt with
            | some (a, t) => a = x.ack ∧ now < t + 1500
            | none => False
          (¬good → exec (.flitReceive n rx) s = .next (s.setLink n { i with replaying := true, nakDue := true })) ∧
          (good → x.nak = false → exec (.flitReceive n rx) s = .next (s.setLink n w)) ∧
          (good → x.nak = true → again → exec (.flitReceive n rx) s = .next (s.setLink n w)) ∧
          (good → x.nak = true → ¬again → naks.length < 63 → exec (.flitReceive n rx) s = .next (s.setLink n r)) ∧
          (good → x.nak = true → ¬again → 63 ≤ naks.length →
            exec (.flitReceive n rx) s = .next ((s.setLink n r).enter n .retraining))))) ∧
    (∀ eq : Nat, l.tapAsked eq = (if eq = 0 then l else if l.fecBits = 0 then { l with txTaps := Config.tapStep eq l.txTaps }
      else { l with eqIn := l.eqIn ++ [eq] })) ∧
    (∀ bytes : List Byte,
      let acc := l.fecAcc + leNat bytes * 2 ^ l.fecBits
      (l.fecBits + 2048 < 5140 → l.code bytes = ([], { l with fecAcc := acc, fecBits := l.fecBits + 2048 })) ∧
      (5140 ≤ l.fecBits + 2048 → l.code bytes =
        (dealLanes (rsEncode ((List.range 514).map (fun i => acc / 2 ^ (10 * i) % 1024))), { l with
          fecAcc := acc / 2 ^ 5140, fecBits := l.fecBits + 2048 - 5140
          txTaps := l.eqIn.foldl (fun t e => Config.tapStep e t) l.txTaps, eqIn := [] }))) ∧
    (l.state ≠ .up → exec (.flitTransmit n) s = .next s) ∧
    (l.state = .up → 2 ^ 62 ≤ l.txSeq + 2 ∨ 2 ^ 62 ≤ l.idleSeq + 2 → exec (.flitTransmit n) s = .next (s.enter n .retraining)) ∧
    (l.state = .up → l.txSeq + 2 < 2 ^ 62 → l.idleSeq + 2 < 2 ^ 62 →
      let u := s.purgeTxq n
      let x := (u.link n).transmit
      let bytes := x.2.seal x.1.1 x.1.2
      let w := u.setLink n (x.2.code bytes).2
      let f := x.1.1
      exec (.flitTransmit n) s = .next { (match (u.link n).freedBy x.2 with
          | some b => w.freeFlits b
          | none => w) with
        rsp := { status := 0, words := [BitVec.ofNat 64 (f.seq + f.ack * 2 ^ 16 + f.cvc * 2 ^ 32 + (if f.sop then 1 else 0) * 2 ^ 35 +
                   (if f.nak then 1 else 0) * 2 ^ 36 + (if f.idle then 1 else 0) * 2 ^ 37 + f.cred * 2 ^ 40 + f.eq * 2 ^ 56)]
                 bytes := bytes.drop 8, lanes := (x.2.code bytes).1 } } ∧
      (l.txq = [] → s.purgeTxq n = s)) ∧
    (let v := l.credVc
     let c : Link := { l with
       cvcNext := (v + 1) % 8, credSent := sset 0 l.credSent v (sget 0 l.freed v), nakDue := false, rxAckDue := false, eqDue := 0
       slotNext := (l.slotNext + 1) % 64 }
     let x : Flit := {
       seq := l.txSeq % 65536, ack := (l.rxNext + 65535) % 65536, cvc := v, sop := true, nak := l.nakDue, idle := false
       cred := sget 0 l.freed v, eq := l.eqDue, body := [] }
     let idle := (({ x with seq := (l.txSeq + 65535) % 65536, sop := false, idle := true, body := List.replicate 232 0 }, l.idleSeq),
       { c with idleSeq := l.idleSeq + 1, prioWait := l.prioWait - 1 })
     l.resendAt = none →
      (l.txq = [] → l.transmit = idle ∧ l.freedBy l.transmit.2 = none) ∧
      (∀ (p : Packet) (b : Buffered) (holds : Bool), l.txq = [⟨0, p, b, holds⟩] →
        (sget 0 l.credits p.vc = 0 → l.transmit = idle) ∧
        (l.replay.length < 1024 → l.maySend p = true → p.payload.length ≤ 200 →
          (4 ≤ p.vc ∧ l.prioWait = 0) ∨ (p.vc < 4 ∧ l.ownerOf p = 0 ∧ (l.slotAt l.slotNext).2 = false) →
          let y := { x with body := Packet.bytes p ++ List.replicate (232 - (Packet.bytes p).length) 0 }
          l.transmit = ((y, l.txSeq), { c with
            prioWait := if 4 ≤ p.vc then 7 else l.prioWait - 1
            credits := sset 0 l.credits p.vc (sget 0 l.credits p.vc - 1)
            outst := sset [] l.outst p.vc (sget [] l.outst p.vc ++ [l.ownerOf p]), txSeq := l.txSeq + 1
            replay := l.replay ++ [⟨l.txSeq, y, p.vc, l.ownerOf p, false⟩]
            rrNext := if p.vc < 4 ∧ (l.slotAt l.slotNext).2 = false then (p.vc + 1) % 4 else l.rrNext
            txq := [], inFlight := l.inFlight ++ [(l.txSeq % 65536, ⟨0, p, b, false⟩)] }) ∧
          l.freedBy l.transmit.2 = (if holds then some b else none)))) ∧
    (let other := (dirPorts (portDir n)).any (fun m => m != n && (s.link m).takes)
     let goes := fun (e : TxEnt) => other || s.offRoute n e.was
     (l.leftUpAt = 0 ∨ now + 1 < l.leftUpAt + 10000000 → exec (.flowMoveTimeout n) s = .next s) ∧
     (l.leftUpAt ≠ 0 → l.leftUpAt + 10000000 ≤ now + 1 →
      let w := s.setLink n { l with
        leftUpAt := if other then 0 else l.leftUpAt, waitFlows := if other then [] else l.waitFlows
        inFlight := l.inFlight.filter (fun x => !s.offRoute n x.2.was), txq := l.txq.filter (fun e => e.sent ≠ 0 || !goes e) }
      exec (.flowMoveTimeout n) s = .next { w with hwk := { w.hwk with
        flows := if other then w.hwk.flows.filter (fun e => e.2 ≠ n + 1) else w.hwk.flows
        bufs := w.hwk.bufs ++ ((l.inFlight.map Prod.snd ++ l.txq).filter goes).map (fun e =>
          if e.sent = 0 ∧ e.holds = true then e.was else { e.was with again := true }) } })) ∧
    (∀ g : Nat, l.state = .up → (∀ a, l.tapAt = some a → a + 1000000 ≤ now) →
      exec (.txTapStep n g) s = .next (s.setLink n { l with eqDue := g % 256, tapAt := some now })) ∧
    (∀ g a : Nat, l.state = .up → l.tapAt = some a → now < a + 1000000 → exec (.txTapStep n g) s = .next s) ∧
    (∀ heavy total : Nat, l.state = .up →
      exec (.linkMargin n heavy total) s = .next (if total < heavy * 1000000 then
        s.report (Rec.mk' 0x73 Sev.corrected Blk.lnk n) else s))

/-- CT.ROPEN and CT.RCLOSE (02 R57-R60; 03 R80, R98; 09 R262): a producer end of a canal runnel becomes Pending and its request travels to
the peer's core; a consumer end becomes Pending, or pairs at once with a request present at its core, or is STATE where the two do not
agree; the ends of a
fabric runnel do the same over packets (the messages are the model's, assumption 22), its consumer holding its tokens; a bound handle is
STATE; an end bound to a reduction group is Open at once, with depth 4 (10 R278); a producer's close appends the end marker, a consumer's
close of the end marker acknowledges, of a tile is STATE, and a Pending end withdraws its request; an end bound to a group closes once the
engine has taken what was sent, and is audited (10 R297). -/
def Obligations.RunnelOpenAndCloseRows : Prop :=
  (∀ (c : Nat) (f : RopenF) (s : State) (u : Stn), Dispatching c s → ropenStn f.role f.stn.toNat = some u →
    let k := s.core c
    let p := s.partOf c
    let q := f.q.toNat
    let d := Desc.of (k.td f.td)
    let rid := (k.reg f.sa).toNat % 65536
    let peer := (k.reg f.sb).toNat
    let bytes := f.depth.toNat * (Fmt.tileBytes d.fmt + if Fmt.isMx d.fmt then 32 else 0)
    (f.kind = false ∨ bit peer 63 = false → (k.handle q).state ≠ .unbound → exec (.ctRopen c f) s = .next (s.setCore c (k.scalarFault Status.state))) ∧
    (f.kind = false ∨ bit peer 63 = false → s.ridBound p rid f.role = true → exec (.ctRopen c f) s = .next (s.setCore c (k.scalarFault Status.state))) ∧
    ((k.handle q).state = .unbound → s.ridBound p rid f.role = false → s.coreOf p peer = true → k.badEndFmt d.fmt = false → f.kind = false →
      (f.role = false →
        exec (.ctRopen c f) s = .next (((s.setCore c (k.advance.setHandle q
            { state := .pending, kind := .canal, rid, consumer := false, stn := u, peer, fmt := d.fmt, opc := k.pc, oseq := k.dseq })).sendCanal
          (.openReq p { rid, prodCore := c, prodQ := q, consCore := peer, fmt := d.fmt, pc := k.pc, seq := k.dseq })).progress p)) ∧
      (f.role = true → 1 ≤ f.depth.toNat → f.depth.toNat ≤ 16 → d.base + bytes ≤ pondBytes →
        overlaps [(d.base, d.base + bytes)] k.rings = false →
        let h : Handle := { state := .pending, kind := .canal, rid, consumer := true, stn := u, peer, fmt := d.fmt
                            depth := f.depth.toNat, base := d.base, opc := k.pc, oseq := k.dseq }
        (takeFirst (fun r : OpenReq => decide (r.rid = rid)) k.reqs = none →
          exec (.ctRopen c f) s = .next ((s.setCore c (k.advance.setHandle q h)).progress p)) ∧
        (∀ (r : OpenReq) (rest : List OpenReq), takeFirst (fun r : OpenReq => decide (r.rid = rid)) k.reqs = some (r, rest) →
          (r.prodCore = peer → r.fmt = d.fmt → exec (.ctRopen c f) s =
            .next (((s.setCore c { k.advance.setHandle q h with reqs := rest }).openPair p (c, q) r).progress p)) ∧
          (r.prodCore ≠ peer ∨ r.fmt ≠ d.fmt → exec (.ctRopen c f) s = .next (s.setCore c (k.scalarFault Status.state)))))) ∧
    ((k.handle q).state = .unbound → s.ridBound p rid f.role = false → k.badEndFmt d.fmt = false → f.kind = true → bit peer 63 = false →
      (f.role = true → 1 ≤ f.depth.toNat ∧ f.depth.toNat ≤ 16) →
      let h : Handle := { state := .pending, kind := .fabric, rid, consumer := f.role, stn := u, peer := peer % 2 ^ 24, fmt := d.fmt
                          opc := k.pc, oseq := k.dseq, depth := if f.role then f.depth.toNat else 0 }
      let t := s.setCore c (k.advance.setHandle q h)
      let cid := (s.part p).cid
      let held := s.secHeld (coreSec c) + (if f.role then f.depth.toNat * tileTokens d.fmt else 0)
      let msg := { noPacket with tag := s.tagOf cid, dst := peer % 65536, dep := peer / 65536 % 256, sep := coreSec c, flow := rid }
      (secTokens < held → exec (.ctRopen c f) s = .next (s.setCore c (k.scalarFault Status.quota))) ∧
      (held ≤ secTokens → f.role = false →
        exec (.ctRopen c f) s = .next ((t.sendPacket { msg with typ := 1, arg := 1 + 256 * d.fmt }).progress p)) ∧
      (held ≤ secTokens → f.role = true →
        let mine := takeFirst (fun r : FabReq => decide (r.sec = coreSec c ∧ r.cid = cid ∧ r.rid = rid)) s.hwk.fopens
        (mine = none → exec (.ctRopen c f) s = .next (t.progress p)) ∧
        (∀ (r : FabReq) (rest : List FabReq), mine = some (r, rest) →
          (r.peer = peer % 2 ^ 24 → r.fmt = d.fmt → exec (.ctRopen c f) s =
            .next (({ s with hwk := { s.hwk with fopens := rest } }.setCore c (k.advance.setHandle q h) |>.openFabricPair c q).progress p)) ∧
          (r.peer ≠ peer % 2 ^ 24 ∨ r.fmt ≠ d.fmt → exec (.ctRopen c f) s = .next (s.setCore c (k.scalarFault Status.state)))))) ∧
    (f.kind = true → bit peer 63 = true →
      let gid := peer % 2 ^ 14
      let gather := bit peer 62
      (s.findRg gid = none → exec (.ctRopen c f) s = .next (s.setCore c (k.scalarFault Status.denied))) ∧
      (∀ e, s.findRg gid = some e → (k.handle q).state = .unbound → k.badEndFmt d.fmt = false → bits peer 14 48 = 0 → f.role = false →
        f.stn.toNat = 5 → s.secHeld (coreSec c) + 4 * tileTokens d.fmt ≤ secTokens →
        (gather = true → (s.rg e).owner = some p) →
        (gather = false → (s.rg e).srcs.any (fun m => m.part = p) = true ∧ (s.rg e).srcOf p c rid ≠ none) →
        exec (.ctRopen c f) s = .next ((s.setCore c (k.advance.setHandle q
          { state := .opened, kind := if gather then .gather gid else .contribution gid, rid, consumer := false, stn := .outflow, peer
            fmt := d.fmt, depth := 4, credits := 4 })).progress p)))) ∧
  (∀ (c : Nat) (u : Stn) (s : State) (e : QEntry) (tok : TokF) (q : QReg), AtHead c u s e → e.ins = .rclose tok q →
    let k := s.core c
    let h := k.handle q.toNat
    let p := s.partOf c
    (h.state = .pending → h.consumer = true →
      exec (.ctRclose c u) s = stationDone c u (s.setCore c (k.setHandle q.toNat {}))) ∧
    (h.state = .pending → h.consumer = false → h.kind = .canal →
      exec (.ctRclose c u) s = stationDone c u ((s.setCore c (k.setHandle q.toNat {})).withdrawReq p h.rid c)) ∧
    (h.state = .opened → h.kind = .canal → h.consumer = false →
      exec (.ctRclose c u) s = stationStarts c u ((s.setCore c (k.setHandle q.toNat { h with state := .closing })).sendCanal
        (.item p h.rid h.peer h.peerQ .endMark)) .pending) ∧
    (h.state = .pending → h.consumer = false → h.kind = .fabric →
      exec (.ctRclose c u) s = stationDone c u ((s.setCore c (k.setHandle q.toNat {})).fabricCtl c h 1 0 3)) ∧
    (h.state = .opened → h.kind = .fabric → h.consumer = false → s.tagCurrent (s.tagOf (s.part p).cid) = false →
      exec (.ctRclose c u) s = stationFaults c u s e Status.revoked) ∧
    (∀ gid, h.state = .opened → h.kind = .contribution gid →
      (h.ring = [] ∨ s.findRg gid = none → exec (.ctRclose c u) s = stationDone c u ((s.setCore c (k.setHandle q.toNat {})).auditRed c h)) ∧
      (h.ring ≠ [] → s.findRg gid ≠ none → exec (.ctRclose c u) s =
        stationStarts c u ((s.setCore c (k.setHandle q.toNat { h with state := .closing })).auditRed c h) .pending)) ∧
    (∀ gid, h.state = .opened → h.kind = .gather gid →
      exec (.ctRclose c u) s = stationDone c u ((s.setCore c (k.setHandle q.toNat {})).auditRed c h)) ∧
    (h.state = .opened → h.kind = .fabric → h.consumer = false → s.tagCurrent (s.tagOf (s.part p).cid) = true →
      exec (.ctRclose c u) s = stationStarts c u ((s.setCore c (k.setHandle q.toNat { h with state := .closing })).fabricCtl c h 1 h.pos 2)
        .pending) ∧
    (h.state = .opened → h.kind = .fabric → h.consumer = true →
      (s.fabricNext c q.toNat h = some .endMark →
        exec (.ctRclose c u) s = stationDone c u (((s.setCore c (k.setHandle q.toNat {})).clearRing c q.toNat).fabricCtl c h 5 0 3)) ∧
      (s.fabricNext c q.toNat h = none → exec (.ctRclose c u) s = .next (s.setCore c (k.setWait u .tile)))) ∧
    (∀ r : List RingItem, h.state = .opened → h.kind = .canal → h.consumer = true → h.ring = .endMark :: r →
      exec (.ctRclose c u) s = stationDone c u ((s.setCore c (k.setHandle q.toNat {})).sendCanal (.closeAck p h.rid h.peer h.peerQ))) ∧
    (h.state = .opened → h.kind = .canal → h.consumer = true → h.ring = [] →
      exec (.ctRclose c u) s = .next (s.setCore c (k.setWait u .tile))) ∧
    (∀ (x : Tile) (r : List RingItem), h.state = .opened → h.kind = .canal → h.consumer = true → h.ring = .tile x :: r →
      exec (.ctRclose c u) s = .next (s.setCore c ((k.setQ u ((k.q u).drop 1)).fault Status.state u e.pc e.seq))) ∧
    (h.state = .unbound ∨ h.state = .closing → exec (.ctRclose c u) s = .next (s.setCore c ((k.setQ u ((k.q u).drop 1)).fault Status.state u e.pc e.seq))))

/-- The messages of a canal runnel (02 R57-R64): a request pairs with the Pending consumer it agrees with, fails with STATE where the two
differ and with DENIED at a core whose bed is fenced (17 R454), or stays at the core it names; the acknowledgement opens the producer end
with the credits of its depth; a tile goes to the next slot of the
ring, its bytes at the ring's place in the Pond, behind every other, so that none overtakes another, but nowhere in a fenced bed (17 R453);
a credit is counted; a close acknowledgement unbinds the producer end, whose ledger is audited. -/
def Obligations.CanalMessageRows : Prop :=
  ∀ (s : State) (p rid : Nat) (b : List CanalMsg),
    (∀ r : OpenReq, s.canal = .openReq p r :: b → r.rid = rid →
      let t := { s with canal := b }
      let k := s.core r.consCore
      (t.passes r.consCore = false → exec (.runnelOpenRequest p rid) s = .next (t.failRequest r Status.denied)) ∧
      (t.passes r.consCore = true → k.awaits rid = none → exec (.runnelOpenRequest p rid) s = .next (t.setCore r.consCore { k with reqs := k.reqs ++ [r] })) ∧
      (∀ q : Nat, t.passes r.consCore = true → k.awaits rid = some q →
        let h := k.handle q
        (h.peer = r.prodCore → h.fmt = r.fmt → exec (.runnelOpenRequest p rid) s = .next (t.openPair p (r.consCore, q) r)) ∧
        (h.peer ≠ r.prodCore ∨ h.fmt ≠ r.fmt → exec (.runnelOpenRequest p rid) s = .next (t.failRequest r))) ∧
      (∀ (u : State) (status : Nat), let x := u.core r.prodCore
        ((x.handle r.prodQ).state = .pending → (x.handle r.prodQ).rid = r.rid → u.failRequest r status =
          u.setCore r.prodCore ((x.setHandle r.prodQ {}).fault status .scalar r.pc r.seq)) ∧
        ((x.handle r.prodQ).state ≠ .pending ∨ (x.handle r.prodQ).rid ≠ r.rid → u.failRequest r status = u))) ∧
    (∀ (a : List CanalMsg) (c q pq depth : Nat), (∀ m ∈ a, ∀ x y z w, m ≠ .openAck p rid x y z w) →
      s.canal = a ++ .openAck p rid c q pq depth :: b →
      let h := (s.core c).handle q
      h.state = .pending → h.rid = rid → h.consumer = false →
      exec (.openAcknowledgement p rid) s = .next ({ s with canal := a ++ b }.setCore c ((s.core c).setHandle q
        { h with state := .opened, credits := depth, depth := depth, peerQ := pq }))) ∧
    (∀ (a : List CanalMsg) (c q : Nat) (x : RingItem), (∀ m ∈ a, ∀ y z w, m ≠ .item p rid y z w) →
      s.canal = a ++ .item p rid c q x :: b →
      let h := (s.core c).handle q
      (s.passes c = false → exec (.canalTileArrival p rid) s = .next { s with canal := a ++ b }) ∧ (s.passes c = true →
      h.state = .opened → h.rid = rid → h.consumer = true → h.kind = .canal →
      let t := fun k : Core => ({ s with canal := a ++ b } : State).setCore c (k.setHandle q { h with ring := h.ring ++ [x] })
      let slot := (h.pos + (h.ring.filter (fun y => y != .endMark)).length) % h.depth
      let rows := fun y : Tile => (s.core c).setBytes (h.base + slot * Fmt.tileBytes h.fmt) y.rowBytes.flatten
      (x = .endMark → exec (.canalTileArrival p rid) s = .next (t (s.core c))) ∧
      (∀ y : Tile, x = .tile y → Fmt.isMx h.fmt = false → exec (.canalTileArrival p rid) s = .next (t (rows y))) ∧
      (∀ y : Tile, x = .tile y → Fmt.isMx h.fmt = true → exec (.canalTileArrival p rid) s =
        .next (t ((rows y).setBytes (h.base + h.depth * Fmt.tileBytes h.fmt + slot * 32) y.scaleBytes))))) ∧
    (∀ (a : List CanalMsg) (c q n : Nat), (∀ m ∈ a, ∀ y z w, m ≠ .credit p rid y z w) →
      s.canal = a ++ .credit p rid c q n :: b →
      let h := (s.core c).handle q
      h.state ≠ .unbound → h.rid = rid → h.consumer = false → h.kind = .canal →
      exec (.creditReturn p rid) s = .next ({ s with canal := a ++ b }.setCore c ((s.core c).setHandle q { h with credits := h.credits + n }))) ∧
    (∀ (a : List CanalMsg) (c q : Nat), (∀ m ∈ a, ∀ y z, m ≠ .closeAck p rid y z) →
      s.canal = a ++ .closeAck p rid c q :: b →
      let h := (s.core c).handle q
      h.state = .closing → h.rid = rid → h.kind = .canal →
      exec (.closeAcknowledgement p rid) s = .next ((({ s with canal := a ++ b }.setCore c
        (((s.core c).setHandle q {}).rcloseDone h.stn q)).auditClose p rid c h).dropCredits p rid))

/-- Packets at the headworks (09 R255, R260-R265, R269; 10 R287; 16 R435): a sound packet at an Up port is buffered, a second copy of a SYNC
packet is not; a malformed one is discarded, counted and recorded; a stale or aged one is discarded and counted, here or as it leaves;
Diapause discards and counts transit; SYNC packets leave in the order of their pair; a packet for another module leaves on the port of its
next hop or waits for it; one for this module is handed to its endpoint, a partial sum once it finds tokens, and a ROUTE or MGMT packet of
another module is acknowledged; a management packet not acknowledged is sent again. -/
def Obligations.PacketRows : Prop :=
  (∀ (p : Packet) (n : Nat) (again : Bool) (s : State), let b : Buffered := ⟨p, n, again⟩
    (s.pktStale p = true → s.checkPkt b = some ((s.dropPkt b .stale).sendLost b)) ∧
    (s.pktStale p = false → s.pktAged p = true → s.checkPkt b = some (((s.dropPkt b .aged).agedRecord p).noteUnacked b)) ∧
    (s.pktStale p = false → s.pktAged p = false → s.checkPkt b = none) ∧
    (n < 48 → s.sendLost b = s ∧ s.noteUnacked b = s) ∧
    (p.typ ≠ 4 → s.syncPast p = s) ∧
    (p.typ = 4 → s.syncAhead p < 2 ^ 31 → s.syncPast p = { s with hwk := { s.hwk with
      syncSeen := sset 0 s.hwk.syncSeen (p.src + 8192 * p.dst) ((p.pos + 1) % 2 ^ 32) } }) ∧
    s.sleepDrop b = { s.freeFlits b with pwr := { s.pwr with drops := satAdd 16 s.pwr.drops 1 } }) ∧
  (∀ (n : Nat) (p : Packet) (s : State), n < 48 →
    let b : Buffered := ⟨p, n, false⟩
    let awake := s.pwr.sleep ≠ .diapause ∨ s.sleepPasses p = true
    ((s.link n).state ≠ .up → exec (.packetArrival n p) s = .next s) ∧
    ((s.link n).state = .up →
      (pktMalformed p = true → exec (.packetArrival n p) s = .next ((s.dropPkt b .malformed).malformedRecord p)) ∧
      (pktMalformed p = false → ¬awake → exec (.packetArrival n p) s = .next (s.sleepDrop b)) ∧
      (pktMalformed p = false → awake → s.pktStale p = true →
        exec (.packetArrival n p) s = .next (if p.typ = 4 ∧ s.syncAhead p = 0 then (s.dropPkt b .stale).syncPast p else s.dropPkt b .stale)) ∧
      (pktMalformed p = false → awake → s.pktStale p = false → s.pktAged p = true →
        let t := (s.dropPkt b .aged).agedRecord p
        exec (.packetArrival n p) s = .next (if p.typ = 4 ∧ s.syncAhead p = 0 then t.syncPast p else t)) ∧
      (pktMalformed p = false → awake → s.pktStale p = false → s.pktAged p = false →
        (p.typ = 4 → s.syncDup p = true → exec (.packetArrival n p) s = .next (s.freeFlits b)) ∧
        (p.typ ≠ 4 ∨ s.syncDup p = false →
          exec (.packetArrival n p) s = .next { s with hwk := { s.hwk with bufs := s.hwk.bufs ++ [b] } })))) ∧
  (∀ (i : Nat) (s : State), s.hwk.bufs[i]? = none → exec (.packetEgress i) s = .next s) ∧
  (∀ (i : Nat) (s : State) (b : Buffered), s.hwk.bufs[i]? = some b →
    let p := b.pkt
    let u := { s with hwk := { s.hwk with bufs := s.hwk.bufs.eraseIdx i } }
    let t := u.syncPast p
    let awake := s.pwr.sleep ≠ .diapause ∨ s.sleepPasses p = true
    (¬awake → exec (.packetEgress i) s = .next (u.sleepDrop b)) ∧
    (awake → s.syncEarly p = true → exec (.packetEgress i) s = .next s) ∧
    (awake → s.syncEarly p = false →
      (t.pktStale p = true → exec (.packetEgress i) s = .next ((t.dropPkt b .stale).sendLost b)) ∧
      (t.pktStale p = false → t.pktAged p = true →
        exec (.packetEgress i) s = .next (((t.dropPkt b .aged).agedRecord p).noteUnacked b)) ∧
      (t.pktStale p = false → t.pktAged p = false →
        (t.isMine p.dst = true → exec (.packetEgress i) s = .next (if p.typ = 2 ∧ t.redupRoom p = false then s else t.handOver b)) ∧
        (t.isMine p.dst = false → t.hop b = .here → exec (.packetEgress i) s = .next (t.dropPkt b .notReady)) ∧
        (t.isMine p.dst = false → t.hop b = .stuck → exec (.packetEgress i) s = .next s) ∧
        (∀ (d : Dir) (detour : Bool), t.isMine p.dst = false → t.hop b = .go d detour →
          exec (.packetEgress i) s = .next (match t.forward b d detour with
            | some w => w.relayCopy p
            | none => s))))) ∧
  (∀ (b : Buffered) (s : State), let p := b.pkt
    (p.dep ≤ 0x10 → s.hwk.role ≠ .active → s.handOver b = s.dropPkt b .notReady) ∧
    (0x10 < p.dep ∨ s.hwk.role = .active →
      let t := s.freeFlits b
      let u := { t with hwk := { t.hwk with inbox := t.hwk.inbox ++ [p] } }
      (p.typ < 6 → s.handOver b = u) ∧
      (p.typ = 6 → p.arg = 0x80 → s.handOver b = { t with hwk := { t.hwk with
        unacked := t.hwk.unacked.filter (fun x => !(x.pkt.dst == p.src && x.pkt.typ == p.flow && x.pkt.pos == p.pos)) } }) ∧
      (p.typ = 7 ∨ (p.typ = 6 ∧ p.arg ≠ 0x80 ∧ p.arg ≠ holdBrokenArg) → p.src ≠ u.coord → s.handOver b = u.sendPacket { noPacket with
        typ := 6, dst := p.src, dep := 0x11, sep := 0x11, arg := 0x80, flow := p.typ, pos := p.pos }))) ∧
  (∀ (i : Nat) (s : State), s.hwk.unacked[i]? = none → exec (.mgmtResend i) s = .next s) ∧
  (∀ (i : Nat) (s : State) (u : Unacked), s.hwk.unacked[i]? = some u →
    exec (.mgmtResend i) s = .next { s with hwk := { s.hwk with
      bufs := s.hwk.bufs ++ [⟨{ u.pkt with birth := s.birth }, u.port, false⟩]
      unacked := s.hwk.unacked.set i { u with sends := u.sends + 1 } } })

/-- Where a packet goes (09 R240, R241, R256, R260): by the table of assembly, a packet takes the first of the rings X, Y and Z in which it
is not yet at the position of its destination's coordinate, the shorter way, and the plus way where both are equal; at that position it is
there, or takes a twin port where its destination is in the other District. The packet is in the plane of its source, or has come in along
Z. -/
def Obligations.DimensionOrderRouting : Prop :=
  ∀ (s : State) (b : Buffered) (x y z d : Nat), s.hwk.table = [] → x < 16 → y < 16 → z < 16 → d < 2 → s.hwk.pos.x < 16 → s.hwk.pos.y < 16 →
    s.hwk.pos.z ≤ 16 → s.hwk.pos.d < 2 → b.pkt.dst = x + 16 * y + 256 * z + 4096 * d →
    let me := s.hwk.pos
    let own := b.pkt.src / 4096 % 2 ≠ me.d ∨ b.pkt.src / 256 % 16 = me.z
    (own → x ≠ me.x → s.hop b = .go (if (x + 16 - me.x) % 16 ≤ 8 then 0 else 1) false) ∧
    (own → x = me.x → y ≠ me.y → s.hop b = .go (if (y + 16 - me.y) % 16 ≤ 8 then 2 else 3) false) ∧
    (own ∨ b.inDim = some 2 → x = me.x → y = me.y → z ≠ me.z → s.hop b = .go (if (z + 17 - me.z) % 17 ≤ 8 then 4 else 5) false) ∧
    (x = me.x → y = me.y → z = me.z → s.hop b = if d = me.d then .here else .go 6 false)

/-- Fabric runnels, epochs, failures and redraws (09 R262, R264, R265, R267, R268; 13 R373; 15 R410; 17 R456): a tile lands in slot POS mod depth
of its ring and a second copy is discarded; credits open and feed the producer end, whose ledger is audited as it closes; a newer epoch has
its effects and is passed on; a failed module is known and reported, and fails a spare whose twin it holds; the
route master computes tables that are sent with a commit time at least 50 ms ahead, held in shadow, and in force at their time, when what
waits at a port and has sent nothing is routed again. -/
def Obligations.FabricAndRouteRows : Prop :=
  ((∀ (p : Packet) (s : State), s.secFrozen p.dep = true → exec (.fabricTileArrival p) s = .next s ∧ exec (.rcredArrival p) s = .next s) ∧
   (∀ (p : Packet) (s : State), p.dep ≤ 9 → s.secFrozen p.dep = false →
     let t := s.takeInbox p
     let cid := p.tag % 65536
     (t.findFabric p.dep p.flow cid true = none → p.payload ≠ [] → exec (.fabricTileArrival p) s = .next t) ∧
     (p.payload = [] → p.arg % 256 = 3 → ∀ r rest, takeFirst (fun r : FabReq => decide (r.sec = p.dep ∧ r.cid = cid ∧ r.rid = p.flow ∧
       r.peer = p.src + 65536 * p.sep)) t.hwk.fopens = some (r, rest) →
         exec (.fabricTileArrival p) s = .next { t with hwk := { t.hwk with fopens := rest } }) ∧
     (t.findFabric p.dep p.flow cid false = none → exec (.rcredArrival p) s = .next t) ∧
     (∀ c q : Nat, t.findFabric p.dep p.flow cid true = some (c, q) →
       let h := (s.core c).handle q
       let key := ringKey c q (p.pos % h.depth)
       (p.payload ≠ [] → h.state ≠ .opened ∨ 2 ^ 31 ≤ (p.pos + 2 ^ 32 - h.pos) % 2 ^ 32 → exec (.fabricTileArrival p) s = .next t) ∧
       (p.payload ≠ [] → h.state = .opened → (p.pos + 2 ^ 32 - h.pos) % 2 ^ 32 < 2 ^ 31 →
         ((sget (0, noPacket) s.hwk.rings key).1 ≠ 1 →
           exec (.fabricTileArrival p) s = .next { t with hwk := { t.hwk with rings := sset (0, noPacket) s.hwk.rings key (1, p) } }) ∧
         ((sget (0, noPacket) s.hwk.rings key).1 = 1 → exec (.fabricTileArrival p) s = .next t)) ∧
       (p.payload = [] → p.arg % 256 = 1 → h.state = .pending →
         (h.peer = p.src + 65536 * p.sep → h.fmt = p.arg / 256 % 256 → exec (.fabricTileArrival p) s = .next (t.openFabricPair c q)) ∧
         (h.peer ≠ p.src + 65536 * p.sep ∨ h.fmt ≠ p.arg / 256 % 256 → exec (.fabricTileArrival p) s = .next (t.sendPacket
           { noPacket with typ := 5, tag := p.tag, dst := p.src, dep := p.sep, sep := p.dep, flow := p.flow, arg := 4 }))) ∧
       (p.payload = [] → p.arg % 256 = 2 → h.state = .opened → h.peer = p.src + 65536 * p.sep →
         exec (.fabricTileArrival p) s = .next (t.setCore c ((s.core c).setHandle q { h with mark := some p.pos })))) ∧
     (t.findFabric p.dep p.flow cid true = none → p.payload = [] → p.arg % 256 = 1 →
       exec (.fabricTileArrival p) s = .next { t with hwk := { t.hwk with
         fopens := t.hwk.fopens ++ [⟨p.dep, cid, p.flow, p.src + 65536 * p.sep, p.arg / 256 % 256⟩] } }) ∧
     (∀ c q : Nat, t.findFabric p.dep p.flow cid false = some (c, q) →
       let k := t.core c
       let h := k.handle q
       let n := p.arg / 256 % 2 ^ 24
       (h.state = .pending → p.arg % 256 = 2 → exec (.rcredArrival p) s =
         .next (t.setCore c (k.setHandle q { h with state := .opened, credits := n, depth := n }))) ∧
       (h.state = .pending → p.arg % 256 = 4 → exec (.rcredArrival p) s =
         .next (t.setCore c ((k.setHandle q {}).fault Status.state .scalar h.opc h.oseq))) ∧
       (h.state ≠ .pending → p.arg % 256 = 1 → exec (.rcredArrival p) s =
         .next (t.setCore c (k.setHandle q { h with credits := h.credits + n }))) ∧
       (h.state ≠ .pending → p.arg % 256 = 3 → exec (.rcredArrival p) s =
         .next (if h.state = .closing ∧ h.credits ≠ h.depth then
           (t.setCore c ((k.setHandle q {}).rcloseDone h.stn q)).report
             (Rec.mk' Status.integrity Sev.devFatal Blk.sec (c / 256) (t.partOf c) (unitLoc c h.stn))
           else t.setCore c ((k.setHandle q {}).rcloseDone h.stn q))))) ∧
   (∀ (p : Packet) (s : State),
     let cid := field p.payload 0 2
     let e := field p.payload 2 1 % 16
     let cur := sget (false, 0) s.hwk.epochs cid
     let t := ((s.takeInbox p).setEpoch cid e).sendEpoch cid
     (cur.1 = true → 1 ≤ (e + 16 - cur.2) % 16 → (e + 16 - cur.2) % 16 ≤ 8 → exec (.epochMessage p) s = .next (t.epochEffects cid)) ∧
     (cur.1 = true → e = cur.2 → exec (.epochMessage p) s = .next (s.takeInbox p)) ∧
     (cur.1 = false → exec (.epochMessage p) s = .next t)) ∧
   (∀ (cid q : Nat) (s : State), s.chr.deferred = [(cid, q)] → (s.part q).state = .draining →
     (s.mayAdvance cid = true →
       exec (.deferredEpochAdvance cid) s = .next ({ s with chr := { s.chr with deferred := [] } }.drainAdvance q)) ∧
     (s.mayAdvance cid = false → exec (.deferredEpochAdvance cid) s = .next s))) ∧
  ((∀ (a : Pos) (s : State),
     let u := if a = (match s.hwk.coord with
       | some c => tablePos s.hwk.table (twinOf c)
       | none => { s.hwk.pos with d := 1 - s.hwk.pos.d }) then s.spareFail Status.linkDown else s
     let t := { u with hwk := { u.hwk with
       failed := if u.hwk.failed.contains a then u.hwk.failed else u.hwk.failed ++ [a], computing := u.hwk.computing || u.hwk.master } }
     (s.hwk.master = true → exec (.heartbeatMiss a) s = .next t) ∧ (s.hwk.inbox = [] → exec (.failureReport a) s = .next t) ∧
     (s.hwk.masterAt = none → exec (.heartbeatMiss a) s = .next t) ∧
     (∀ m : Pos, s.hwk.master = false → s.hwk.masterAt = some m →
       exec (.heartbeatMiss a) s = .next (t.sendPacket { noPacket with
         typ := 6, dst := (coordAt s.hwk.table m).getD (coordOf m), dep := 0x11, sep := 0x11, arg := 3, payload := failPayload a }))) ∧
   (∀ (p : Pos) (s : State), p.x < 16 → p.y < 16 → p.z < 16 → p.d < 2 → s.hwk.failed = [p] →
     (s.hwk.table = [] → s.redraw = [⟨p.x + 16 * p.y + 256 * p.z + 4096 * p.d, { p with z := 16 }⟩]) ∧
     (∀ z : Nat, z < 16 → z ≠ p.z → s.hwk.table = [(coordOf { p with z }, { p with z := 16 })] →
       s.redraw = [⟨p.x + 16 * p.y + 256 * p.z + 4096 * p.d, deadPos p⟩])) ∧
   (∀ s : State, s.hwk.master = true → s.hwk.computing = true →
     let t := { s with hwk := { s.hwk with computing := false } }
     let es := s.redraw
     let time := s.tim.now + 50000000 + (Config.freeValue s.free).toNat % 2 ^ 31
     let v := ((s.hwk.shadow.map (·.version)).getD s.hwk.version + 1) % 65536
     exec .routeTablesComputed s = .next (if tablesOk [s.hwk.table, es.foldl putEntry s.hwk.table] = true then
       ({ t with free := s.free + 1, hwk := { t.hwk with shadow := some ⟨v, time, es⟩ } } : State).sendRoute v time es
       else t.report (Rec.mk' 0x75 Sev.devFatal Blk.hwk 0))) ∧
   (∀ (v time : Nat) (table : List RouteEntry) (s : State), s.hwk.inbox = [] →
     let cur := (s.hwk.shadow.map (·.version)).getD s.hwk.version
     (1 ≤ (v + 65536 - cur) % 65536 → (v + 65536 - cur) % 65536 < 32768 →
       exec (.routePacket v time table) s =
         .next (({ s with hwk := { s.hwk with shadow := some ⟨v, time, table⟩ } }).sendRoute v time table)) ∧
     ((v + 65536 - cur) % 65536 = 0 → exec (.routePacket v time table) s = .next s)) ∧
   (∀ (s : State) (x : Shadow) (groups : List TwinGroup), s.hwk.shadow = some x →
     let table := x.table.foldl putEntry s.hwk.table
     let t : State := { s with hwk := { s.hwk with
       version := x.version, shadow := none, table, failed := s.hwk.failed.filter (fun p => !gapIn table p) } }
     let moved := (x.table.filter (fun e => tablePos s.hwk.table e.coord ≠ e.phys)).map (·.coord)
     let u := x.table.foldl State.placeSelf ((List.range 48).foldl State.sendElsewhere (moved.foldl State.newPairs t.unqueue))
     let v := (if s.hwk.role = .spare ∧ u.hwk.role = .joining then u.takeGroups groups else u).auditHwk.auditWeirs
     (s.tim.now < x.time → exec (.routeCommit groups) s = .next s) ∧
     (x.time ≤ s.tim.now → exec (.routeCommit groups) s = .next (if v.hwk.fenceAfterCommit = true then v.fencePorts else v))) ∧
   (∀ (s : State) (e : RouteEntry),
     (e.phys = s.hwk.pos → s.hwk.role = .spare →
       (s.placeSelf e).hwk.coord = some e.coord ∧ (s.placeSelf e).hwk.role = .joining ∧ (s.placeSelf e).hwk.syncSent = [] ∧
       (s.placeSelf e).join.phase = .preparing) ∧
     (s.isMine e.coord = true → e.phys ≠ s.hwk.pos → (s.placeSelf e).hwk.coord = none ∧ (s.placeSelf e).hwk.role = .spare) ∧
     (s.isMine e.coord = false → e.phys ≠ s.hwk.pos ∨ s.hwk.role ≠ .spare → s.placeSelf e = s)))

/-- Sums of a reduction (10 R282, R285): two inputs of a tile that hold contributions of one scale add element by element, in either
order and in any grouping, so the committed bits do not depend on arrival; unequal scales have no sum; a null contribution is neutral. CNT
adds in the same way;
with contributions of magnitude up to M = 127 and a CNT up to 81,920 no sum overflows 32 bits, so 32-bit addition is exact, as is the
widening of an input to 32 bits. -/
def Obligations.ReductionSumsAreOrderFree : Prop :=
  ∀ a b c : TSum, a.vals.length = 1024 → b.vals.length = 1024 → c.vals.length = 1024 →
    (a.cnt ≠ 0 → b.cnt ≠ 0 → (a.add b = b.add a ∧ (a.e ≠ b.e → a.add b = none) ∧
      (a.e = b.e → a.add b = some ⟨a.cnt + b.cnt, a.e, List.zipWith (· + ·) a.vals b.vals⟩))) ∧
    (a.cnt ≠ 0 → b.cnt ≠ 0 → c.cnt ≠ 0 → (a.add b).bind (fun x => x.add c) = (b.add c).bind (fun x => a.add x)) ∧
    (a.cnt ≠ 0 → a.add TSum.null = some a ∧ TSum.null.add a = some a) ∧
    (∀ (m : Nat) (r : TSum), m ≤ 127 → (∀ v ∈ a.vals, v.natAbs ≤ a.cnt * m) → (∀ v ∈ b.vals, v.natAbs ≤ b.cnt * m) →
      a.cnt + b.cnt ≤ 81920 → a.add b = some r →
      r.cnt = a.cnt + b.cnt ∧ ∀ v ∈ r.vals, v.natAbs ≤ r.cnt * m ∧ (BitVec.ofInt 32 v).toInt = v) ∧
    ∀ (n : Nat) (v : BitVec n), n ≤ 32 → 0 < n → (v.signExtend 32).toInt = v.toInt

/-- The payload of a partial sum (10 R284): its elements take 1 byte while every sum of CNT contributions fits one, else 2, else 4, and
1 bit for a single SIGN1 contribution; what the receiver reads is what was sent. -/
def Obligations.PartialSumPayloads : Prop :=
  (∀ (cnt : Nat) (l : List Int), l.length = 1024 → cnt * 127 < 2 ^ 31 → (∀ v ∈ l, -(127 * cnt : Int) ≤ v ∧ v ≤ 127 * cnt) →
    let lw := redWidth false cnt
    redVals lw (redPayload lw l) = l ∧ (redPayload lw l).length = 1024 * (if cnt ≤ 1 then 1 else if cnt ≤ 258 then 2 else 4)) ∧
  (∀ l : List Int, l.length = 1024 → (∀ v ∈ l, v = 1 ∨ v = -1) →
    redVals (redWidth true 1) (redPayload (redWidth true 1) l) = l ∧ (redPayload (redWidth true 1) l).length = 128)

/-- The streams of a reduction group (10 R286, R287): each processes its tiles in strictly ascending order, of one direction, inside the group
vector; a start of a ring sends its local input on, a later member waits for both inputs and sends their sum on; inputs on unequal scales
stop the step. -/
def Obligations.ReductionStreamsAscend : Prop :=
  (∀ (g : RGroup) (me stage i j : Nat) (plus : Bool), i < g.tiles → g.plus i = plus → sget 0 g.streams (2 * stage + b2n plus) = i + 1 →
    g.nextTile me stage plus = some j → i < j ∧ j < g.tiles ∧ g.plus j = plus) ∧
  (∀ (e stage tile : Nat) (plus : Bool) (s : State) (l : Partial), 1 ≤ stage → stage ≤ 3 →
    let g := s.rg e
    let me := s.coord
    let sink := ringPos stage (g.ownerOf me tile)
    let next := ringNext stage me plus
    g.nextTile me stage plus = some tile → g.slot stage plus = some l → l.tile = tile →
      (ringPos stage me = ringStart sink plus →
        s.ringTile e stage plus = some ((s.setRg e ((g.remove l).past stage plus tile)).sendRedup g tile next l.sum)) ∧
      (ringPos stage me ≠ ringStart sink plus → ringPos stage me ≠ sink →
        (g.input tile stage = none → s.ringTile e stage plus = none) ∧
        (∀ u : Partial, g.input tile stage = some u →
          let t := s.setRg e (((g.remove l).remove u).past stage plus tile)
          (∀ w : TSum, l.sum.add u.sum = some w → s.ringTile e stage plus = some (t.sendRedup g tile next w)) ∧
          (l.sum.add u.sum = none → s.ringTile e stage plus = some (t.setRg e { t.rg e with mismatch := true })))))

/-- Reduction groups (10 R277, R282, R283-R294; 15 R405, R415): a JOIN makes a Joining group Active where it names the step that this member
starts at, and Create completes, else Create is STATE; without one in 1 s Create is TIMEOUT; a stale partial sum is discarded, one of an
earlier step is discarded and counted, another is held as long as its stream has tokens; a whole shard is written and, once committed,
reported; a report with the count expected is noted, another drops the step; a commit ends the step, and its header is written before the
result fence is signalled; a step that is dropped discards what the engine and the contribution runnels hold of it, and its header says so;
gather tiles are stored and passed on once; a lost contributor is counted out or drops the step, and one that joins again counts from the
next step. That a group which ends empties its contribution runnels is the model's choice (assumption 121), as are the orders of the
controller (assumption 114). -/
def Obligations.ReductionGroupRows : Prop :=
  (∀ (gid : Nat) (s : State), s.findRg gid = none →
    (∀ expect step, exec (.rgJoin gid expect step) s = .next s) ∧ exec (.rgJoinTimeout gid) s = .next s ∧
    (∀ p : Packet, p.flow / 7 = gid → exec (.redupArrival p) s = .next (s.takeInbox p) ∧ exec (.reddnArrival p) s = .next (s.takeInbox p)) ∧
    exec (.shardComplete gid) s = .next s ∧ (∀ shard twin cnt, exec (.shardReport gid shard twin cnt) s = .next s) ∧
    exec (.commit gid) s = .next s ∧ (∀ lost, exec (.contributorLost gid lost) s = .next s)) ∧
  (∀ (gid e : Nat) (s : State), s.findRg gid = some e →
    let g := s.rg e
    let outcome := if g.mismatch then Status.state else Status.dropped
    (∀ expect step : Nat, g.state = .joining →
      let x := s.part g.part
      let t := s.setPart g.part { x with
        steps := x.steps.filter (fun h => h.1 ≠ gid), streams := x.streams.filter (fun h => h.1 ≠ gid) }
      (step = x.startStep gid → exec (.rgJoin gid expect step) s =
        .next (((t.rgCreated g 0).setRg e { g with state := .active, step, expect, cmd := none, streams := x.startStreams gid }).runEngine e)) ∧
      (step ≠ x.startStep gid → exec (.rgJoin gid expect step) s = .next ((t.rgCreated g Status.state).clearRg e))) ∧
    (g.state = .joining → g.since + 1000000000 ≤ s.tim.up →
      exec (.rgJoinTimeout gid) s = .next ((s.rgCreated g Status.timeout).clearRg e)) ∧
    (∀ p : Packet, p.flow / 7 = gid →
      let t := s.takeInbox p
      let stage := redStage s.coord p.src
      let lw := bits p.arg 8 2
      let d := (bits p.arg 16 16 + 65536 - g.step % 65536) % 65536
      let seen := g.seen ++ [(g.step + d, p.pos, stage)]
      (s.tagCurrent p.tag = false → exec (.redupArrival p) s = .next t) ∧
      (s.tagCurrent p.tag = true → 32768 ≤ d →
        exec (.redupArrival p) s = .next (t.setRg e { g with discard := satAdd 26 g.discard 1 })) ∧
      (s.tagCurrent p.tag = true → d < 32768 → g.seen.contains (g.step + d, p.pos, stage) = true ∨ g.stageOn stage = false ∨ g.tiles ≤ p.pos →
        exec (.redupArrival p) s = .next t) ∧
      (s.tagCurrent p.tag = true → d < 32768 → g.seen.contains (g.step + d, p.pos, stage) = false → g.stageOn stage = true → p.pos < g.tiles →
        (g.heldBy stage (g.plus p.pos) + redTokens lw ≤ 760 → exec (.redupArrival p) s = .next ((t.setRg e { g with
          seen, partials := g.partials ++ [⟨g.step + d, p.pos, stage, true, p.cnt, p.arg % 256, redVals lw p.payload, redTokens lw⟩] }).runEngine e)) ∧
        (760 < g.heldBy stage (g.plus p.pos) + redTokens lw → exec (.redupArrival p) s = .next s))) ∧
    (g.reported = true ∨ g.sums.length < g.s ∨ g.s = 0 → exec (.shardComplete gid) s = .next s) ∧
    (g.reported = false → g.s ≤ g.sums.length → 1 ≤ g.s →
      let vals := (List.range g.s).map (fun k => (sget (0, []) g.sums k).2)
      let wrote := match g.owner with
        | some p => if s.writesShard then State.writeShard p (g.resDva + 4096) vals s else some (s, 0)
        | none => some (s, 0)
      exec (.shardComplete gid) s = .next (match wrote with
        | none => s
        | some (t, st) =>
          if st ≠ 0 then t
          else if s.controls g then (t.setRg e { g with reported := true }).shardReport e (g.shardOf s.coord) false (sget (0, []) g.sums 0).1
          else t.setRg e { g with reported := true })) ∧
    (∀ (shard cnt : Nat) (twin : Bool),
      let reports := if g.reports.any (fun r => r.1 == shard && r.2.1 == twin) then g.reports else g.reports ++ [(shard, twin, cnt)]
      let due := s.report (Rec.mk' Status.integrity Sev.devFatal Blk.hwk 0)
      let mine := decide (shard = g.shardOf s.coord) && !twin
      (g.open_ = false ∨ s.controls g = false → exec (.shardReport gid shard twin cnt) s = .next s) ∧
      (g.open_ = true → s.controls g = true → cnt = g.expect - g.lostCnt → exec (.shardReport gid shard twin cnt) s = .next (s.setRg e { g with
        reports, commitDue := decide (g.shards * (if g.tw then 2 else 1) ≤ reports.length) })) ∧
      (g.open_ = true → s.controls g = true → cnt ≠ g.expect - g.lostCnt → exec (.shardReport gid shard twin cnt) s =
        .next (((if mine then due else s).dropStep e Status.dropped).runEngine e))) ∧
    (g.open_ = false ∨ (s.controls g = true ∧ g.commitDue = false) ∨ (g.owner ≠ none ∧ g.reported = false) →
      exec (.commit gid) s = .next s) ∧
    (g.open_ = true → s.controls g = false ∨ g.commitDue = true → g.owner = none ∨ g.reported = true →
      let cnt := g.expect - g.lostCnt
      let status := if cnt = g.expect then 0 else Status.dropped
      exec (.commit gid) s = .next ((s.setRg e { g.endStep cnt status with
        commits := satAdd 16 g.commits 1, short := if cnt < g.expect then satAdd 16 g.short 1 else g.short
        headers := g.headers ++ [⟨g.step, cnt, g.expect, status⟩] }).runEngine e)) ∧
    (∀ (p : Nat) (r : StepResult), g.owner = some p → s.writesShard = true →
      State.putHeaders e [r] s = (match s.writeDva .core p g.resDva (headerBytes r.cnt r.expected r.step r.status g.sign1) with
        | none => s
        | some (t, st) =>
          let u := t.setRg e { t.rg e with headers := [] }
          if st = 0 then (u.signalFence p g.resFence ((r.step + 1) % 2 ^ 48)).1 else u)) ∧
    (∀ status : Nat,
      let t := s.setRg e { g.endStep 0 status with
        fulldrop := satAdd 16 g.fulldrop 1, headers := g.headers ++ [⟨g.step, 0, g.expect, status⟩]
        discard := satAdd 26 g.discard (g.partials.filter (fun x => x.step = g.step)).length }
      s.dropStep e status = (t.discardOld e).settle e) ∧
    (∀ (p : Packet), p.flow / 7 = gid →
      (s.tagCurrent p.tag = false ∨ g.gatherDup p = true → exec (.reddnArrival p) s = .next (s.takeInbox p)) ∧
      (s.tagCurrent p.tag = true → g.gatherDup p = false →
        exec (.reddnArrival p) s = .next (if (s.gatherStore e p).2 = true then
          (((s.gatherStore e p).1.takeInbox p).gatherPass g (redStage s.coord p.src) p) else s))) ∧
    (g.open_ = false → ∀ lost, exec (.contributorLost gid lost) s = .next s) ∧
    (g.open_ = true →
      (∀ p : Nat, (g.outs.contains p = true ∨ g.srcs.any (fun m => m.part = p) = false →
        exec (.contributorLost gid (.partition p)) s = .next s) ∧
       (g.outs.contains p = false → g.srcs.any (fun m => m.part = p) = true →
        (g.taken.contains p = false → exec (.contributorLost gid (.partition p)) s = .next ((s.setRg e { g with
          outs := g.outs ++ [p], lostCnt := g.lostCnt + 1, nullC := true }).runEngine e)) ∧
        (g.taken.contains p = true →
          let t := s.dropStep e outcome
          exec (.contributorLost gid (.partition p)) s = .next ((t.setRg e { t.rg e with
            outs := (t.rg e).outs ++ [p], lostCnt := (t.rg e).lostCnt + 1, nullC := true }).runEngine e)))) ∧
      (∀ parts : Nat, exec (.contributorLost gid (.remote false parts)) s =
          .next ((s.setRg e { g with lostCnt := g.lostCnt + parts }).runEngine e) ∧
        (let t := s.dropStep e outcome
         exec (.contributorLost gid (.remote true parts)) s =
          .next ((t.setRg e { t.rg e with lostCnt := (t.rg e).lostCnt + parts }).runEngine e))) ∧
      (∀ coord parts : Nat, exec (.contributorLost gid (.module coord false parts)) s = .next (s.setRg e { g with
          lostCnt := g.lostCnt + parts, lostMods := g.lostMods ++ [coord] }) ∧
        (let t := s.dropStep e outcome
         exec (.contributorLost gid (.module coord true parts)) s = .next ((t.setRg e { t.rg e with
          lostCnt := (t.rg e).lostCnt + parts, lostMods := (t.rg e).lostMods ++ [coord] }).runEngine e))) ∧
      (∀ (step : Nat) (mismatch wrong : Bool),
        let u := if wrong then s.report (Rec.mk' Status.integrity Sev.devFatal Blk.hwk 0) else s
        (step = g.step → exec (.contributorLost gid (.drop step mismatch wrong)) s =
          .next ((u.dropStep e (if mismatch = true ∨ g.mismatch = true then Status.state else Status.dropped)).runEngine e)) ∧
        (step ≠ g.step → exec (.contributorLost gid (.drop step mismatch wrong)) s = .next u)) ∧
      (∀ (coord parts : Nat) (own : List Nat), exec (.contributorLost gid (.joined coord own parts)) s = .next (s.setRg e { g with
        back := g.back ++ own, backCnt := g.backCnt + parts, backMods := g.backMods ++ [coord] })) ∧
      exec (.contributorLost gid .shard) s = .next ((s.setRg e { g with state := .closing }).dropStep e Status.dropped)))

/-- How commands pass through a queue (12 R336, R339-R346, R351, R353; 11 R323-R326; 17 R449, R461): a tail doorbell inside the ring sets the
tail, one outside it halts the queue with BOUNDS, a queue being destroyed ignores it, and outside Ready what it exposes completes with STATE;
a consumed index is noted and what was held is written; a fetch takes the packet at the head in hand, or its error status, or waits on the
fence it names, or halts the queue with HOST_ABORT where the host read fails; a completion signals its fence where the command was OK,
posts the entry and halts the queue unless both were OK, and at a STEP_MARK the hold of a ready spare's twin begins; a
DEADLOCK snapshot holds the blocked units and is told as an event, and stops the partition where its detector says so. -/
def Obligations.QueueMechanicsRows : Prop :=
  (∀ (f q i : Nat) (s : State), f < 11 → q < 64 → s.served f q = true →
    let x := s.queue f q
    x.state ≠ .absent →
    (∀ pkts : List (List Byte), s.mon.phase = .ready → x.destroying = false → i < x.sqLen → x.waiting ≤ (i + x.sqLen - x.head) % x.sqLen →
      exec (.sqtDoorbell f q i pkts) s = .next ((s.putPackets f q pkts).setQueue f q { x with tail := i })) ∧
    (∀ pkts : List (List Byte), x.destroying = true → exec (.sqtDoorbell f q i pkts) s = .next s) ∧
    (∀ pkts : List (List Byte), s.mon.phase ≠ .ready → x.destroying = false → i < x.sqLen →
      exec (.sqtDoorbell f q i pkts) s = .next ((s.putPackets f q pkts).refuseNew f q i)) ∧
    (∀ pkts : List (List Byte), s.mon.phase = .ready → x.destroying = false →
      x.sqLen ≤ i ∨ (i + x.sqLen - x.head) % x.sqLen < x.waiting → exec (.sqtDoorbell f q i pkts) s =
      .next ((s.setQueue f q { x with state := .halted }).postCpl f q (s.cpl f q 0 Status.bounds))) ∧
    (s.mon.phase = .ready → i < x.cqLen → (i + x.cqLen - x.cqHead) % x.cqLen ≤ (x.cqTail + x.cqLen - x.cqHead) % x.cqLen →
      exec (.cqhDoorbell f q i) s =
        .next ((State.flushHeld f q x.held.length (s.setQueue f q { x with cqHead := i })).settleQueue0 f q) ∧
      (x.held = [] → x.destroying = false → exec (.cqhDoorbell f q i) s = .next (s.setQueue f q { x with cqHead := i })))) ∧
  (∀ (f q i : Nat) (s : State) (p : List Byte), let x := s.queue f q
    x.state = .running → x.waiting = 0 → (i + x.sqLen - x.tail) % x.sqLen = 1 → p = s.hostGet (x.sqBase + 64 * (x.tail % x.sqLen)) 64 →
    let t := s.setQueue f q { x with head := i, tail := i }
    s.refuseNew f q i = t.postCpl f q { t.cpl f q (field p 2 2) Status.state with irq := bit (field p 1 1) 2 }) ∧
  (∀ (f q : Nat) (s : State), f < 11 → q < 64 → s.served f q = true → s.pwr.sleep ≠ .diapause → s.pwr.sleep ≠ .waking →
    let x := s.queue f q
    let next := (x.head + 1) % x.sqLen
    x.state = .running → x.destroying = false → x.cur = none → x.waiting ≠ 0 → x.cqFull = false → x.held = [] →
    (∀ (l : List Byte) (c : Cmd) (st : Nat), decodePacket f q (l ++ List.replicate 64 0) = (c, st) →
      let had := fun (t : State) (d : Cmd) => t.setQueue f q { x with head := next, cur := some d }
      let t := s.setQueue f q { x with head := next }
      (c.wait = true → f ≠ 0 → s.frozen (f - 1) = true → exec (.commandFetch f q (.data l)) s = .next s) ∧
      (c.wait = false ∨ f = 0 ∨ s.frozen (f - 1) = false →
        (st ≠ 0 → exec (.commandFetch f q (.data l)) s = .next (had t { c with stage := .done, status := st })) ∧
        (st = 0 → c.wait = false → exec (.commandFetch f q (.data l)) s = .next (had t c)) ∧
        (st = 0 → c.wait = true → f = 0 →
          exec (.commandFetch f q (.data l)) s = .next (had t { c with stage := .done, status := Status.bounds })) ∧
        (st = 0 → c.wait = true → 0 < f → exec (.commandFetch f q (.data l)) s =
          .next (match t.synOp (f - 1) c.wfence .fwait c.wval (.host f q) with
            | (u, .waits) => had u { c with stage := .waiting }
            | (u, .done 0) => had u c
            | (u, .done (r + 1)) => had u { c with stage := .done, status := r + 1 })))) ∧
    (∀ (l : List Byte) (a b : Nat), exec (.commandFetch f q (.abort l a b)) s =
      .next ((s.setQueue f q { x with head := next, state := .halted }).postCpl f q
        { s.cpl f q 0 Status.hostAbort with sqhead := next }))) ∧
  (∀ (f q : Nat) (s : State), f < 11 → (∀ c, (s.queue f q).cur = some c → c.stage ≠ .done) → exec (.commandCompletion f q) s = .next s) ∧
  (∀ (f q : Nat) (s : State) (c : Cmd), f < 11 → (s.queue f q).cur = some c → c.stage = .done →
    (c.sig = true → f ≠ 0 → s.frozen (f - 1) = true → exec (.commandCompletion f q) s = .next s) ∧
    (c.sig = false ∨ f = 0 ∨ s.frozen (f - 1) = false →
      let r := if c.sig = true ∧ c.status = 0 then (if f = 0 then (s, Status.bounds) else s.signalFence (f - 1) c.sfence c.sval) else (s, 0)
      let x := r.1.queue f q
      let t := r.1.setQueue f q { x with
        cur := none, state := if x.state = .running ∧ (c.status ≠ 0 ∨ r.2 ≠ 0) then .halted else x.state }
      let u := ((t.postCpl f q {
        cid := c.cid, status := c.status, sstat := r.2, phase := false, sat := c.sat, nspec := c.nspec
        sqhead := (t.queue f q).head, r0 := c.r0, r1 := c.r1, time := t.tim.now, irq := c.irq }).progress ((fnPart f).getD 0xFF)).settleQueue0 f q
      (c.opc ≠ 0x63 ∨ c.status ≠ 0 → exec (.commandCompletion f q) s = .next u) ∧
      (c.opc = 0x63 → c.status = 0 → exec (.commandCompletion f q) s = .next (match u.twinHoldStart with
        | some w => w
        | none => s)))) ∧
  (∀ (p : Nat) (s : State), p < 10 →
    let x := s.synPart p
    let us := s.unitStates p
    let sn := snapsOf us
    let y := { x with
      events := satAdd 16 x.events 1, snaps := sn.take 64, ovf := decide (64 < sn.length), raised := true
      aborted := x.abort && !(s.part p).cocBusy, abortDue := x.abort && (s.part p).cocBusy }
    let t := (s.setSynPart p y).event p Status.deadlock y.stagst
    ((s.part p).state = .active → x.en = true → x.raised = false → sn ≠ [] → (∀ u ∈ us, u ≠ .runs) →
      x.progressAt + 1000 * x.window ≤ s.tim.up →
      exec (.deadlock p) s = .next (if x.abort = true ∧ (s.part p).cocBusy = false then t.deadlockAbort p else t)) ∧
    ((s.part p).state ≠ .active ∨ x.en = false ∨ x.raised = true ∨ sn = [] ∨ (∃ u ∈ us, u = .runs) ∨ s.tim.up < x.progressAt + 1000 * x.window →
      exec (.deadlock p) s = .next s))

/-- The commands of queue 0 and NOP (12 R338, R340, R345, R352; 13 R355, R356, R360): a command begins only where it is in hand and its queue is
served; one from a function that may not issue it has DENIED, one in a Stopped partition, or from PF0 outside Ready, STATE, and where the
partition's units are stopped it begins when they go on (log entry 32). CTX_OPEN opens the lowest Free context and names it; CTX_CLOSE frees a
context that owns nothing, whose tenant keys then outlive it, and begins the death of one it forces; it waits for a cocoon in progress;
Q_CREATE makes a Running queue of legal rings; Q_DESTROY waits for
the queue's stream boundary, cancels what is queued and completes once every completion is written; Q_RESUME acts on the queue named,
unless its context dies; a death whose launches and schedules have stopped, at a drain once
the epoch has advanced, releases all the context owned, completes the CTX_CLOSE that waits for it, and with the last of them a TDI in ERROR
is unlocked, after a Device-fatal error only once its port has been reset. -/
def Obligations.QueueZeroRows : Prop :=
  (∀ (f q : Nat) (rd : HostRead) (bad : Option Nat) (img : CocRead) (s : State), f < 11 →
    ∀ r ∈ vfRows f q rd bad img ++ pfRows f q ++ anyRows f q, (∀ c, ¬InHand r.1 f q s c) → exec r.2 s = .next s) ∧
  (∀ (q : Nat) (rd : HostRead) (bad : Option Nat) (img : CocRead) (s : State) (c : Cmd), ∀ r ∈ vfRows 0 q rd bad img,
    InHand r.1 0 q s c → exec r.2 s = cmdDone 0 q s Status.denied 0 0) ∧
  (∀ (p q : Nat) (rd : HostRead) (bad : Option Nat) (img : CocRead) (s : State) (c : Cmd), ∀ r ∈ vfRows (p + 1) q rd bad img,
    InHand r.1 (p + 1) q s c →
    ((s.part p).state = .stopped → r.1 ≠ 0x03 → exec r.2 s = cmdDone (p + 1) q s Status.state 0 0) ∧
    ((s.part p).state ≠ .stopped → s.stopped p = true → 0x10 ≤ r.1 →
      ((s.part p).cocBusy = true → r.1 < 0x60 ∨ 0x62 < r.1) → exec r.2 s = .next s)) ∧
  (∀ (q : Nat) (s : State) (c : Cmd), ∀ r ∈ pfRows 0 q ++ anyRows 0 q, InHand r.1 0 q s c → s.mon.phase ≠ .ready →
    exec r.2 s = cmdDone 0 q s Status.state 0 0) ∧
  (∀ (p q : Nat) (s : State) (c : Cmd), ∀ r ∈ pfRows (p + 1) q, InHand r.1 (p + 1) q s c →
    exec r.2 s = cmdDone (p + 1) q s Status.denied 0 0) ∧
  (∀ (p q : Nat) (s : State) (c : Cmd), ∀ r ∈ anyRows (p + 1) q, InHand r.1 (p + 1) q s c → (s.part p).state = .stopped →
    r.1 = 0x01 ∨ r.1 = 0x04 ∨ (r.1 = 0x06 ∧ c.arg 25 1 ≠ 1) → exec r.2 s = cmdDone (p + 1) q s Status.state 0 0) ∧
  (∀ (f q : Nat) (s : State) (c : Cmd), InHand 0x01 f q s c → (f = 0 → s.mon.phase = .ready) → (0 < f → (s.part (f - 1)).state ≠ .stopped) →
    exec (.nopCmd f q) s = cmdDone f q s 0 0 0) ∧
  (∀ (p q : Nat) (s : State) (c : Cmd), InHand 0x02 (p + 1) q s c → (s.part p).state ≠ .stopped →
    ((∃ j, j < 16 ∧ (s.ctx (p + 1) j).state = .opened ∧ (s.ctx (p + 1) j).pasid = c.arg 24 4) →
      exec (.ctxOpen (p + 1) q) s = cmdDone (p + 1) q s Status.state 0 0) ∧
    ((∀ j, j < 16 → (s.ctx (p + 1) j).state = .opened → (s.ctx (p + 1) j).pasid ≠ c.arg 24 4) →
      (∀ j, j < 16 → (s.ctx (p + 1) j).state ≠ .free) → exec (.ctxOpen (p + 1) q) s = cmdDone (p + 1) q s Status.quota 0 0)) ∧
  (∀ (p q i : Nat) (s : State) (c : Cmd), InHand 0x02 (p + 1) q s c → (s.part p).state ≠ .stopped → i < 16 → (s.ctx (p + 1) i).state = .free →
    (∀ j, j < i → (s.ctx (p + 1) j).state ≠ .free) → (∀ j, j < 16 → (s.ctx (p + 1) j).state = .opened → (s.ctx (p + 1) j).pasid ≠ c.arg 24 4) →
    exec (.ctxOpen (p + 1) q) s = cmdDone (p + 1) q (s.setCtx (p + 1) i { state := .opened, pasid := c.arg 24 4 }) 0 i 0) ∧
  (∀ (p q : Nat) (s : State) (c : Cmd), InHand 0x03 (p + 1) q s c →
    let i := c.arg 24 1
    (16 ≤ i → exec (.ctxClose (p + 1) q) s = cmdDone (p + 1) q s Status.bounds 0 0) ∧
    (i < 16 → (s.ctx (p + 1) i).state ≠ .opened → exec (.ctxClose (p + 1) q) s = cmdDone (p + 1) q s Status.state 0 0) ∧
    (i < 16 → (s.ctx (p + 1) i).state = .opened → (s.part p).cocBusy = true → exec (.ctxClose (p + 1) q) s = .next s) ∧
    (i < 16 → (s.ctx (p + 1) i).state = .opened → (s.part p).cocBusy = false →
    (c.arg 25 1 = 0 → s.ownsNothing (p + 1) p i = true →
      let t := s.setCtx (p + 1) i {}
      exec (.ctxClose (p + 1) q) s = cmdDone (p + 1) q { t with chr := { t.chr with
        vault := smap {} (fun _ v => if v.valid = true ∧ v.owner = p ∧ v.ctx = some i then { v with ctx := none } else v) t.chr.vault } } 0 0 0) ∧
    (c.arg 25 1 = 0 → s.ownsNothing (p + 1) p i = false → exec (.ctxClose (p + 1) q) s = cmdDone (p + 1) q s Status.state 0 0) ∧
    (c.arg 25 1 ≠ 0 →
      let t := s.ctxDie (p + 1) i false
      exec (.ctxClose (p + 1) q) s = cmdRuns (p + 1) q (t.setCtx (p + 1) i { t.ctx (p + 1) i with closing := true })))) ∧
  (∀ (f q : Nat) (s : State) (c : Cmd), InHand 0x04 f q s c → (f = 0 → s.mon.phase = .ready) → (0 < f → (s.part (f - 1)).state ≠ .stopped) →
    let n := c.arg 24 1
    let ctx := c.arg 25 1
    let mine := f = 0 ∨ (ctx < 16 ∧ (s.ctx f ctx).state = .opened)
    let legal := 1 ≤ n ∧ n ≤ 63 ∧ 4 ≤ c.arg 26 1 ∧ c.arg 26 1 ≤ 15 ∧ 4 ≤ c.arg 27 1 ∧ c.arg 27 1 ≤ 15 ∧ c.arg 28 1 ≤ 63 ∧
      c.arg 32 8 % 4096 = 0 ∧ c.arg 40 8 % 4096 = 0
    (¬mine → exec (.qCreate f q) s = cmdDone f q s Status.denied 0 0) ∧
    (mine → ¬legal → exec (.qCreate f q) s = cmdDone f q s Status.bounds 0 0) ∧
    (mine → legal → (s.queue f n).state = .absent → exec (.qCreate f q) s = cmdDone f q (s.setQueue f n
      {
        state := .running, sqBase := c.arg 32 8, cqBase := c.arg 40 8, sqLog := c.arg 26 1, cqLog := c.arg 27 1, vector := c.arg 28 1
        ctx := if f = 0 then none else some ctx }) 0 0 0) ∧
    (mine → legal → (s.queue f n).state ≠ .absent → exec (.qCreate f q) s = cmdDone f q s Status.state 0 0)) ∧
  (∀ (f q : Nat) (s : State) (c : Cmd), InHand 0x05 f q s c → (f = 0 → s.mon.phase = .ready) →
    let n := c.arg 24 1
    let u := s.setQueue f n { s.queue f n with destroying := true }
    let t := (u.cancelAll f n).1
    (n = 0 ∨ 63 < n → exec (.qDestroy f q) s = cmdDone f q s Status.bounds 0 0) ∧
    (1 ≤ n → n ≤ 63 → (s.queue f n).state = .absent → exec (.qDestroy f q) s = cmdDone f q s Status.state 0 0) ∧
    (1 ≤ n → n ≤ 63 → (s.queue f n).state ≠ .absent →
    ((u.queue f n).busy = true → exec (.qDestroy f q) s = cmdWaits f q u) ∧
    ((u.queue f n).busy = false → (t.queue f n).held = [] → exec (.qDestroy f q) s = cmdDone f q (t.setQueue f n {}) 0 0 0) ∧
    ((u.queue f n).busy = false → (t.queue f n).held ≠ [] → exec (.qDestroy f q) s = cmdWaits f q t))) ∧
  (∀ (f q : Nat) (s : State) (c : Cmd), InHand 0x06 f q s c → (f = 0 → s.mon.phase = .ready) →
    (0 < f → (s.part (f - 1)).state = .stopped → c.arg 25 1 = 1) →
    let n := c.arg 24 1
    let stopped := 0 < f ∧ (s.part (f - 1)).state = .stopped
    (63 < n → exec (.qResume f q) s = cmdDone f q s Status.bounds 0 0) ∧
    (n ≤ 63 →
    ((s.queue f n).state = .running → exec (.qResume f q) s = cmdDone f q s 0 0 0) ∧
    ((s.queue f n).state = .absent → exec (.qResume f q) s = cmdDone f q s Status.state 0 0) ∧
    ((s.queue f n).state = .halted → s.ctxOpen f n = false → exec (.qResume f q) s = cmdDone f q s Status.state 0 0) ∧
    ((s.queue f n).state = .halted → s.ctxOpen f n = true → c.arg 25 1 = 0 →
      exec (.qResume f q) s = cmdDone f q (s.setQueue f n { s.queue f n with state := .running }) 0 0 0) ∧
    ((s.queue f n).state = .halted → s.ctxOpen f n = true → c.arg 25 1 ≠ 0 →
      let t := (s.cancelAll f n).1
      exec (.qResume f q) s = cmdDone f q (t.setQueue f n { t.queue f n with state := if stopped then .halted else .running }) 0 (s.cancelAll f n).2 0))) ∧
  (∀ (p i : Nat) (s : State), p < 10 →
    let qs := s.ctxQueues (p + 1) i
    let ready := (s.ctx (p + 1) i).state = .dying ∧ (s.part p).cocBusy = false ∧
      (∀ q ∈ qs, ∀ e ∈ s.launchCores (p + 1) q, e.2.halt = true) ∧
      (∀ y ∈ s.ctxScheds p i, ((s.sec y.1).sched y.2).state ≠ .running) ∧ ((s.part p).state = .draining → (s.part p).epochDone = true)
    (¬ready → exec (.deathSequenceDone (p + 1) i) s = .next s) ∧
    (ready →
      let u := qs.foldl (fun s q => (s.launchCores (p + 1) q).foldl (fun s e => s.setCore e.1 { s.core e.1 with launch := none }) s) s
      let r := u.releaseCtx (p + 1) p i
      let t := (qs.foldl (fun s q => s.setQueue (p + 1) q {}) r.1).setCtx (p + 1) i {}
      let x := s.ctx (p + 1) i
      let w := match (t.queue (p + 1) 0).cur with
        | some d => if x.closing = true ∧ d.closes i = true then
            t.finish (p + 1) 0 (if x.superseded then Status.revoked else 0) x.cancelled r.2 else t
        | none => t
      exec (.deathSequenceDone (p + 1) i) s = .next (
        if (w.fn (p + 1)).tdi = .error ∧ (w.mon.phase ≠ .fatal ∨ (w.fn (p + 1)).portReset = true) ∧
            (∀ j ∈ List.range 16, (w.ctx (p + 1) j).state = .free)
        then w.setFn (p + 1) { w.fn (p + 1) with tdi := .unlocked, portReset := false } else w)))

/-- The commands on memory, mappings, copies, images and launches (12 R345-R349; 03 R108-R112; 07 R189, R192): MEM_ALLOC answers the DVA of the
new block; MAP takes the lowest free handle of legal host memory; a copy moves its bytes, in lines that commit in order, one that the host
aborts as far as its next 64 KiB boundary and is HOST_ABORT; a COPY_OUT that reads is not checked again and reads what it was checked
against; LOAD_IMAGE fills the stores of halted cores and extends the measurement; LAUNCH starts halted cores at an entry inside their image,
of the declared measurement in a compact, and STOP stops a launch. A command whose accesses wait waits with them, and one whose access
fails has that status. A MAP on queue 0, whose mapping belongs to no context, and a STOP with no launch, which changes nothing, are the
model's choices (log entry 89). -/
def Obligations.HostMemoryRows : Prop :=
  ∀ (p q : Nat) (s : State) (c : Cmd),
    let f := p + 1
    let ctx := (s.queue f q).ctx
    (InHandVf 0x10 p q s c →
      (s.secOf p (c.arg 32 1) = none → exec (.memAlloc f q) s = cmdDone f q s Status.bounds 0 0) ∧
      (∀ n : Nat, s.secOf p (c.arg 32 1) = some n →
        exec (.memAlloc f q) s = match (s.sec n).alloc (c.arg 24 8) .priv ctx with
          | .ok (some a, x) => cmdDone f q (s.setSec n x) 0 (s.dvaOf p n a) 0
          | .ok (none, _) => cmdDone f q s 0 0 0
          | .error st => cmdDone f q s st 0 0)) ∧
    (InHandVf 0x11 p q s c →
      (c.arg 24 8 = 2 ^ 64 - 1 → exec (.memFree f q) s = cmdDone f q s Status.bounds 0 0) ∧
      (c.arg 24 8 ≠ 2 ^ 64 - 1 →
        exec (.memFree f q) s = cmdDone f q (s.freeAt p (c.arg 24 8)).1 (s.freeAt p (c.arg 24 8)).2 0 0)) ∧
    (InHandVf 0x12 p q s c → ∀ h : Nat,
      let a := c.arg 24 8
      let n := c.arg 32 8
      (n = 0 → exec (.mapCmd f q) s = cmdDone f q s 0 0 0) ∧
      (n ≠ 0 → a % 4096 ≠ 0 ∨ n % 4096 ≠ 0 ∨ 2 ^ 64 < a + n → exec (.mapCmd f q) s = cmdDone f q s Status.bounds 0 0) ∧
      (n ≠ 0 → a % 4096 = 0 → n % 4096 = 0 → a + n ≤ 2 ^ 64 →
        ((∀ j, j < 4096 → (s.fn f).map j ≠ none) → exec (.mapCmd f q) s = cmdDone f q s Status.quota 0 0) ∧
        (h < 4096 → (s.fn f).map h = none → (∀ j, j < h → (s.fn f).map j ≠ none) →
          let m : Mapping := { addr := a, len := n, rd := bit (c.arg 40 1) 0, wr := bit (c.arg 40 1) 1, ctx }
          exec (.mapCmd f q) s = cmdDone f q (s.setFn f { s.fn f with maps := sset none (s.fn f).maps h (some m) }) 0 h 0))) ∧
    (InHandVf 0x13 p q s c →
      let h := c.arg 24 2
      (∀ m : Mapping, (s.fn f).map h = some m →
        (ctx = m.ctx → exec (.unmap f q) s = cmdDone f q (s.setFn f { s.fn f with maps := sset none (s.fn f).maps h none }) 0 0 0) ∧
        (ctx ≠ m.ctx → exec (.unmap f q) s = cmdDone f q s Status.bounds 0 0)) ∧
      ((s.fn f).map h = none → exec (.unmap f q) s = cmdDone f q s Status.bounds 0 0)) ∧
    (InHandVf 0x14 p q s c →
      let n := c.arg 48 8
      let dva := c.arg 40 8
      let run := fun (l : List Byte) (bad : Option (Nat × Nat)) (st : Nat) =>
        let l := (l ++ List.replicate (n - l.length) 0).take n
        match putRuns ((copyParts dva n bad).map (fun x => (p, dva + x.1, slice l x.1 x.2))) s with
        | none => cmdWaits f q s
        | some (t, e) => cmdDone f q t (if e = 0 then st else e) 0 0
      (∀ rd, n = 0 → exec (.copyIn f q rd) s = cmdDone f q s 0 0 0) ∧
      (∀ rd st, n ≠ 0 → s.copyCheck f q p c true = .error st → exec (.copyIn f q rd) s = cmdDone f q s st 0 0) ∧
      (∀ (m : Mapping) (o : Obj) (l : List Byte), n ≠ 0 → s.copyCheck f q p c true = .ok (m, o) →
        exec (.copyIn f q (.data l)) s = run l none 0 ∧
        ∀ lo hi : Nat, exec (.copyIn f q (.abort l lo hi)) s = run l (some (lo, hi)) Status.hostAbort)) ∧
    (∀ dva n lo hi : Nat, copyParts dva n none = [(0, n)] ∧
      (let stop := min n (((dva + lo) / 65536 + 1) * 65536 - dva)
       let b := min stop (roundUp (dva + hi) 128 - dva)
       copyParts dva n (some (lo, hi)) = [(0, min (max dva ((dva + lo) / 128 * 128) - dva) stop), (b, stop - b)])) ∧
    (InHandVf 0x15 p q s c →
      let n := c.arg 48 8
      let dva := c.arg 40 8
      (∀ bad, n = 0 → exec (.copyOut f q bad) s = cmdDone f q s 0 0 0) ∧
      (∀ bad st, n ≠ 0 → c.begun = false → s.copyCheck f q p c false = .error st → exec (.copyOut f q bad) s = cmdDone f q s st 0 0) ∧
      (∀ (m : Mapping) (bad : Option Nat), n ≠ 0 → c.begun = true ∨ (∃ x, s.copyCheck f q p c false = .ok x) →
        s.mapping f q (c.arg 24 2) = some m →
        exec (.copyOut f q bad) s =
          match s.beforeScrub c.past (s.dvaSec p dva) (fun s => s.readDva (.host f q) p ((s.partSecs p).headD 0) [(dva, n)]) with
          | (t, .wait) => cmdWaits f q (t.setQueue f q { t.queue f q with cur := some { c with begun := true } })
          | (t, .done st) =>
            let l := s.dvaBytes p ((s.partSecs p).headD 0) dva n
            let a := m.addr + c.arg 32 8
            if st ≠ 0 then cmdDone f q t st 0 0
            else match bad with
              | none => cmdDone f q (t.hostPut a l) 0 0 0
              | some k => cmdDone f q (t.hostPut a (l.take k)) Status.hostAbort 0 0)) ∧
    (InHandVf 0x20 p q s c →
      let l := c.arg 40 4
      let goes := l ≠ 0 ∧ l % 8 = 0 ∧ l ≤ 65536
      (l = 0 → exec (.loadImage f q) s = cmdDone f q s 0 0 0) ∧
      (l % 8 ≠ 0 ∨ 65536 < l → exec (.loadImage f q) s = cmdDone f q s Status.bounds 0 0) ∧
      (goes → s.cmdBytes p (c.arg 24 8) l = none ∨ s.cmdBytes p (c.arg 32 8) 320 = none →
        exec (.loadImage f q) s = cmdDone f q s Status.bounds 0 0) ∧
      (∀ img bm : List Byte, goes → s.cmdBytes p (c.arg 24 8) l = some img → s.cmdBytes p (c.arg 32 8) 320 = some bm →
        ((∃ k ∈ bitmapCores bm, s.coreOf p k = false) → exec (.loadImage f q) s = cmdDone f q s Status.bounds 0 0) ∧
        ((∀ k ∈ bitmapCores bm, s.coreOf p k = true) → (∃ k ∈ bitmapCores bm, (s.core k).halt = false) →
          exec (.loadImage f q) s = cmdDone f q s Status.state 0 0) ∧
        ((∀ k ∈ bitmapCores bm, s.coreOf p k = true ∧ (s.core k).halt = true) →
          exec (.loadImage f q) s =
            match s.readDva (.host f q) p ((s.partSecs p).headD 0) [(c.arg 32 8, 320), (c.arg 24 8, l)] with
            | (t, .wait) => cmdWaits f q t
            | (t, .done st) =>
              let u := (bitmapCores bm).foldl (fun t k => t.setCore k { t.core k with istore := imageWords img, ilen := l }) t
              if st ≠ 0 then cmdDone f q t st 0 0
              else cmdDone f q (u.setPart p { u.part p with meas := sha384 (digestBytes (u.part p).meas ++
                leBytes 8 l ++ bm ++ digestBytes (sha384 img)) }) 0 0 0))) ∧
    (InHandVf 0x21 p q s c →
      let entry := c.arg 32 4
      (s.cmdBytes p (c.arg 24 8) 320 = none ∨ s.cmdBytes p (c.arg 40 8) 64 = none →
        exec (.launch f q) s = cmdDone f q s Status.bounds 0 0) ∧
      (∀ bm rg : List Byte, s.cmdBytes p (c.arg 24 8) 320 = some bm → s.cmdBytes p (c.arg 40 8) 64 = some rg →
        let fits := entry % 8 = 0 ∧ (∀ k ∈ bitmapCores bm, s.coreOf p k = true ∧ entry < (s.core k).ilen)
        let measured := ∀ m, s.entryOf p = some m → (s.part p).meas = m.digest
        let halted := ∀ k ∈ bitmapCores bm, (s.core k).halt = true
        (¬fits → exec (.launch f q) s = cmdDone f q s Status.bounds 0 0) ∧
        (fits → ¬measured → exec (.launch f q) s = cmdDone f q s Status.denied 0 0) ∧
        (fits → measured → ¬halted → exec (.launch f q) s = cmdDone f q s Status.state 0 0) ∧
        (fits → measured → halted →
          let regs := sputs 0 [] 1 ((chunks 8 8 rg).map (fun b => BitVec.ofNat 64 (leNat b)))
          exec (.launch f q) s =
            match s.readDva (.host f q) p ((s.partSecs p).headD 0) [(c.arg 24 8, 320), (c.arg 40 8, 64)] with
            | (t, .wait) => cmdWaits f q t
            | (t, .done st) =>
              if st ≠ 0 then cmdDone f q t st 0 0
              else if bitmapCores bm = [] then cmdDone f q t 0 0 0
              else cmdRuns f q (((bitmapCores bm).foldl (fun u k => u.setCore k
                ((u.core k).launched entry regs ⟨f, q, (t.part p).d12, (t.part p).census, s.coord⟩)) t).reissue p)))) ∧
    (InHandVf 0x22 p q s c →
      (63 < c.arg 24 1 → exec (.stopCmd f q) s = cmdDone f q s Status.bounds 0 0) ∧
      (c.arg 24 1 ≤ 63 → exec (.stopCmd f q) s = cmdDone f q (s.stopLaunch f (c.arg 24 1) Status.cancelled) 0 0 0))

/-- The commands on sync objects, siphon schedules, Aquifer regions and reduction groups (11 R303-R317, R484; 07 R193, R206; 10 R276, R277; 12
R345-R347, R350; 13 R369): each makes, changes or ends the object it names, under the conditions its rule gives, and has the status of the
first it breaks; a record that it reads and that waits or fails makes it wait or fail. The smallest tile that a gather segment is checked for
is the model's choice (assumption 122). -/
def Obligations.HostObjectRows : Prop :=
  ∀ (p q : Nat) (s : State) (c : Cmd),
    let f := p + 1
    let ctx := (s.queue f q).ctx
    (InHandVf 0x30 p q s c →
      let vid := c.arg 24 2
      let kind := c.arg 26 1
      let v := c.arg 32 8
      let x := s.synPart p
      let taken := vid = 0xFFFF ∨ sget 0 x.ids vid ≠ 0
      let plain : SynObj := match kind with
        | 0 => { kind := .fence, owner := p, ctx, value := v }
        | 1 => { kind := .sem, owner := p, ctx, value := v, initial := v }
        | 2 => { kind := .event, owner := p, ctx, set := v = 1 }
        | _ => { kind := .event, owner := p, ctx, set := v = 1, auto := true }
      let quota := match kind with
        | 0 => x.qFence
        | 1 => x.qSem
        | _ => x.qEvent
      (kind ≤ 3 → taken → exec (.synCreate f q) s = cmdDone f q s Status.bounds 0 0) ∧
      (kind ≤ 3 → ¬taken → quota ≤ s.synUse p plain.kind → exec (.synCreate f q) s = cmdDone f q s Status.quota 0 0) ∧
      (kind ≤ 3 → ¬taken → s.synUse p plain.kind < quota → exec (.synCreate f q) s = cmdDone f q (s.synBind p vid plain) 0 0 0) ∧
      (∀ r : List Byte, 4 ≤ kind → kind ≤ 6 →
        let n := if kind = 4 then 320 else if kind = 5 then 328 else 8
        let word := field r 0 8
        let cores := if kind = 4 then bitmapCores r else if kind = 5 then bitmapCores (r.drop 8) else []
        let bad := (kind = 5 ∧ 2 ^ 14 ≤ word) ∨ (kind = 6 ∧ (2 ^ 36 ≤ word ∨ 9 < bits word 16 4 ∨ bits word 13 3 ≠ 0))
        let empty := (kind = 4 ∧ leNat r = 0) ∨ (kind = 5 ∧ leNat (r.drop 8) = 0)
        let k : SynKind := if kind = 4 then .weir else if kind = 5 then .fweir else .remote
        let quota := if kind = 4 then x.qWeir else if kind = 5 then x.qFweir else x.qRemote
        (s.cmdBytes p (c.arg 40 8) n = none → exec (.synCreate f q) s = cmdDone f q s Status.bounds 0 0) ∧
        (s.cmdBytes p (c.arg 40 8) n = some r →
          (bad → exec (.synCreate f q) s = cmdDone f q s Status.malformed 0 0) ∧
          (¬bad → taken ∨ empty → exec (.synCreate f q) s = cmdDone f q s Status.bounds 0 0) ∧
          (¬bad → ¬taken → ¬empty → (∃ i ∈ cores, s.coreOf p i = false) → exec (.synCreate f q) s = cmdDone f q s Status.denied 0 0) ∧
          (¬bad → ¬taken → ¬empty → (∀ i ∈ cores, s.coreOf p i = true) → quota ≤ s.synUse p k →
            exec (.synCreate f q) s = cmdDone f q s Status.quota 0 0) ∧
          (¬bad → ¬taken → ¬empty → (∀ i ∈ cores, s.coreOf p i = true) → s.synUse p k < quota →
            exec (.synCreate f q) s = match s.readDva (.host f q) p ((s.partSecs p).headD 0) [(c.arg 40 8, n)] with
              | (t, .wait) => cmdWaits f q t
              | (t, .done st) =>
                if st ≠ 0 then cmdDone f q t st 0 0
                else if kind = 4 then cmdDone f q (t.synBind p vid { kind := .weir, owner := p, ctx, mask := cores }) 0 0 0
                else if kind = 6 then cmdDone f q (t.synBind p vid { kind := .remote, owner := p, ctx, dstCoord := bits word 0 13,
                                                                     dstPart := bits word 16 4, dstVid := bits word 20 16 }) 0 0 0
                else
                  let o : SynObj := { kind := .fweir, owner := p, ctx, mask := cores, number := word % 1024, fabric := true,
                                      creating := some (f, q), since := s.tim.up, box := ⟨bit word 10, bit word 11, bit word 12, bit word 13⟩ }
                  let t := t.synBind p vid o
                  let me := t.coord
                  let root := boxRoot o.box me
                  let root := if o.box.tw then mkCoord (cx root) (cy root) (cz root) 0 else root
                  let tag := t.tagOf (t.part p).cid
                  let u : State := { t with syn := { t.syn with joins := t.syn.joins.filter (fun j => !(j.tag == tag && j.number == o.number)) } }
                  if me ≠ root then cmdRuns f q (t.sendSync root 4 p o.number 0 tag)
                  else if fweirMembers o.box ≤ 1 then
                    cmdDone f q (u.setObj (t.syn.nextId - 1) (some { o with joined := [me], creating := none })) 0 0 0
                  else cmdRuns f q (u.weirJoined p (t.syn.nextId - 1) o (me :: t.earlyJoins tag o.number)))))) ∧
    (InHandVf 0x31 p q s c →
      (c.arg 24 2 = 0xFFFF → exec (.synDestroy f q) s = cmdDone f q s Status.bounds 0 0) ∧
      (c.arg 24 2 ≠ 0xFFFF → s.synFind p (c.arg 24 2) = none → exec (.synDestroy f q) s = cmdDone f q s Status.state 0 0) ∧
      (∀ (k : Nat) (o : SynObj), c.arg 24 2 ≠ 0xFFFF → s.synFind p (c.arg 24 2) = some (k, o) →
        (o.owner = p → o.life = .live → exec (.synDestroy f q) s = cmdDone f q ((s.abandon k).unbind p (c.arg 24 2)) 0 0 0) ∧
        (o.owner = p → o.life = .saved → exec (.synDestroy f q) s = cmdDone f q s Status.state 0 0) ∧
        (o.owner ≠ p ∨ o.life = .abandoned → exec (.synDestroy f q) s = cmdDone f q (s.unbind p (c.arg 24 2)) 0 0 0))) ∧
    (InHandVf 0x32 p q s c →
      let dst := c.arg 26 1
      let tv := c.arg 28 2
      let free := dst = 0x10 ∨ (tv ≠ 0xFFFF ∧ sget 0 (s.idsOf dst) tv = 0)
      let may := dst = 0x10 ∨ dst = p ∨ s.sameCompact p dst = true
      (c.arg 24 2 = 0xFFFF ∨ ¬free → exec (.synExport f q) s = cmdDone f q s Status.bounds 0 0) ∧
      (c.arg 24 2 ≠ 0xFFFF → free → ¬may → exec (.synExport f q) s = cmdDone f q s Status.denied 0 0) ∧
      (c.arg 24 2 ≠ 0xFFFF → free → may → (∀ x o, ¬Names s p (c.arg 24 2) x o) →
        exec (.synExport f q) s = cmdDone f q s Status.state 0 0) ∧
      ∀ (k : Nat) (o : SynObj), Names s p (c.arg 24 2) k o → c.arg 24 2 ≠ 0xFFFF → free →
        (dst = 0x10 → exec (.synExport f q) s = cmdDone f q (s.putObj k { o with shared := true, fabric := true }) 0 0 0) ∧
        (dst ≠ 0x10 → dst = p ∨ s.sameCompact p dst = true →
          exec (.synExport f q) s = cmdDone f q ((s.putObj k { o with shared := true }).bindId dst tv k) 0 0 0)) ∧
    (let vid := c.arg 24 2
     let rows := fun (row : Instr) (wait : Bool) =>
       (s.synFind p vid = none → exec row s = cmdDone f q s Status.bounds 0 0) ∧
       (∀ k o, s.synFind p vid = some (k, o) →
         (hostBad o.kind wait (c.arg 32 8) = true → exec row s = cmdDone f q s Status.malformed 0 0) ∧
         (hostBad o.kind wait (c.arg 32 8) = false → hostOp o.kind wait (c.arg 32 8) = none → exec row s = cmdDone f q s Status.bounds 0 0) ∧
         (∀ op, hostBad o.kind wait (c.arg 32 8) = false → hostOp o.kind wait (c.arg 32 8) = some op →
           exec row s = match s.synOp p vid op (c.arg 32 8) (.host f q) with
             | (t, .done st) => cmdDone f q t st 0 0
             | (t, .waits) => cmdRuns f q t))
     (InHandVf 0x33 p q s c → rows (.synSignal f q) false) ∧ (InHandVf 0x34 p q s c → rows (.synWait f q) true)) ∧
    (InHandVf 0x40 p q s c →
      let k := c.arg 24 1
      let cnt := c.arg 26 2
      let list := c.arg 32 8
      (s.secOf p (c.arg 25 1) = none → exec (.sipStart f q) s = cmdDone f q s Status.bounds 0 0) ∧
      (∀ n, s.secOf p (c.arg 25 1) = some n →
        let x := (s.sec n).sched k
        let inside := s.hostRange p list (64 * cnt) ≠ .none ∧ s.coreRange p n list (64 * cnt) = true
        (schedCount ≤ k ∨ cnt = 0xFFFF → exec (.sipStart f q) s = cmdDone f q s Status.bounds 0 0) ∧
        (k < schedCount → cnt = 0 → exec (.sipStart f q) s = cmdDone f q s 0 0 0) ∧
        (k < schedCount → cnt ≠ 0 → cnt ≠ 0xFFFF → ¬inside → exec (.sipStart f q) s = cmdDone f q s Status.bounds 0 0) ∧
        (k < schedCount → cnt ≠ 0 → cnt ≠ 0xFFFF → inside →
          (x.state ≠ .idle → x.state ≠ .done → exec (.sipStart f q) s = cmdDone f q s Status.state 0 0) ∧
          (x.state = .idle ∨ x.state = .done → exec (.sipStart f q) s = cmdDone f q (s.setSched n k { x with
            state := .running, index := 0, fstat := 0, count := cnt, list, ctx, stopAsked := false, cur := none, moved := 0 }) 0 0 0)))) ∧
    (InHandVf 0x41 p q s c →
      (s.secOf p (c.arg 25 1) = none ∨ schedCount ≤ c.arg 24 1 → exec (.sipStop f q) s = cmdDone f q s Status.bounds 0 0) ∧
      (∀ n, s.secOf p (c.arg 25 1) = some n → c.arg 24 1 < schedCount →
        exec (.sipStop f q) s = cmdDone f q (s.stopSched n (c.arg 24 1)) 0 0 0)) ∧
    (let i := c.arg 24 1
     let r := s.region p i
     let put := fun (y : Region) => s.setPart p { s.part p with regions := sset {} (s.part p).regions i y }
     (maxRegions ≤ i →
      (InHandVf 0x48 p q s c → exec (.aqCreate f q) s = cmdDone f q s Status.bounds 0 0) ∧
      (InHandVf 0x49 p q s c → ∀ rd, exec (.aqWrite f q rd) s = cmdDone f q s Status.bounds 0 0) ∧
      (InHandVf 0x4A p q s c → exec (.aqSeal f q) s = cmdDone f q s Status.bounds 0 0) ∧
      (InHandVf 0x4B p q s c → exec (.aqRelease f q) s = cmdDone f q s Status.bounds 0 0)) ∧
     (i < maxRegions →
      (InHandVf 0x48 p q s c →
        let w := c.arg 25 1
        let base := c.arg 32 8
        let size := c.arg 40 8
        let fits := base % 2 ^ 21 = 0 ∧ size % 65536 = 0 ∧ aqBase ≤ base ∧ base + size ≤ aqEnd ∧ s.regionClash p i base size = false
        (size = 0 → exec (.aqCreate f q) s = cmdDone f q s 0 0 0) ∧
        (size ≠ 0 → ¬fits → exec (.aqCreate f q) s = cmdDone f q s Status.bounds 0 0) ∧
        (size ≠ 0 → fits → r.state ≠ .none → exec (.aqCreate f q) s = cmdDone f q s Status.state 0 0) ∧
        (size ≠ 0 → fits → r.state = .none → s.aqPlace (locatorLines size) = none →
          exec (.aqCreate f q) s = cmdDone f q s Status.directory 0 0) ∧
        (∀ tbl : Nat, size ≠ 0 → fits → r.state = .none → s.aqPlace (locatorLines size) = some tbl →
          exec (.aqCreate f q) s = cmdDone f q { put { state := .loading, base, size, width := w, ctx, tbl, pages := [] } with
            aqf := { s.aqf with
              linesUsed := s.aqf.linesUsed + locatorLines size
              exp := s.aqf.exp.filter (fun e => !decide (tbl ≤ e.1 ∧ e.1 < tbl + locatorLines size)) } } 0 0 0)) ∧
      (InHandVf 0x49 p q s c →
        let page := c.arg 28 4
        (∀ rd, s.mapping f q (c.arg 26 2) = none → exec (.aqWrite f q rd) s = cmdDone f q s Status.bounds 0 0) ∧
        (∀ (m : Mapping) (rd : HostRead), s.mapping f q (c.arg 26 2) = some m →
          (m.len < c.arg 32 8 + 65536 → exec (.aqWrite f q rd) s = cmdDone f q s Status.bounds 0 0) ∧
          (c.arg 32 8 + 65536 ≤ m.len → m.rd = false → exec (.aqWrite f q rd) s = cmdDone f q s Status.denied 0 0) ∧
          (c.arg 32 8 + 65536 ≤ m.len → m.rd = true → r.state ≠ .loading → exec (.aqWrite f q rd) s = cmdDone f q s Status.state 0 0) ∧
          (c.arg 32 8 + 65536 ≤ m.len → m.rd = true → r.state = .loading → r.size ≤ page * 65536 →
            exec (.aqWrite f q rd) s = cmdDone f q s Status.bounds 0 0) ∧
          (c.arg 32 8 + 65536 ≤ m.len → m.rd = true → r.state = .loading → page * 65536 < r.size →
            (keyGet page r.pages ≠ none → exec (.aqWrite f q rd) s = cmdDone f q s Status.state 0 0) ∧
            (keyGet page r.pages = none → 2 ^ 32 - 1 ≤ s.aqf.gen p (r.base + page * 65536) →
              exec (.aqWrite f q rd) s = cmdDone f q s Status.generation 0 0) ∧
            (keyGet page r.pages = none → s.aqf.gen p (r.base + page * 65536) < 2 ^ 32 - 1 →
              (∀ l lo hi, exec (.aqWrite f q (.abort l lo hi)) s = cmdDone f q s Status.hostAbort 0 0) ∧
              (∀ l : List Byte, exec (.aqWrite f q (.data l)) s =
                match s.putPage p i page ((l ++ List.replicate (65536 - l.length) 0).take 65536) with
                | some t => cmdDone f q t 0 0 0
                | none => cmdDone f q s Status.quota 0 0))))) ∧
      (InHandVf 0x4A p q s c →
        (r.state = .loading → r.size / 65536 ≤ r.pages.length →
          exec (.aqSeal f q) s = cmdDone f q (put { r with state := .sealed }) 0 0 0) ∧
        (r.state ≠ .loading ∨ r.pages.length < r.size / 65536 → exec (.aqSeal f q) s = cmdDone f q s Status.state 0 0)) ∧
      (InHandVf 0x4B p q s c →
        (r.state = .none → exec (.aqRelease f q) s = cmdDone f q s Status.state 0 0) ∧
        (r.state = .loading → exec (.aqRelease f q) s = cmdDone f q (s.dropRegion p i) 0 0 0) ∧
        (r.state = .sealed → s.regionInUse p = false → exec (.aqRelease f q) s = cmdDone f q (s.dropRegion p i) 0 0 0) ∧
        (r.state = .sealed → s.regionInUse p = true → exec (.aqRelease f q) s = cmdDone f q s Status.state 0 0)))) ∧
    (InHandVf 0x50 p q s c →
      let dva := c.arg 24 8
      let n := c.arg 32 4
      (s.cmdBytes p dva n = none → exec (.rgCreate f q) s = cmdDone f q s Status.bounds 0 0) ∧
      ∀ r : List Byte, s.cmdBytes p dva n = some r →
      let nmap := field r 24 4
      let nseg := field r 28 1
      let srcs := parseSrcs nmap (slice r 64 (16 * nmap))
      let segs := parseSegs nseg (r.drop (64 + 16 * nmap))
      let fl := field r 2 1
      let own := field r 10 1
      let gp := field r 11 1
      let g : RGroup := {
        state := .joining, gid := field r 0 2, xr := bit fl 0, yr := bit fl 1, zr := bit fl 2, tw := bit fl 3, sign1 := field r 3 1 = 1
        s := field r 4 4, srcs, owner := if own = 0xFF then none else some own, resDva := field r 16 8, resFence := field r 12 2, gather := segs
        gPart := gp, gFence := field r 14 2, tenancy := field r 8 2, part := p, ctx, cmd := some (f, q), since := s.tim.up }
      let sized := n = 64 + 16 * (nmap + nseg)
      let formed := (∀ b ∈ slice r 29 35, b = 0) ∧ fl < 16 ∧ field r 3 1 ≤ 1 ∧
        (∀ b ∈ chunks 16 nmap (slice r 64 (16 * nmap)), field b 13 3 = 0)
      let fits := g.gid ≤ 9361 ∧ g.s ≠ 0 ∧ g.s ≤ 2 ^ 20 ∧ nseg ≠ 0 ∧ nseg ≤ 16 ∧ mapOk g.tiles srcs = true ∧
        (∀ m ∈ srcs, s.coreOf m.part m.core = true) ∧ (∀ x ∈ segs, s.hostRange gp x.dva (max 1 (x.count * leastTile)) ≠ .none) ∧
        (own ≠ 0xFF → g.resDva % 4096 = 0 ∧ s.hostRange own g.resDva ((g.s + 1) * 4096) ≠ .none)
      let mine := g.tenancy = (s.part p).cid ∧ (∀ m ∈ srcs, s.inTenancy g.tenancy m.part = true) ∧
        (own ≠ 0xFF → s.inTenancy g.tenancy own = true) ∧ s.inTenancy g.tenancy gp = true ∧ s.compactGroupBad own gp g.resDva segs = false
      (¬sized → exec (.rgCreate f q) s = cmdDone f q s Status.bounds 0 0) ∧
      (sized → ¬formed → exec (.rgCreate f q) s = cmdDone f q s Status.malformed 0 0) ∧
      (sized → formed → ¬fits → exec (.rgCreate f q) s = cmdDone f q s Status.bounds 0 0) ∧
      (sized → formed → fits → ¬mine → exec (.rgCreate f q) s = cmdDone f q s Status.denied 0 0) ∧
      (sized → formed → fits → mine → s.findRg g.gid ≠ none → exec (.rgCreate f q) s = cmdDone f q s Status.state 0 0) ∧
      (sized → formed → fits → mine → s.findRg g.gid = none → s.rgRoom p = false → exec (.rgCreate f q) s = cmdDone f q s Status.quota 0 0) ∧
      (∀ e, sized → formed → fits → mine → s.findRg g.gid = none → s.rgRoom p = true →
        (List.range 64).find? (fun e => (s.rg e).state = .none) = some e →
        exec (.rgCreate f q) s = match s.readDva (.host f q) p ((s.partSecs p).headD 0) [(dva, n)] with
          | (t, .wait) => cmdWaits f q t
          | (t, .done st) =>
            let o := t.rg e
            if st ≠ 0 then cmdDone f q t st 0 0
            else cmdRuns f q (t.setRg e { g with
              commits := o.commits, short := o.short, fulldrop := o.fulldrop, discard := o.discard, stallL := o.stallL, stallP := o.stallP }))) ∧
    (InHandVf 0x51 p q s c →
      (9361 < c.arg 24 2 → exec (.rgClose f q) s = cmdDone f q s Status.bounds 0 0) ∧
      (c.arg 24 2 ≤ 9361 → s.findRg (c.arg 24 2) = none → exec (.rgClose f q) s = cmdDone f q s Status.state 0 0) ∧
      ∀ e : Nat, s.findRg (c.arg 24 2) = some e → c.arg 24 2 ≤ 9361 →
      ((s.rg e).part = p → (s.rg e).state = .active → exec (.rgClose f q) s = cmdDone f q (s.setRg e { s.rg e with state := .closing }) 0 0 0) ∧
      ((s.rg e).part = p → (s.rg e).state = .closing → exec (.rgClose f q) s = cmdDone f q s Status.state 0 0) ∧
      ((s.rg e).part = p → (s.rg e).state = .joining →
        exec (.rgClose f q) s = cmdDone f q ((s.rgCreated (s.rg e) Status.cancelled).clearRg e) 0 0 0) ∧
      ((s.rg e).part ≠ p → exec (.rgClose f q) s = cmdDone f q s Status.denied 0 0))

/-- Partitions (13 R355-R374; 08 R234; 14 R378, R395): PART_CREATE that passes its checks makes the partition Active with its sections,
identifier and fresh allocators and answers its epoch, and has the status of the first check it fails; PART_DRAIN begins the drain; the scrub
runs once the epoch has advanced, the contexts are Free, the cores halted and the sluices empty, and its end frees the sections; PART_PREEMPT
saves the on-die image and PART_RESUME puts it back; PART_MODE
sets the modes it names; PART_STATUS answers IDN_PART. Each in another state completes with STATE and changes nothing. At each switch the
ledgers are audited (02 R62): where all agree nothing changes, and one that does not leaves a Device-fatal INTEGRITY record (which sums
the model compares is log entry 37). -/
def Obligations.PartitionRows : Prop :=
  (∀ (p q : Nat) (s : State) (c : Cmd), InHandPf 0x70 p q s c →
    let m := c.arg 34 1
    let r : PartReq := {
      mask := c.arg 26 2, pooled := bit (c.arg 28 1) 0, d12 := bit (c.arg 28 1) 1, census := bit (c.arg 28 1) 2, rg := c.arg 29 1
      cc := c.arg 30 2, cid := c.arg 32 2, member := if m = 0xFF then none else some m }
    let may := s.chr.drainsForDebug = false ∧ s.chr.drainsForEnd = false ∧ s.mon.compute = true ∧ s.pwr.sleep = .running
    (s.chr.lcs = .blank ∨ s.chr.lcs = .endOfLife → exec (.partCreate 0 q) s = cmdDone 0 q s Status.denied 0 0) ∧
    (s.chr.lcs ≠ .blank → s.chr.lcs ≠ .endOfLife → ¬may → exec (.partCreate 0 q) s = cmdDone 0 q s Status.state 0 0) ∧
    (s.chr.lcs ≠ .blank → s.chr.lcs ≠ .endOfLife → may →
      (∀ st : Nat, s.createCheck p r = some st → exec (.partCreate 0 q) s = cmdDone 0 q s st 0 0) ∧
      (s.createCheck p r = none → exec (.partCreate 0 q) s = match s.memberSecs r with
        | .error _ => cmdDone 0 q s Status.quota 0 0
        | .ok cs =>
          let t := (s.makePart p r cs).switchAudit
          cmdDone 0 q t 0 (t.epoch r.cid) 0))) ∧
  (∀ (p q : Nat) (s : State) (c : Cmd),
    let x := s.part p
    let fails := cmdDone 0 q s Status.state 0 0
    (InHandPf 0x71 p q s c →
      (x.state ≠ .free → x.state ≠ .draining → exec (.partDrain 0 q) s = cmdRuns 0 q (s.drainStart p (some q))) ∧
      (x.state = .free ∨ x.state = .draining → exec (.partDrain 0 q) s = fails)) ∧
    (InHandPf 0x72 p q s c →
      (x.state = .active → x.cocBusy = false → s.inGroup p = false →
        let t := ({ s with free := s.free + 1 }.switchAudit).freeze p
        ∃ us, us ≤ 1200 ∧ exec (.partPreempt 0 q) s = cmdDone 0 q (t.setPart p { t.part p with state := .preempted }) 0 us 0) ∧
      (x.state ≠ .active ∨ x.cocBusy = true ∨ s.inGroup p = true → exec (.partPreempt 0 q) s = fails)) ∧
    (InHandPf 0x73 p q s c →
      (x.state = .preempted → s.pwr.sleep = .running →
        let t := s.thaw p
        exec (.partResume 0 q) s = cmdDone 0 q (t.setPart p { t.part p with state := .active }).switchAudit 0 0 0) ∧
      (x.state ≠ .preempted ∨ s.pwr.sleep ≠ .running → exec (.partResume 0 q) s = fails)) ∧
    (InHandPf 0x74 p q s c →
      let v := c.arg 25 1
      let ch := c.arg 26 1
      (x.state = .active → (bit ch 0 = true → s.queuesIdle (p + 1) = true) → exec (.partMode 0 q) s = cmdDone 0 q (s.setPart p { x with
        d12 := if bit ch 0 then bit v 0 else x.d12, census := if bit ch 1 then bit v 1 else x.census }) 0 0 0) ∧
      (x.state ≠ .active ∨ (bit ch 0 = true ∧ s.queuesIdle (p + 1) = false) → exec (.partMode 0 q) s = fails)) ∧
    (InHandPf 0x75 p q s c → exec (.partStatus 0 q) s = cmdDone 0 q s 0 (s.idnPart p) 0)) ∧
  (∀ (p : Nat) (s : State), p < 10 →
    let x := s.part p
    let scrubs := x.state = .draining ∧ x.epochDone = true ∧ x.scrubbed = 0 ∧ s.ctxsFree (p + 1) = true ∧
      (∀ e ∈ s.partCores p, e.2.halt = true) ∧
      (∀ n ∈ s.partSecs p, ∀ k, k < 2 → (s.slu (2 * n + k)).tags = [] ∧ (s.slu (2 * n + k)).jobs = [] ∧ (s.slu (2 * n + k)).rekeys = [])
    (scrubs →
      let t := s.dropKeys ([ikSlot p, ikSlot p + 1] ++ (List.range 19).map (tenantSlot p))
      let t := (s.partCores p).foldl (fun u e => u.setCore e.1 e.2.counters) t
      let t := { t with canal := t.canal.filter (fun m => m.key.1 ≠ p) }.dropRings p
      let t := ((t.synPart p).ids.map Prod.snd).foldl State.reap (t.setSynPart p (t.synPart p).quotas)
      let t := (s.partSecs p).foldl State.scrubSection t
      let gone (k : Nat) : Bool := k / aqPages == p && x.genScrub.any (fun r =>
        decide (r.1 ≤ aqBase + k % aqPages * 65536 ∧ aqBase + k % aqPages * 65536 < r.1 + r.2))
      let t := { t with aqf := { t.aqf with gens := t.aqf.gens.filter (fun e => !gone e.1) } }
      exec (.drainScrub p) s = .next (t.setPart p { x with
        regions := [], genScrub := [], scrubbed := scrubUnits * (s.partSecs p).length + 1 })) ∧
    (¬scrubs → exec (.drainScrub p) s = .next s) ∧
    (x.state = .draining → x.scrubbed ≠ 0 →
      let t := ((s.partSecs p).foldl State.freeSection s.switchAudit).setPart p { images := x.images, mirror := x.mirror }
      exec (.drainComplete p) s = .next (match x.drainCmd with
        | some q => (t.finish 0 q 0 (x.scrubbed - 1)).afterDrains
        | none => t.afterDrains)) ∧
    (x.state ≠ .draining ∨ x.scrubbed = 0 → exec (.drainComplete p) s = .next s)) ∧
  (∀ s : State, (∀ p < 10, s.runnelsOk p = true) →
    (∀ n < 10, (s.sec n).allocOk = true ∧ (s.sec n).catchOk = true ∧ s.sluicesOk n = true) → s.aqf.tagsOk = true → s.poolsOk = true →
    s.redStoreOk = true → s.synOk = true → s.switchAudit = s) ∧
  (∀ (s : State) (blk inst : Nat), s.audit false blk inst =
    s.report (Rec.mk' 5 3 blk inst))

/-- A partition that is stopped and goes on is as it was (13 R360; 11 R319): the cores, the canal messages, the receive rings and the schedules
of its sections are put back, each schedule at the start of the window it had begun (07 R207), and its identifiers name the objects they
named; the hosts, the Reservoir, the security processor, the links and the rest of the headworks are as they were. -/
def Obligations.FreezeAndThawRestore : Prop :=
  ∀ (p : Nat) (s : State), p < 10 → s.frozen p = false → swf {} s.cores = true → swf {} s.secs = true → swf {} s.parts = true →
    swf {} s.syn.parts = true → swf (0, noPacket) s.hwk.rings = true → (∀ e ∈ s.syn.objs, ∀ o, e.2 = some o → o.owner = p → o.life = .live) →
    (∀ e ∈ s.syn.objs, ∀ o, e.2 = some o → ∀ w ∈ o.waiters, w.parked = false) →
    let t := (s.freeze p).thaw p
    (∀ c : Nat, t.core c = s.core c) ∧ (∀ n : Nat, n ∉ s.partSecs p → t.sec n = s.sec n) ∧
    (∀ n ∈ s.partSecs p, t.sec n = { s.sec n with scheds := smap {} (fun _ (x : Sched) =>
      if x.state = .running then { x with cur := none, moved := 0, past := [], asked := false } else x) (s.sec n).scheds }) ∧
    t.syn.objs = s.syn.objs ∧ (t.synPart p).ids = (s.synPart p).ids ∧
    t.canal = s.canal.filter (fun m => m.key.1 ≠ p) ++ s.canal.filter (fun m => m.key.1 = p) ∧ t.frozen p = false ∧
    (∀ k, sget (0, noPacket) t.hwk.rings k = sget (0, noPacket) s.hwk.rings k) ∧ t.hwk = { s.hwk with rings := t.hwk.rings } ∧
    t.hostMem = s.hostMem ∧ t.resv = s.resv ∧ t.chr = s.chr ∧ t.links = s.links

/-- Cocoons (15 R401-R406; 14 R389): COC_PREPARE that passes its checks answers the predicted stop and a ticket; COC_TAKE of that ticket
within its second stops the partition, a full one with a fresh CK in a free slot of its own; the stop of a schedule cocoon ends with its
header block and image in the named objects, and that of a full one with its header, shares and tensor blocks in host memory; the schedule
part and trailer complete a full one; a ticket expires after 1 s; COC_RESTORE installs an image that passes its checks, and ends. While a
cocoon or a restore goes on each of the three commands has STATE, also where the partition's units are stopped. -/
def Obligations.CocoonRows : Prop :=
  (∀ (p q : Nat) (s : State) (c : Cmd), InHand 0x60 (p + 1) q s c → (s.part p).state ≠ .stopped → s.stopped p = true →
    (s.part p).cocBusy = false → exec (.cocPrepare (p + 1) q) s = .next s) ∧
  (∀ (p q : Nat) (s : State) (c : Cmd), InHand 0x60 (p + 1) q s c → (s.part p).state ≠ .stopped →
    (s.stopped p = true → (s.part p).cocBusy = true) →
    let x := s.part p
    let n := c.arg 28 4
    let list := c.arg 32 8
    let place := c.arg 40 8
    let full := c.arg 24 1 = 1
    let words := if n = 0 then some [] else s.cmdBytes p list (16 * n)
    let table := if full then some [] else s.objTable p place
    (words = none ∨ table = none → exec (.cocPrepare (p + 1) q) s = cmdDone (p + 1) q s Status.bounds 0 0) ∧
    (∀ (l : List Byte) (objs : List Nat), words = some l → table = some objs →
      let ranges := parseRanges n l
      let tb := (ranges.map Prod.snd).sum
      let r : CocReq :=
        { full, wrap := c.arg 25 1, handle := c.arg 26 2, ranges, place, tbytes := tb, fn := p + 1, q, objs }
      let tk := (x.ticket + 1) % 65536
      let pred := s.stopPred full (s.partSecs p).length tb
      (∀ st, s.cocCheck p (s.mapping (p + 1) q r.handle) r = some st →
        exec (.cocPrepare (p + 1) q) s = cmdDone (p + 1) q s st 0 0) ∧
      (s.cocCheck p (s.mapping (p + 1) q r.handle) r = none → x.cocBusy = true →
        exec (.cocPrepare (p + 1) q) s = cmdDone (p + 1) q s Status.state 0 0) ∧
      (s.cocCheck p (s.mapping (p + 1) q r.handle) r = none → x.cocBusy = false →
        exec (.cocPrepare (p + 1) q) s = match s.readDva (.host (p + 1) q) p ((s.partSecs p).headD 0) (s.cocReads p list n full place) with
          | (t, .wait) => cmdWaits (p + 1) q t
          | (t, .done st) =>
            if st ≠ 0 then cmdDone (p + 1) q t st 0 0
            else cmdDone (p + 1) q (t.setPart p { t.part p with
                coc := .prepared, cocReq := some r, ticket := tk, ticketAt := s.tim.up, cocPred := pred })
              0 pred (tk + 65536 * (imageLen full (s.partSecs p).length tb / 4096))))) ∧
  (∀ (p q : Nat) (s : State) (c : Cmd), InHand 0x61 (p + 1) q s c → (s.part p).state ≠ .stopped →
    (s.stopped p = true → (s.part p).cocBusy = true) →
    let x := s.part p
    ((s.part p).cocReq = none → exec (.cocTake (p + 1) q) s = cmdDone (p + 1) q s Status.state 0 0) ∧
    (∀ r0 : CocReq, (s.part p).cocReq = some r0 →
      let ok := x.coc = .prepared ∧ c.arg 24 2 = x.ticket ∧ s.tim.up < x.ticketAt + 1000000000
      let r : CocReq := if r0.full then r0 else { r0 with objs := (s.objTable p r0.place).getD [] }
      let check := s.cocCheck p (s.mapping r.fn r.q r.handle) r
      let stopped := fun (t : State) (slot : Option Nat) =>
        (t.freeze p).setPart p { (t.freeze p).part p with coc := .stopped, cocReq := some r, cocCmd := some (p + 1, q), ckSlot := slot }
      (¬ok → exec (.cocTake (p + 1) q) s = cmdDone (p + 1) q s Status.state 0 0) ∧
      (∀ st, ok → check = some st → exec (.cocTake (p + 1) q) s = cmdDone (p + 1) q s st 0 0) ∧
      (ok → check = none → r.full = true → s.chr.trngFailed = true →
        exec (.cocTake (p + 1) q) s = cmdDone (p + 1) q s Status.trngFail 0 0) ∧
      (ok → check = none → r.full = false →
        exec (.cocTake (p + 1) q) s =
          match s.readDva (.host (p + 1) q) p ((s.partSecs p).headD 0) [(r.place, 8 * (s.partSecs p).length)] with
          | (t, .wait) => cmdWaits (p + 1) q t
          | (t, .done st) => if st ≠ 0 then cmdDone (p + 1) q t st 0 0 else cmdRuns (p + 1) q (stopped t none)) ∧
      (ok → check = none → r.full = true → s.chr.trngFailed = false →
        ((∀ i, i < tenantSlots → (s.vslot (tenantSlot p i)).valid = true) →
          exec (.cocTake (p + 1) q) s = cmdDone (p + 1) q s Status.quota 0 0) ∧
        (∀ i, i < tenantSlots → (s.vslot (tenantSlot p i)).valid = false →
          (∀ j, j < i → (s.vslot (tenantSlot p j)).valid = true) → ∃ key mask : BitVec 256, ∃ t : State,
          (t.vslot (tenantSlot p i)).valid = true ∧ (t.vslot (tenantSlot p i)).shareA = mask ∧
          (t.vslot (tenantSlot p i)).shareB = key ^^^ mask ∧ (t.vslot (tenantSlot p i)).usage = Usage.xts ∧
          (t.vslot (tenantSlot p i)).owner = p ∧ (t.vslot (tenantSlot p i)).exportable = true ∧
          t = { s.setVslot (tenantSlot p i) (t.vslot (tenantSlot p i)) with free := s.free + 2 } ∧
          exec (.cocTake (p + 1) q) s = cmdRuns (p + 1) q (stopped t (some (tenantSlot p i))))))) ∧
  (∀ (p : Nat) (s : State) (r : CocReq) (img : Saved), p < 10 → (s.part p).cocReq = some r → (s.part p).saved = some img →
    (s.part p).coc = .stopped → s.join.held.contains p = false →
    let x := s.part p
    let k := (s.partSecs p).length
    let kept := fun (t : State) => t.setPart p { t.part p with images := (t.part p).images ++ [(x.images.length, img)] }
    (r.full = false → match putRuns (schedRuns p r.objs (s.cocHeader p r 0) img) s with
      | none => exec (.cocStopEnd p) s = .next s
      | some (t, st) =>
        (st ≠ 0 → exec (.cocStopEnd p) s = .next (t.cocEnd p st)) ∧
        (st = 0 → ∃ v, v ≤ x.cocPred ∧ exec (.cocStopEnd p) s =
          .next ((kept { t with free := t.free + 1 }).cocEnd p 0 v (4096 + k * (224 * 2 ^ 20))))) ∧
    (r.full = true → s.mapping r.fn r.q r.handle = none → exec (.cocStopEnd p) s = .next (s.cocEnd p Status.bounds)) ∧
    (∀ m : Mapping, r.full = true → s.mapping r.fn r.q r.handle = some m →
      match s.readDva (.host r.fn r.q) p ((s.partSecs p).headD 0) r.ranges with
      | (t, .wait) => exec (.cocStopEnd p) s = .next t
      | (t, .done st) =>
        (st ≠ 0 → exec (.cocStopEnd p) s = .next (t.cocEnd p st)) ∧
        (∀ st', st = 0 → t.wrapFails p r = some st' → exec (.cocStopEnd p) s = .next (t.cocEnd p st')) ∧
        (st = 0 → t.wrapFails p r = none →
          let ck := s.vaultKey (x.ckSlot.getD 0)
          let base := m.addr + r.place
          let shares := (t.wrapCk p r ck).1
          let u := (t.wrapCk p r ck).2.2
          let head := u.cocHeader p r (t.wrapCk p r ck).2.1 ++ shares
          let tensor := (r.ranges.map (fun y => s.dvaBytes p ((s.partSecs p).headD 0) y.1 y.2)).flatten
          let u := u.hostPut base (head ++ List.replicate (4096 - head.length) 0)
          let u := u.putBlocks ck base (1 + k * 57344) (chunks 4096 (r.tbytes / 4096) tensor)
          let u := (kept u).thaw p
          exec (.cocStopEnd p) s = .next (u.setPart p { u.part p with coc := .emptying })))) ∧
  (∀ (p : Nat) (s : State) (r : CocReq) (n : Nat) (img : Saved), p < 10 → (s.part p).cocReq = some r →
    (s.part p).images.getLast? = some (n, img) → (s.part p).coc = .emptying →
    let x := s.part p
    (s.mapping r.fn r.q r.handle = none → exec (.cocImageComplete p) s = .next (s.cocEnd p Status.bounds)) ∧
    (∀ m : Mapping, s.mapping r.fn r.q r.handle = some m →
      ((∀ i, x.ckSlot = some i → s.slotServes i Usage.xts p x.cid = false) →
        exec (.cocImageComplete p) s = .next (s.cocEnd p Status.denied)) ∧
      (∀ i, x.ckSlot = some i → s.slotServes i Usage.xts p x.cid = true →
        let k := (s.partSecs p).length
        let base := m.addr + r.place
        let len := imageLen true k r.tbytes
        let ck := s.vaultKey i
        let t := s.putBlocks ck base 1 (chunks 4096 (k * 57344) (schedImage img k))
        let key := kdf (beBytes 32 ck.toNat) (ascii "D20 COC MAC") ((t.hostGet base (len - 4096)).take 256) 384
        let mac := digestBytes (hmac384 key (t.hostGet base (len - 4096)))
        ∃ v, v ≤ x.cocPred ∧ exec (.cocImageComplete p) s =
          .next (({ t.hostPut (base + len - 4096) (mac ++ List.replicate 4048 0) with free := t.free + 1 }).cocEnd p 0 v len)))) ∧
  (∀ (p : Nat) (s : State), p < 10 → (s.part p).coc = .prepared →
    ((s.part p).ticketAt + 1000000000 ≤ s.tim.up →
      exec (.cocTicketExpiry p) s = .next (s.setPart p { s.part p with coc := .idle, cocReq := none })) ∧
    (s.tim.up < (s.part p).ticketAt + 1000000000 → exec (.cocTicketExpiry p) s = .next s)) ∧
  (∀ (p : Nat) (s : State), p < 10 →
    ((s.part p).coc ≠ .prepared → exec (.cocTicketExpiry p) s = .next s) ∧
    ((s.part p).coc ≠ .stopped → exec (.cocStopEnd p) s = .next s) ∧
    ((s.part p).coc ≠ .emptying → exec (.cocImageComplete p) s = .next s) ∧
    ((s.part p).coc ≠ .restoring → exec (.cocRestoreComplete p) s = .next s)) ∧
  (∀ (p q : Nat) (img : CocRead) (s : State) (c : Cmd), InHand 0x62 (p + 1) q s c → (s.part p).state ≠ .stopped →
    (s.stopped p = true → (s.part p).cocBusy = true) →
    let full := c.arg 24 1 = 1
    let nsh := c.arg 25 1
    let place := c.arg 32 8
    let k := (s.partSecs p).length
    let shareBytes := if full then s.cmdBytes p (c.arg 40 8) (144 * nsh) else some []
    let table := if full then some [] else s.objTable p place
    let tb := (img.ranges.map Prod.snd).sum
    let space : Option Nat :=
      if full then match s.mapping (p + 1) q (c.arg 26 2) with
        | none => some Status.bounds
        | some m => if m.len < place + imageLen true k tb then some Status.bounds else if !m.rd then some Status.denied else none
      else if s.objsOk p (table.getD []) then none else some Status.bounds
    (shareBytes = none ∨ table = none → exec (.cocRestore (p + 1) q img) s = cmdDone (p + 1) q s Status.bounds 0 0) ∧
    (∀ (sb : List Byte) (objs : List Nat), shareBytes = some sb → table = some objs →
      (∀ st, space = some st → exec (.cocRestore (p + 1) q img) s = cmdDone (p + 1) q s st 0 0) ∧
      (space = none → (s.part p).cocBusy = true → exec (.cocRestore (p + 1) q img) s = cmdDone (p + 1) q s Status.state 0 0) ∧
      (space = none → (s.part p).cocBusy = false →
        exec (.cocRestore (p + 1) q img) s =
          match s.readDva (.host (p + 1) q) p ((s.partSecs p).headD 0)
            (if full then [(c.arg 40 8, 144 * nsh)] else (place, 8 * k) :: objs.map (fun a => (a, 224 * 2 ^ 20))) with
          | (t, .wait) => cmdWaits (p + 1) q t
          | (t, .done st) =>
            if st ≠ 0 then cmdDone (p + 1) q t st 0 0
            else match t.restoreCheck p (p + 1) q full img (t.objBytes p objs) (chunks 144 nsh sb) with
            | some st => cmdDone (p + 1) q t st 0 0
            | none =>
              let ck := t.restoreCk p (chunks 144 nsh sb)
              let y := img.sched.byBase
              let ctx := (t.queue (p + 1) q).ctx
              let u := if full then ((t.partSecs p).zip y.allocs).foldl (fun u e => u.setSec e.1 ((u.sec e.1).putBlocks
                  (e.2.2.1.map (fun b => if b.role = .priv then { b with ctx } else b)) e.2.2.2)) t else t
              match putRuns (if full then tensorRuns p img.ranges (openBlocks ck (1 + schedBlocks k) img.tensor) else []) u with
              | none => cmdWaits (p + 1) q s
              | some (u, st) =>
                if st ≠ 0 then cmdDone (p + 1) q u st 0 0
                else cmdRuns (p + 1) q ((u.install p y ctx full).setPart p
                  { (u.install p y ctx full).part p with coc := .restoring, cocReq := none, cocCmd := some (p + 1, q) })))) ∧
  (∀ (p : Nat) (s : State), p < 10 → (s.part p).coc = .restoring →
    exec (.cocRestoreComplete p) s = .next (s.cocEnd p 0 (((s.part p).ledger.getLast?.map (·.step)).getD 0xFFFFFFFF)))

/-- The step ledger and the join of a spare (15 R407-R418): STEP_MARK of the step after the last, with a known result, appends its entry
and sends it to the twin, one that differs from an expected or mirrored entry has INTEGRITY, and the spare joins with its last match;
LEDGER_READ writes the entries asked for; TWIN_POLICY notes consent; a mirrored entry is kept among 16; the spare's partitions are created,
and with the twin's sealed regions there and the hold begun it is Receiving; it waits 60 s for them; the transfer ends the hold and leads to
Replaying with what it brought, or to Failed. -/
def Obligations.LedgerAndTwinRows : Prop :=
  (∀ (p q : Nat) (s : State) (c : Cmd), InHandVf 0x63 p q s c →
    let gid := c.arg 24 2
    let dva := c.arg 32 8
    let n := c.arg 28 4
    let step := c.arg 40 4
    let x := s.part p
    let replay := s.join.phase = .replaying ∧ step = s.join.replayStep
    let twin := x.mirror.find? (fun y => y.step = step)
    let follows := ∀ y, x.ledger.getLast? = some y → step = y.step + 1
    (s.cmdBytes p dva n = none → exec (.stepMark (p + 1) q) s = cmdDone (p + 1) q s Status.bounds 0 0) ∧
    (s.cmdBytes p dva n ≠ none → s.stepResult x.cid gid step = none ∨ ¬follows →
      exec (.stepMark (p + 1) q) s = cmdDone (p + 1) q s Status.state 0 0) ∧
    (∀ (loss : List Byte) (sign1 : Bool) (r : StepResult), s.cmdBytes p dva n = some loss →
      s.stepResult x.cid gid step = some (sign1, r) → follows →
      (replay → twin = none → exec (.stepMark (p + 1) q) s = .next s) ∧
      (¬(replay ∧ twin = none) →
        exec (.stepMark (p + 1) q) s = match s.readDva (.host (p + 1) q) p ((s.partSecs p).headD 0) [(dva, n)] with
          | (t, .wait) => cmdWaits (p + 1) q t
          | (t, .done st) =>
            let e : LedgerEntry := {
              step, status := r.status, d12 := (t.part p).d12, sign1, gid, cnt := r.cnt, expected := r.expected
              ldig := (sha384 (leBytes 4 step ++ loss)).extractLsb' 128 256 }
            if st ≠ 0 then cmdDone (p + 1) q t st 0 0
            else if (t.part p).unlike e = true then cmdDone (p + 1) q t Status.integrity 0 0
            else if replay ∧ twin ≠ some e then
              cmdDone (p + 1) q ((t.report (Rec.mk' Status.integrity Sev.devFatal Blk.mon 0)).spareFail Status.integrity) Status.integrity 0 0
            else cmdDone (p + 1) q (t.appendEntry p e).joinSpare 0 (((t.appendEntry p e).part p).ledger.length - 1) 0))) ∧
  (∀ (p q : Nat) (s : State) (c : Cmd), InHandVf 0x64 p q s c →
    let l := (s.part p).ledger
    let off := c.arg 32 8
    let first := c.arg 40 4
    let count := c.arg 44 4
    (s.mapping (p + 1) q (c.arg 24 2) = none → exec (.ledgerRead (p + 1) q) s = cmdDone (p + 1) q s Status.bounds 0 0) ∧
    (∀ m : Mapping, s.mapping (p + 1) q (c.arg 24 2) = some m →
      (m.len < off + 64 * count → exec (.ledgerRead (p + 1) q) s = cmdDone (p + 1) q s Status.bounds 0 0) ∧
      (off + 64 * count ≤ m.len → m.wr = false → exec (.ledgerRead (p + 1) q) s = cmdDone (p + 1) q s Status.denied 0 0) ∧
      (off + 64 * count ≤ m.len → m.wr = true →
        (∀ y, l.head? = some y → first < y.step → exec (.ledgerRead (p + 1) q) s = cmdDone (p + 1) q s Status.bounds 0 0) ∧
        ((∀ y, l.head? = some y → y.step ≤ first) →
          let es := (l.filter (fun y => first ≤ y.step)).take count
          exec (.ledgerRead (p + 1) q) s =
            cmdDone (p + 1) q (s.hostPut (m.addr + off) (es.map LedgerEntry.bytes).flatten) 0 es.length 0)))) ∧
  (∀ (p q : Nat) (s : State) (c : Cmd), InHandVf 0x65 p q s c →
    (c.arg 24 1 = 1 → exec (.twinPolicy (p + 1) q) s = cmdDone (p + 1) q (s.setPart p { s.part p with twinAllow := true }) 0 0 0) ∧
    (c.arg 24 1 ≠ 1 → exec (.twinPolicy (p + 1) q) s =
      cmdDone (p + 1) q { s.setPart p { s.part p with twinAllow := false } with join := { s.join with twinReady := false } } 0 0 0)) ∧
  (∀ (p : Nat) (e : LedgerEntry) (s : State), p < 10 →
    let carries := fun (x : Packet) => x.typ = 6 ∧ x.payload = leBytes 32 p ++ LedgerEntry.bytes e
    let kept := fun (t : State) => t.setPart p { t.part p with
      mirror := ((t.part p).mirror ++ [e]).drop (((t.part p).mirror ++ [e]).length - 16) }
    ((∀ x ∈ s.hwk.inbox, ¬carries x) → exec (.ledgerMirror p e) s = .next (kept s)) ∧
    (∀ (l r : List Packet) (x : Packet), s.hwk.inbox = l ++ x :: r → (∀ y ∈ l, ¬carries y) → carries x →
      exec (.ledgerMirror p e) s = .next (kept (s.takeInbox x)))) ∧
  (∀ (allowed : Bool) (parts : List (Nat × Nat)) (regions : List (Nat × Nat × Nat × Nat)) (hold : Bool) (s : State),
    (s.join.phase = .preparing →
      let made := if s.join.created then .ok s else parts.foldl sparePart (.ok s)
      (∀ t : State, allowed = true → made = .ok t →
        let ready := t.regionsReady regions
        exec (.sparePartitionsReady allowed parts regions hold) s = .next { t with join := { t.join with
          created := true, ready, phase := if ready && hold then .receiving else .preparing, prog := 0 } }) ∧
      (∀ st : Nat, allowed = true → made = .error st → exec (.sparePartitionsReady allowed parts regions hold) s =
        .next { s with join := { s.join with phase := .failed, fstat := st } })) ∧
    (s.join.phase = .receiving ∨ s.join.phase = .replaying → allowed = true →
      exec (.sparePartitionsReady allowed parts regions hold) s = .next s) ∧
    (s.join.phase = .preparing ∨ s.join.phase = .receiving ∨ s.join.phase = .replaying → allowed = false →
      exec (.sparePartitionsReady allowed parts regions hold) s =
        .next { s with join := { s.join with phase := .failed, fstat := Status.denied } }) ∧
    (s.join.phase ≠ .preparing → s.join.phase ≠ .receiving → s.join.phase ≠ .replaying →
      exec (.sparePartitionsReady allowed parts regions hold) s = .next { s with join := { s.join with
        twinReady := allowed && (List.range 10).all (fun p => (s.part p).state == .free || (s.part p).twinAllow) } }) ∧
    (s.join.phase = .preparing → s.join.ready = false → s.join.prepAt + 60000000000 ≤ s.tim.up → exec .spareRegionTimeout s =
      .next { s with join := { s.join with phase := .failed, fstat := Status.timeout } }) ∧
    (s.join.phase ≠ .preparing ∨ s.join.ready = true ∨ s.tim.up < s.join.prepAt + 60000000000 → exec .spareRegionTimeout s = .next s)) ∧
  (∀ (ok : Bool) (rx : Transfer) (s : State),
    let t := s.join.held.foldl State.holdEnd s
    (t.join.phase ≠ .receiving → exec (.twinTransferComplete ok rx) s = .next t) ∧
    (t.join.phase = .receiving → exec (.twinTransferComplete false rx) s =
      .next { t with join := { t.join with phase := .failed, fstat := Status.linkDown } }) ∧
    (t.join.phase = .receiving → exec (.twinTransferComplete true rx) s =
      let u := rx.epochs.foldl State.takeEpoch t
      let u : State := { u with hwk := { u.hwk with inbox := u.hwk.inbox.filter (fun p => !(p.typ == 1 && p.dep == 0x11)) } }
      let imgs := rx.scheds.map (fun e => (e.1, e.2.byBase))
      .next (match putRuns rx.lines (imgs.foldl (fun v e => v.putAllocs e.1 e.2) u) with
        | none => imgs.foldl (fun v e => v.putAllocs e.1 e.2) u
        | some (v, st) =>
          if st ≠ 0 then v.spareFail st
          else if rx.keys.any (fun e => (kwUnwrap (v.twinKek false) e.2.2.2).isNone) then v.spareFail Status.unwrapFailed
          else
            let w := u.join.groups.foldl State.ownShard (rx.keys.foldl State.takeKey (imgs.foldl State.takeImage v))
            { w with join := { u.join with
              phase := .replaying, prog := 1000, ready := false
              replayStep := (imgs.map (fun e => (e.2.ledger.getLast?.map (fun y => y.step + 1)).getD 0)).headD 0 } })))

/-- The interfaces of the VFs and the resets of the host port (12 R333, R334; 13 R359; 14 R378, R381, R387, R397; 17 R446): LOCK, START
and STOP move a TDI as its states allow and answer STATE otherwise; an IDE failure leads out of every state but ERROR, with a record; an IDE
key takes a free slot of an existing partition; a report is signed and answered where the device may sign one; the resets stop what runs and
drop queues and keys. PF0 is no TDI. -/
def Obligations.InterfaceAndResetRows : Prop :=
  (∀ (k : Nat) (s : State), 1 ≤ k → k ≤ 10 →
    let x := s.fn k
    let no := s.answer Status.state
    let lockable := x.tdi = .unlocked ∧ (s.part (k - 1)).state ≠ .free ∧ (s.synPart (k - 1)).lock = true
    (lockable → exec (.lockInterface k) s = .next ((s.setFn k { x with tdi := .locked }).answer 0)) ∧
    (¬lockable → exec (.lockInterface k) s = .next no) ∧
    (x.tdi = .locked → exec (.startInterface k) s = .next ((s.setFn k { x with tdi := .run }).answer 0)) ∧
    (x.tdi ≠ .locked → exec (.startInterface k) s = .next no) ∧
    (x.tdi = .locked ∨ x.tdi = .run → exec (.stopInterface k) s = .next ((s.leaveRun k false).answer 0)) ∧
    (x.tdi = .unlocked ∨ x.tdi = .error → exec (.stopInterface k) s = .next (s.answer 0)) ∧
    (let t := if x.tdi = .error then s.dropIde k else (s.dropIde k).leaveRun k false
     ((t.part (k - 1)).state = .free → exec (.ideFail k) s = .next t) ∧
     ((t.part (k - 1)).state ≠ .free →
       exec (.ideFail k) s = .next (t.report (Rec.mk' Status.ideFail Sev.partFatal Blk.idn 0 (k - 1))))) ∧
    (∀ (slot : Nat) (key : BitVec 256),
      let i := tenantSlot (k - 1) slot
      let free := s.mon.phase = .ready ∧ (s.part (k - 1)).state ≠ .free ∧ (s.vslot i).valid = false ∧ s.chr.drainsForDebug = false
      (19 ≤ slot → exec (.ideKmKeyProg k slot key) s = .next (s.answer Status.bounds)) ∧
      (slot < 19 → ¬free → exec (.ideKmKeyProg k slot key) s = .next no) ∧
      (slot < 19 → free → (s.part (k - 1)).state = .draining → exec (.ideKmKeyProg k slot key) s = .next (s.answer Status.revoked)) ∧
      (slot < 19 → free → (s.part (k - 1)).state ≠ .draining →
        let t := s.putKey i key { usage := Usage.ide, owner := k - 1, cid := (s.part (k - 1)).cid }
        exec (.ideKmKeyProg k slot key) s = .next ((t.setFn k { t.fn k with ideKeys := (t.fn k).ideKeys ++ [i] }).answer 0))) ∧
    (x.tdi = .locked ∨ x.tdi = .run → exec (.functionLevelReset k) s = .next ((s.leaveRun k false).dropQueues k)) ∧
    (x.tdi = .unlocked ∨ x.tdi = .error → exec (.functionLevelReset k) s = .next (s.dropQueues k))) ∧
  (∀ (k : Nat) (nonce : Digest) (s : State), k < 11 →
    let serves := (s.mon.phase = .ready ∨ s.mon.phase = .fatal) ∧ s.chr.lcs ≠ .blank ∧ s.chr.lcs ≠ .endOfLife
    let signs := s.deviceServes akSlot Usage.sign
    (¬serves → exec (.spdmGetMeasurements k nonce) s = .next (s.answer Status.state)) ∧
    (serves → signs = false → exec (.spdmGetMeasurements k nonce) s = .next (s.answer Status.denied)) ∧
    (serves → signs = true → exec (.spdmGetMeasurements k nonce) s = .next (s.answer 0 [] (s.attest k (digestBytes nonce))))) ∧
  (∀ (slot : Nat) (key : BitVec 256) (s : State),
    ∀ c ∈ ([.lockInterface 0, .startInterface 0, .stopInterface 0, .ideFail 0, .ideKmKeyProg 0 slot key, .functionLevelReset 0] : List Instr),
      exec c s = .next (s.answer Status.denied)) ∧
  (∀ s : State,
    (s.mon.phase = .ready ∨ s.mon.phase = .fatal → exec .hostPortReset s =
      .next (((List.range 10).map (· + 1)).foldl State.hostResetVf (s.dropQueues 0))) ∧
    (s.mon.phase ≠ .ready → s.mon.phase ≠ .fatal → exec .hostPortReset s = .next s) ∧
    ∀ k : Nat,
      let t := if (s.fn k).tdi = .locked ∨ (s.fn k).tdi = .run then s.leaveRun k false else s
      let u := (t.dropIde k).dropQueues k
      (u.ctxsFree k = true → s.hostResetVf k = u.setFn k { u.fn k with tdi := .unlocked }) ∧
      (u.ctxsFree k = false → s.hostResetVf k = u.setFn k { u.fn k with portReset := true }))

/-- Remasking keeps every key (14 R384): fresh values go into both shares of each slot and of each working copy in the sluices, the links'
ciphers and the Aquifer port, so their XOR and the slots' attributes stand; nothing else changes but the counter of free values. -/
def Obligations.RemaskKeepsEveryKey : Prop :=
  ∀ s : State, ∃ t, exec .vaultRemask s = .next t ∧
    t = { s with chr := t.chr, sluices := t.sluices, links := t.links, aqf := t.aqf, free := t.free } ∧
    t.chr = { s.chr with vault := t.chr.vault } ∧
    t.aqf = { s.aqf with k1 := t.aqf.k1, k2 := t.aqf.k2, km := t.aqf.km } ∧
    t.aqf.k1.key = s.aqf.k1.key ∧ t.aqf.k2.key = s.aqf.k2.key ∧ t.aqf.km.key = s.aqf.km.key ∧
    (swf {} s.chr.vault = true → ∀ i, i < 256 → t.vaultKey i = s.vaultKey i ∧ (t.vslot i).word = (s.vslot i).word ∧
      ∃ r, (t.vslot i).shareA = (s.vslot i).shareA ^^^ r ∧ (t.vslot i).shareB = (s.vslot i).shareB ^^^ r) ∧
    (swf {} s.sluices = true → ∀ n,
      t.slu n = { s.slu n with k1 := (t.slu n).k1, k2 := (t.slu n).k2, km := (t.slu n).km } ∧
      (t.slu n).k1.key = (s.slu n).k1.key ∧ (t.slu n).k2.key = (s.slu n).k2.key ∧ (t.slu n).km.key = (s.slu n).km.key) ∧
    (swf {} s.links = true → ∀ n,
      t.link n = { s.link n with txKey := (t.link n).txKey, rxKey := (t.link n).rxKey } ∧
      (t.link n).txKey.key = (s.link n).txKey.key ∧ (t.link n).rxKey.key = (s.link n).rxKey.key)

/-- The mailbox of Chrysalis (14 R377, R383, R385-R395; 13 R366, R367; 17 R461): GO submits a request where neither BUSY nor DONE stands,
and one of a reserved opcode or in Safe-Listen is answered at once; clearing DONE frees the buffers; the functions are served in rotation, and
a request whose turn it is has DENIED from a function that may not send it, BOUNDS where its length is wrong, and STATE outside Ready; each
opcode that passes its checks has its effect and completes with OK. A TRNG failure leaves a Device-fatal record. -/
def Obligations.MailboxRows : Prop :=
  (∀ (f : Nat) (s : State), f < 11 →
    let x := s.fn f
    let busy := s.setFn f { x with mbox := { x.mbox with busy := true } }
    (x.mbox.busy = true ∨ x.mbox.done = true → exec (.chrGo f) s = .next s) ∧
    (x.mbox.busy = false → x.mbox.done = false →
      (s.mon.phase = .safeListen → exec (.chrGo f) s = .next (busy.mboxAnswer f Status.state)) ∧
      (s.mon.phase ≠ .safeListen →
        (x.mbox.opc ∈ [0x01, 0x02, 0x03, 0x04, 0x05, 0x10, 0x11, 0x12, 0x20, 0x21] → exec (.chrGo f) s = .next busy) ∧
        (x.mbox.opc ∉ [0x01, 0x02, 0x03, 0x04, 0x05, 0x10, 0x11, 0x12, 0x20, 0x21] →
          exec (.chrGo f) s = .next (busy.mboxAnswer f Status.unsupported)))) ∧
    exec (.chrDoneClear f) s = .next (s.setFn f { x with mbox := { x.mbox with done := false } })) ∧
  (∀ (f d : Nat) (s : State), f < 11 → d < 11 → s.chr.mboxTurn < 11 → f = (s.chr.mboxTurn + d) % 11 →
    (s.fn f).mbox.busy = true → s.chr.tokenFn ≠ some f →
    (∀ e, e < d → (s.fn ((s.chr.mboxTurn + e) % 11)).mbox.busy = false ∨ s.chr.tokenFn = some ((s.chr.mboxTurn + e) % 11)) →
    s.mboxNext = some f) ∧
  (∀ (f : Nat) (s : State), f < 11 → ∀ r ∈ mboxRows f,
    let m := (s.fn f).mbox
    (s.mboxNext ≠ some f ∨ m.opc ≠ r.opc → exec r.row s = .next s) ∧
    (s.mboxNext = some f → m.opc = r.opc →
      ((if f = 0 then r.pf else r.vf) = false → exec r.row s = .next (s.mboxDone f Status.denied)) ∧
      ((if f = 0 then r.pf else r.vf) = true →
        (r.len m.len = false → exec r.row s = .next (s.mboxDone f Status.bounds)) ∧
        (r.len m.len = true → s.mon.phase ≠ .ready → r.always = false → exec r.row s = .next (s.mboxDone f Status.state))))) ∧
  (∀ (f : Nat) (s : State), f < 11 → s.mboxNext = some f →
    let m := (s.fn f).mbox
    (m.opc = 0x01 → m.len = 8 → exec (.getCerts f) s = .next (if s.attestStatus = 0
      then s.mboxDone f 0 (Config.flashCerts ++ leBytes 2 s.chr.akCert.length ++ s.chr.akCert) else s.mboxDone f s.attestStatus)) ∧
    (m.opc = 0x02 → m.len = 56 → exec (.getReport f) s = .next (if s.attestStatus = 0
      then s.mboxDone f 0 (s.attest f m.body) else s.mboxDone f s.attestStatus))) ∧
  (∀ (p : Nat) (s : State),
    let f := p + 1
    let b := (s.fn f).mbox.body
    let slot := field b 0 1
    let i := tenantSlot p slot
    (Asked 0x03 f 152 s →
      let form := slot < 19 ∧ field b 2 1 ≤ 1 ∧ field b 3 5 = 0
      let takes := (s.part p).state ≠ .free ∧ (s.vslot i).valid = false
      (¬form → exec (.keyInstall f) s = .next (s.mboxDone f Status.bounds)) ∧
      (form → s.chr.drainsForDebug = true → exec (.keyInstall f) s = .next (s.mboxDone f Status.state)) ∧
      (form → s.chr.drainsForDebug = false →
        ((s.part p).state = .draining → exec (.keyInstall f) s = .next (s.mboxDone f Status.revoked)) ∧
        ((s.part p).state ≠ .draining →
          (¬takes → exec (.keyInstall f) s = .next (s.mboxDone f Status.state)) ∧
          (takes → field b 1 1 ≠ Usage.wrap → exec (.keyInstall f) s = .next (s.mboxDone f Status.denied)) ∧
          (takes → field b 1 1 = Usage.wrap →
            exec (.keyInstall f) s = .next (match s.unwrapIk p "D20 KEK" (slice b 8 96) (slice b 104 40) with
              | .error st => s.mboxDone f st
              | .ok k => (s.putKey i k {
                  usage := Usage.wrap, exportable := field b 2 1 = 1, owner := p, cid := (s.part p).cid
                  ctx := s.soleCtx f }).mboxDone f 0))))) ∧
    (Asked 0x04 f 9 s →
      (19 ≤ slot → exec (.keyDestroy f) s = .next (s.mboxDone f Status.bounds)) ∧
      (slot < 19 → (s.vslot i).valid = false → exec (.keyDestroy f) s = .next (s.mboxDone f 0)) ∧
      (slot < 19 → (s.vslot i).valid = true →
        let t := s.dropKey i
        exec (.keyDestroy f) s = .next ((t.setFn f { t.fn f with ideKeys := (t.fn f).ideKeys.erase i }).mboxDone f 0))) ∧
    (Asked 0x05 f 9 s →
      (19 ≤ slot → exec (.slotInfo f) s = .next (s.mboxDone f Status.bounds)) ∧
      (slot < 19 → exec (.slotInfo f) s = .next (s.mboxDone f 0 (leBytes 8 (s.vslot i).word)))) ∧
    (Asked 0x05 0 9 s →
      exec (.slotInfo 0) s = .next (s.mboxDone 0 0 (leBytes 8 (s.vslot (field (s.fn 0).mbox.body 0 1)).word)))) ∧
  (∀ s : State,
    let l := (s.fn 0).mbox.body
    (∀ n : Nat, Asked 0x10 0 (72 + 288 * n) s → n ≤ 15 →
      let k := parseCompact l
      let cid := field l 6 2
      let old := sget none s.chr.compacts cid
      (recordOk l = false → exec (.compactLoad 0) s = .next (s.mboxDone 0 Status.bounds)) ∧
      (recordOk l = true → compactSigned l k = false ∨ k.seq ≤ sget 0 s.chr.seqSeen cid →
        exec (.compactLoad 0) s = .next (s.mboxDone 0 Status.denied)) ∧
      (recordOk l = true → compactSigned l k = true → sget 0 s.chr.seqSeen cid < k.seq →
        (old ≠ none → s.bindingsKept cid k = false ∨ s.draining cid = true →
          exec (.compactLoad 0) s = .next (s.mboxDone 0 Status.state)) ∧
        (old = none ∨ (s.bindingsKept cid k = true ∧ s.draining cid = false) → exec (.compactLoad 0) s =
          .next ({ s with chr := { s.chr with
            compacts := sset none s.chr.compacts cid (some k), seqSeen := sset 0 s.chr.seqSeen cid k.seq } }.mboxDone 0 0)))) ∧
    (Asked 0x11 0 10 s →
      let cid := field l 0 2
      (sget none s.chr.compacts cid ≠ none → s.bound cid = false → exec (.compactRetire 0) s =
        .next ({ s with chr := { s.chr with compacts := sset none s.chr.compacts cid none } }.mboxDone 0 0)) ∧
      (sget none s.chr.compacts cid = none ∨ s.bound cid = true → exec (.compactRetire 0) s = .next (s.mboxDone 0 Status.state))) ∧
    (Asked 0x12 0 312 s →
      let form := field l 0 4 = 0x464E4D57 ∧ field l 4 4 = 1
      let signed := ecdsaVerify Config.walralKey (sha384 (l.take 208)) (slice l 208 96)
      let x : Manifest := {
        svns := (List.range 4).map (fun i => field l (8 + 2 * i) 2)
        digests := (List.range 4).map (fun i => digestOf (slice l (16 + 48 * i) 48)) }
      (¬form → exec (.policyLoad 0) s = .next (s.mboxDone 0 Status.bounds)) ∧
      (form → exec (.policyLoad 0) s = .next (
        if signed = false then s.mboxDone 0 Status.denied
        else if 7 ≤ s.chr.policy.length then s.mboxDone 0 Status.quota
        else { s with chr := { s.chr with policy := s.chr.policy ++ [x] } }.mboxDone 0 0 (leBytes 1 (s.chr.policy.length + 1))))) ∧
    (Asked 0x20 0 9 s →
      let d : Digest := BitVec.ofNat 384 ((Config.trng s.free).toNat + 2 ^ 256 * (Config.trng (s.free + 1)).toNat)
      (field l 0 1 = 0 ∨ 5 < field l 0 1 → exec (.challenge 0) s = .next (s.mboxDone 0 Status.bounds)) ∧
      (1 ≤ field l 0 1 → field l 0 1 ≤ 5 → exec (.challenge 0) s = .next ({ s with
        free := s.free + 2
        chr := { s.chr with challenges := sset none s.chr.challenges (field l 0 1) (some (d, s.tim.up)) } }.mboxDone 0 0 (digestBytes d)))) ∧
    (Asked 0x21 0 360 s →
      let t := field l 5 1
      let u := { s with chr := { s.chr with challenges := sset none s.chr.challenges t none } }
      (sget none s.chr.challenges t = none → exec (.token 0) s = .next (s.mboxDone 0 Status.tokenInvalid)) ∧
      (∀ (d : Digest) (a : Nat), sget none s.chr.challenges t = some (d, a) →
        (slice l 16 48 ≠ digestBytes d → exec (.token 0) s = .next (s.mboxDone 0 Status.tokenInvalid)) ∧
        (slice l 16 48 = digestBytes d → a + 60000000000 < s.tim.up → exec (.token 0) s = .next (u.mboxDone 0 Status.tokenInvalid)) ∧
        (slice l 16 48 = digestBytes d → s.tim.up ≤ a + 60000000000 →
          exec (.token 0) s = .next (if s.tokenGood l then u.tokenDone 0 l else u.mboxDone 0 Status.tokenInvalid))))) ∧
  (∀ (l : List Byte) (s : State),
    let o := s.chr.otp
    let okey := sha384 (slice l 64 96)
    let t := field l 5 1
    (t = 1 → s.tokenDone 0 l = { s with chr := { s.chr with testAuth := true } }.mboxDone 0 0) ∧
    (t = 2 → 256 ≤ o.dbgcnt → s.tokenDone 0 l = s.mboxDone 0 Status.denied) ∧
    (t = 2 → o.dbgcnt < 256 → s.tokenDone 0 l = ({ s with chr := { s.chr with
      drainsForDebug := true, tokenFn := some 0, tokenScope := field l 6 2 } }.mboxTurned 0).drainAll.afterDrains) ∧
    (t = 3 →
      let o' := { o with pm := setWord o.pm 1, owners := [okey], tlock := BitVec.allOnes 64, lcs := setWord o.lcs 1 }
      s.tokenDone 0 l = { s with chr := { s.chr with otp := o', lcs := o'.state } }.mboxDone 0 0) ∧
    (t = 4 → s.tokenDone 0 l = ({ s with chr := { s.chr with
      otp := { o with pm := setWord o.pm 2 }, drainsForEnd := true, tokenFn := some 0 } }.mboxTurned 0).drainAll.afterDrains) ∧
    (t = 5 → 4 ≤ o.owners.length → s.tokenDone 0 l = s.mboxDone 0 Status.quota) ∧
    (t = 5 → o.owners.length < 4 →
      s.tokenDone 0 l = { s with chr := { s.chr with otp := { o with owners := o.owners ++ [okey] } } }.mboxDone 0 0)) ∧
  (∀ s : State, exec .trngFail s =
    .next ({ s with chr := { s.chr with trngFailed := true } }.report (Rec.mk' Status.trngFail Sev.devFatal Blk.chr 0)))

/-- Power and thermal protection (01 R35, R36; 16 R421-R430): Monarch counts the reasons in force, and the controller moves the common point
down to one the limit allows, or up by one, and the beds follow; the gain is calibrated and clamped; a settled bed rises one point, once in a
period; a droop stretches its bed; each sensor enters and leaves its reasons; a reason ends after its shortest hold, THERMAL_SOFT and
STACK_TEMP group by group and stack by stack; a trip removes the rails, with what the die held, and fences every port, and what Chrysalis and
Monarch hold stays. The status of a trip's record is one that the spec
defines (log entry 69), and the ratio of a period without an estimate is free (log entry 2). -/
def Obligations.PowerRows : Prop :=
  (∀ (activity : List Nat) (s : State),
    (s.alive = false → exec (.controllerPeriod activity) s = .next s) ∧
    (s.alive = true → s.powered = false → exec (.controllerPeriod activity) s = .next { s with pwr := s.pwr.countReasons }) ∧
    (s.powered = true →
      let now := s.tim.up
      let pred := (List.range 12).map (fun p => s.powerAt activity (fun _ => p))
      let x := s.pwr.settle.countReasons.move pred now
      let x := { x with risen := [], eSum := x.eSum + s.powerAt activity (fun b => sget 0 s.pwr.bedPoint b - 1), eN := x.eN + 1 }
      let above := 1000 * x.limit < pred.getD 11 0
      exec (.controllerPeriod activity) s = .next ((s.setPwr (x.judge 0 now (decide (above ∧ x.point < 11))
        (decide (¬above ∨ x.point = 11)))).moveBeds))) ∧
  (∀ (pred : List Nat) (now : Nat) (x : Pwr), x.point ≤ 11 →
    let y := x.move pred now
    let l := 1000 * x.limit
    (l < pred.getD x.point 0 → 0 < x.point → y.point < x.point ∧ (y.point = 0 ∨ pred.getD y.point 0 ≤ l) ∧ y.downAt = some now ∧
      (∀ p, y.point < p → p < x.point → l < pred.getD p 0)) ∧
    (pred.getD x.point 0 ≤ l → x.point < 11 → pred.getD (x.point + 1) 0 ≤ l → (∀ t, x.downAt = some t → t + 1000000 ≤ now) →
      y.point = x.point + 1) ∧
    y.point ≤ x.point + 1 ∧ y.point ≤ 11 ∧ (y.point = x.point + 1 → pred.getD y.point 0 ≤ l ∧ ∀ t, x.downAt = some t → t + 1000000 ≤ now) ∧
    y.limit = x.limit) ∧
  (∀ (volts amps : List Nat) (s : State),
    (s.powered = false → exec (.gainCalibration volts amps) s = .next s) ∧
    (s.powered = true →
      let est := if s.pwr.eN = 0 then 0 else s.pwr.eSum / s.pwr.eN
      let meas := inputPower volts amps
      let out := fun (g free : Nat) => (.next { s with free, pwr := { s.pwr with
        est := min (est / 1000) 4095, meas := min (meas / 1000) 4095, gain := max 55706 (min 78643 g)
        calClamp := decide (g < 55706 ∨ 78643 < g), eSum := 0, eN := 0 } } : Out)
      (est ≠ 0 → exec (.gainCalibration volts amps) s = out ((7 * s.pwr.gain + meas * 65536 / est) / 8) s.free) ∧
      (est = 0 → ∃ r, exec (.gainCalibration volts amps) s = out ((7 * s.pwr.gain + r) / 8) (s.free + 1)))) ∧
  (∀ (b : Nat) (s : State), b < 160 →
    let cur := sget 0 s.pwr.bedPoint b
    (s.powered = true → cur ≠ 0 → cur < s.bedTarget b + 1 → s.pwr.risen.contains b = false →
      exec (.vbedSettled b) s = .next { s with pwr := { s.pwr with
        bedPoint := sset 0 s.pwr.bedPoint b (cur + 1), risen := b :: s.pwr.risen } }) ∧
    (s.powered = false ∨ cur = 0 ∨ s.bedTarget b + 1 ≤ cur ∨ s.pwr.risen.contains b = true → exec (.vbedSettled b) s = .next s) ∧
    (s.powered = true → cur ≠ 0 →
      let x := s.pwr.begin 7
      exec (.droop b) s = .next (s.setPwr { x with
        stretched := sset false x.stretched b true, thr := sset 0 x.thr 7 (min (sget 0 x.thr 7 + 1) 65535) })) ∧
    (s.powered = false ∨ cur = 0 → exec (.droop b) s = .next s) ∧
    (sget false s.pwr.stretched b = false → exec (.droopStretchEnd b) s = .next s) ∧
    (sget false s.pwr.stretched b = true →
      let x := { s.pwr with stretched := sset false s.pwr.stretched b false }
      (x.stretched = [] → exec (.droopStretchEnd b) s = .next (s.setPwr (x.finish 7))) ∧
      (x.stretched ≠ [] → exec (.droopStretchEnd b) s = .next (s.setPwr x)))) ∧
  (∀ (i t : Nat) (s : State),
    let now := s.tim.up
    let moved := fun (u : State) => if s.powered then u.moveBeds else u
    (i < 48 →
      let key := 16 + min (i / 4) 10
      let group := if i < 40 then (List.range 4).map (· + 4 * (i / 4)) else (List.range 8).map (· + 40)
      let x := { s.pwr with junction := sset 0 s.pwr.junction i t }
      let y := x.judgeKey key now (decide (105 ≤ t)) (group.all (fun j => decide (sget 0 x.junction j ≤ 103)))
      let u := s.setPwr (y.judgeHard now)
      exec (.junctionSensorSample i t) s = .next (moved (if i < 40 then u.thermCap (i / 4) t else u)) ∧
      (105 ≤ t → (y.judgeHard now).why 3 = true) ∧ (110 ≤ t → sget 0 x.junction i = t → (y.judgeHard now).why 4 = true)) ∧
    (i < 20 →
      let x := { s.pwr with stackT := sset 0 s.pwr.stackT i t }
      let y := x.judgeKey (32 + i) now (decide (95 ≤ t)) (decide (t ≤ 92))
      exec (.stackTempSample i t) s = .next (moved (s.setPwr (y.judgeHard now))) ∧
      (95 ≤ t → (y.judgeHard now).why 5 = true) ∧ (98 ≤ t → sget 0 x.stackT i = t → (y.judgeHard now).why 4 = true))) ∧
  (∀ (a b : Nat) (s : State),
    let x := { s.pwr with inlet := a, outlet := b }
    let y := x.judge 1 s.tim.up (x.boostOn && decide (300 < a)) (decide (a ≤ 290))
    exec (.coolantSample a b) s = .next (s.setPwr (y.judge 2 s.tim.up (decide (400 < a)) (decide (a ≤ 390))))) ∧
  (∀ (k : Nat) (s : State), k < 8 →
    let passed := fun (key : Nat) => ∃ t, sget none s.pwr.exitSince key = some t ∧
      t + (if k = 1 ∨ k = 2 then 10000000000 else if k = 0 ∨ k = 3 then 1000000 else 10000000) ≤ s.tim.up
    (k = 7 → exec (.throttleHoldExpiry k) s = .next s) ∧
    (k < 7 → k ≠ 3 → k ≠ 5 →
      (¬passed k → exec (.throttleHoldExpiry k) s = .next s) ∧
      (passed k →
        let x := s.pwr.finish k
        exec (.throttleHoldExpiry k) s = .next (s.setPwr (if k = 6 ∧ x.boost = true ∧ 300 < x.inlet then x.begin 1 else x)))) ∧
    (k = 3 ∨ k = 5 →
      let mine := s.pwr.hot.filter (fun key => (if key < 32 then 3 else 5) = k)
      ((∀ key ∈ mine, ¬passed key) → exec (.throttleHoldExpiry k) s = .next s) ∧
      ((∃ key ∈ mine, passed key) → ∃ y : Pwr, exec (.throttleHoldExpiry k) s = .next (s.setPwr y) ∧
        y.hot = s.pwr.hot.filter (fun key => !((s.pwr.cooled k s.tim.up).contains key)) ∧
        (∀ key, key ∈ s.pwr.cooled k s.tim.up ↔ key ∈ mine ∧ passed key) ∧
        ((∃ key ∈ mine, ¬passed key) → y = { s.pwr with hot := y.hot }) ∧
        ((∀ key ∈ mine, passed key) → y = { s.pwr with hot := y.hot }.finish k)))) ∧
  (∀ (i : Nat) (s : State), i < 48 →
    (s.mon.switch = false ∨ s.mon.tripped = true ∨ sget 0 s.pwr.junction i < 118 → exec (.thermalTrip i) s = .next s) ∧
    (118 ≤ sget 0 s.pwr.junction i → s.mon.switch = true → s.mon.tripped = false → ∃ t, exec (.thermalTrip i) s = .next t ∧
      t.mon.rails = false ∧ t.mon.tripped = true ∧ (∀ n, n < 48 → (t.link n).state = .fenced) ∧ t.pwr.bedPoint = [] ∧ t.cores = [] ∧
      (∀ n, n < 20 → (t.slu n).ready = false) ∧ t.chr = s.chr ∧ t.hostMem = s.hostMem ∧ t.parts = s.parts ∧ t.tim = s.tim ∧
      t = { s.unpowered with ras := t.ras, free := t.free } ∧ (s.mon.silent = true → t.ras = s.ras) ∧
      (s.mon.silent = false → ∃ r, t.ras.inbox = s.ras.inbox ++ [r] ∧ r.status ∈ Status.defined ∧ r.sev = Sev.devFatal ∧ r.block = Blk.pwr))) ∧
  (∀ x : Pwr, x.limitNow ≤ x.effCap ∧ (x.boostOn = false → x.limitNow ≤ 2900) ∧ (x.why 6 = true → x.limitNow ≤ 1800) ∧
    (x.why 2 = true → 440 < x.inlet → x.limitNow ≤ 2400))

/-- The supply, the power registers and diapause (01 R34-R36; 16 R420, R431-R436, R444; 17 R450; 18 R465, R477): an overvoltage opens the
switch and a recovery closes it; a sag lowers the load and tells Monarch, also while its reason is still held; PWR_CAP takes caps from 1,800
to 3,400 W and Boost at 30.0 °C or less, and a refused write changes neither; PWR_SAG keeps what breaks a window, the gap or LOCK; ENTER and
WAKE move the sleep state by its table, by a command or by an order of the District's route master. The master's own order needs no packet
(log entry 36). -/
def Obligations.SupplyAndSleepRows : Prop :=
  (∀ s : State,
    (s.mon.switch = true → exec .inputOvervoltage s =
      .next { s.powerOff with mon := { s.powerOff.mon with overvolt := true } }) ∧
    (s.mon.switch = false → exec .inputOvervoltage s = .next { s with mon := { s.mon with overvolt := true } }) ∧
    (s.mon.overvolt = false → exec .inputRecovery s = .next s) ∧
    (let t : State := { s with mon := { s.mon with overvolt := false } }
     (s.mon.overvolt = true → s.mon.en = true → s.mon.switch = false → exec .inputRecovery s = .next (t.powerUp .overvoltage)) ∧
     (s.mon.overvolt = true → s.mon.en = false ∨ s.mon.switch = true → exec .inputRecovery s = .next t)) ∧
    (s.alive = true → s.mon.tripped = false → exec .supplyResetSag s = .next (s.moduleReset .supplySag)) ∧
    (s.alive = false ∨ s.mon.tripped = true → exec .supplyResetSag s = .next s) ∧
    (let low := fun (t : State) => { t with mon := { t.mon with en := false, overvolt := s.mon.overvolt, silent := false, tripped := false } }
     (s.mon.switch = false → exec (.enPin false) s = .next (low s)) ∧
     (s.mon.switch = true → ∃ t, exec (.enPin false) s = .next t ∧ t = low t ∧ t.mon.switch = false ∧ t.mon.rails = false ∧
      t.chr.vault = [] ∧ t.chr.otp = s.chr.otp ∧ t.hostMem = s.hostMem)) ∧
    (let high : State := { s with mon := { s.mon with en := true } }
     let closes := s.mon.switch = false ∧ s.mon.overvolt = false ∧ 480 ≤ s.pwr.input ∧ s.pwr.input ≤ 580
     (closes → exec (.enPin true) s = .next (high.powerUp .powerOn)) ∧ (¬closes → exec (.enPin true) s = .next high))) ∧
  (∀ (v : Nat) (s : State),
    let x := { s.pwr with input := v }
    (v < s.pwr.warn →
      let told := (s.pwr.why 6 = false ∨ s.pwr.warn ≤ s.pwr.input) ∧ s.alive = true
      (told → exec (.supplySag v) s = .next { s.setPwr (x.begin 6) with mon := { s.mon with monIrq := s.mon.monIrq + 1 } }) ∧
      (¬told → exec (.supplySag v) s = .next (s.setPwr (x.begin 6)))) ∧
    (s.pwr.warn ≤ v → exec (.supplySag v) s = .next (s.setPwr (x.judge 6 s.tim.up false (decide (s.pwr.warn + 10 ≤ v)))))) ∧
  (∀ (path : Path) (v : Word) (s : State),
    let cap := v.toNat % 4096
    let boost := v.toNat.testBit 12
    let w := v.toNat / 512 % 512
    (isOperator path = false ∨ s.reach path = false → exec (.pwrCapWrite path v) s = .next s ∧ exec (.pwrSagWrite path v) s = .next s) ∧
    (isOperator path = true → s.reach path = true →
      (s.served2 = false → exec (.pwrCapWrite path v) s = .next { s with pwr := { s.pwr with cstat := Status.state } }) ∧
      (s.served2 = true → cap < 1800 ∨ 3400 < cap → exec (.pwrCapWrite path v) s = .next { s with pwr := { s.pwr with cstat := Status.bounds } }) ∧
      (s.served2 = true → 1800 ≤ cap → cap ≤ 3400 → boost = true → 300 < s.pwr.inlet →
        exec (.pwrCapWrite path v) s = .next { s with pwr := { s.pwr with cstat := Status.state } }) ∧
      (s.served2 = true → 1800 ≤ cap → cap ≤ 3400 → boost = false ∨ s.pwr.inlet ≤ 300 →
        exec (.pwrCapWrite path v) s = .next (s.setPwr { s.pwr with cap, boost, cstat := 0 })) ∧
      (s.pwr.lock = false → 440 ≤ v.toNat % 512 → v.toNat % 512 ≤ 470 → 400 ≤ w → w ≤ 430 → w + 20 ≤ v.toNat % 512 →
        exec (.pwrSagWrite path v) s = .next { s with
          pwr := { s.pwr with warn := v.toNat % 512, rst := w, lock := v.toNat.testBit 18 }
          mon := { s.mon with storedSag := (v.toNat % 512, w) } }) ∧
      (s.pwr.lock = true ∨ v.toNat % 512 < 440 ∨ 470 < v.toNat % 512 ∨ w < 400 ∨ 430 < w ∨ v.toNat % 512 < w + 20 →
        exec (.pwrSagWrite path v) s = .next s))) ∧
  (∀ (path : Path) (s t : State), ∀ district : Bool,
    let ordered := fun (wake : Bool) => s.hwk.inbox.find? (fun p => p.typ == 6 && p.arg == (if wake then 5 else 4) && s.fromMaster p)
    let comes := fun (wake : Bool) => match ordered wake with
      | some p => if district then t = s.takeInbox p else t = s
      | none => t = s ∧ (district = false ∨ s.hwk.master = true)
    let heard := if district then s.alive = true else isOperator path = true ∧ s.reach path = true
    let go := fun (g : Sleep) (st : Nat) => { t with pwr := { t.pwr with sleep := g, sleepCstat := st } }
    let from3ms := fun (u : State) => { u with pwr := { u.pwr with wakeAt := s.tim.up + 3000000 } }
    (∀ wake : Bool, district = true → ordered wake = none → s.hwk.master = false →
      exec (if wake then .pwrSleepWake path district else .pwrSleepEnter path district) s = .next s) ∧
    (comes false → ¬heard → exec (.pwrSleepEnter path district) s = .next t) ∧
    (comes true → ¬heard → exec (.pwrSleepWake path district) s = .next t) ∧
    (comes false → heard → s.mon.phase ≠ .ready → exec (.pwrSleepEnter path district) s = .next (go s.pwr.sleep Status.state)) ∧
    (comes true → heard → s.mon.phase ≠ .ready → exec (.pwrSleepWake path district) s = .next (go s.pwr.sleep Status.state)) ∧
    (comes false → heard → s.mon.phase = .ready → exec (.pwrSleepEnter path district) s = .next (match s.pwr.sleep with
      | .running => if s.maySleep district then go .entering 0 else go .running Status.state
      | .entering => go .entering Status.state
      | .diapause => go .diapause 0
      | .waking => go .waking Status.state)) ∧
    (comes true → heard → s.mon.phase = .ready → exec (.pwrSleepWake path district) s = .next (match s.pwr.sleep with
      | .running => go .running 0
      | .entering => if s.pwr.wakeAfter then go .entering 0
        else { from3ms (go .entering 0) with pwr := { (from3ms (go .entering 0)).pwr with wakeAfter := true } }
      | .diapause => from3ms (go .waking 0)
      | .waking => go .waking 0))) ∧
  (∀ s : State,
    (s.pwr.sleep = .entering → ∃ t, exec .diapauseEntryComplete s = .next t ∧ t = { s with pwr := t.pwr } ∧
      t.pwr.sleep = (if s.pwr.wakeAfter then .waking else .diapause) ∧ t.pwr.wakeAfter = false ∧ t.pwr.bedPoint = [] ∧ t.pwr.stretched = [] ∧
      (s.pwr.stretched ≠ [] → t.pwr.why 7 = false)) ∧
    (s.pwr.sleep ≠ .entering → exec .diapauseEntryComplete s = .next s) ∧
    (s.pwr.sleep ≠ .waking ∨ s.tim.up < s.pwr.wakeAt → exec .wakeComplete s = .next s) ∧
    (s.pwr.sleep = .waking → s.pwr.wakeAt ≤ s.tim.up → exec .wakeComplete s = .next { s with
      pwr := { s.pwr with sleep := .running }, cores := smap {} (fun _ k => { k with pond := [], slots := [] }) s.cores }))

/-- Fabric time (16 R437-R445; 09 R268; 10 R295): one count runs at 1 ns; a module takes its first time from upstream and slews every
later offset; the elected candidate is time and route master, and no later step moves its count; TIM_SET waits for a second boundary, where
what the other modules hold, which is a free value (log entry 118), does not refuse it; PPS_IN locks after 16 edges; a Sync carries the time
of its sending and a Delay_Resp that of the request's arrival, on an enabled transport and in the module's domain; 1PPS_OUT rises within 1 ns
of a whole second. The unit of an offset and the pace of a correction are the model's readings (log entry 8). -/
def Obligations.TimeRows : Prop :=
  (∀ s : State, s.pending = [] → ∃ t, step s = .next t ∧ t = { s with tim := t.tim } ∧ t.tim.up = s.tim.up + 1 ∧ t.tim.prev = s.tim.now ∧
    (s.tim.slew = 0 → t.tim.now = (s.tim.now + 1) % 2 ^ 64) ∧
    (t.tim.now = (s.tim.now + 1) % 2 ^ 64 ∨ t.tim.now = (s.tim.now + 2) % 2 ^ 64 ∨ t.tim.now = s.tim.now)) ∧
  (∀ (port : Nat) (offset : Int) (ann : TimeAnn) (s : State), port < 48 → (s.link port).state = .up → s.upstream port = true →
    let m := s.tim.master
    let x := { s.tim with
      upPort := port, hops := if isTwinPort port then 25 else min ann.hops 24, offset, tai := ann.tai
      ppsLock := if m then s.tim.ppsLock else ann.ppsLock, holdover := if m then s.tim.holdover else ann.holdover }
    (s.tim.taken = false → exec (.timeExchange port offset ann) s =
      .next { s with tim := { x with now := ((x.now : Int) - offset / 100).toNat % 2 ^ 64, taken := true, sync := true } }) ∧
    (s.tim.taken = true → exec (.timeExchange port offset ann) s =
      .next { s with tim := { x with slew := -(offset / 100), sync := decide (offset.natAbs ≤ 250) } })) ∧
  (∀ (port : Nat) (offset : Int) (ann : TimeAnn) (s : State), port < 48 → (s.link port).state ≠ .up ∨ s.upstream port = false →
    exec (.timeExchange port offset ann) s = .next s) ∧
  (∀ (port : Nat) (s : State),
    (s.tim.master = true → (s.upstream port = true ↔ s.hwk.pos.d = 1 ∧ isTwinPort port = true)) ∧
    (s.tim.master = false → isTwinPort port = true → s.upstream port = false) ∧
    (s.tim.master = false → isTwinPort port = false → s.hwk.masterAt = none → s.upstream port = true)) ∧
  (∀ (cands : List Candidate) (s : State), ∃ t, exec (.masterElection cands) s = .next t ∧
    (s.winner cands = none → t = s) ∧
    (∀ c, s.winner cands = some c → t.tim.master = c.self ∧ t.hwk.master = c.self ∧ t.hwk.masterAt = some c.pos ∧
      t.tim.now = s.tim.now ∧ (c.self = true → t.tim.taken = true ∧ t.tim.sync = true) ∧
      (c.self = true → s.tim.master = false → t.tim.hops = 0 ∧ t.tim.ppsLock = false ∧ t.tim.holdover = false) ∧
      (c.self = false → s.tim.setPending.isSome = true → t.tim.setCstat = Status.cancelled ∧ t.tim.setPending = none))) ∧
  (∀ (cands : List Candidate) (s : State) (c : Candidate), s.winner cands = some c →
    let all := cands.filterMap s.ownCandidate
    c ∈ all ∧ c.pos.d = s.hwk.pos.d ∧ (s.hwk.pos.d = 0 → c.cand = true) ∧
    (s.hwk.pos.d = 0 → ∀ x ∈ all, x.pos.d = 0 → x.cand = true → Candidate.beats x c = false)) ∧
  (∀ (path : Path) (v : Word) (s : State),
    (isOperator path = false ∨ s.reach path = false → exec (.timSet path v) s = .next s) ∧
    (isOperator path = true → s.reach path = true → s.tim.master = true → s.served2 = true → s.allFree = true →
      ∃ t, exec (.timSet path v) s = .next t ∧
      (t = { s with free := s.free + 1, tim := { s.tim with setCstat := Status.state } } ∨
       t = { s with free := s.free + 1, tim := { s.tim with
        setPending := some (v.toNat % 2 ^ 48, v.toNat.testBit 48, (s.tim.now / 1000000000 + 1) * 1000000000) } })) ∧
    (isOperator path = true → s.reach path = true → s.tim.master = false ∨ s.served2 = false ∨ s.allFree = false →
      exec (.timSet path v) s = .next { s with tim := { s.tim with setCstat := Status.state } })) ∧
  (∀ (order : Option (Nat × Bool)) (s : State),
    let put := fun (sec : Nat) (tai : Bool) =>
      { s.tim with now := sec * 1000000000 % 2 ^ 64, prev := sec * 1000000000 % 2 ^ 64 - 1, tai }
    (s.tim.master = true → s.tim.setPending = none → exec (.timSetApply order) s = .next s) ∧
    (s.tim.master = false → exec (.timSetApply none) s = .next s ∧ ∀ sec tai, exec (.timSetApply (some (sec, tai))) s =
      .next { s with tim := put sec tai }) ∧
    (∀ sec tai at_, s.tim.master = true → s.tim.setPending = some (sec, tai, at_) →
      (s.tim.now < at_ → exec (.timSetApply order) s = .next s) ∧
      (at_ ≤ s.tim.now → exec (.timSetApply order) s = .next { s with tim := { put sec tai with
        setPending := none, setCstat := Status.ok } }))) ∧
  (∀ (offset : Int) (s : State),
    (s.tim.master = false ∨ s.tim.ppsIn = false → exec (.ppsInEdge offset) s = .next s ∧ exec .ppsInLoss s = .next s) ∧
    (s.tim.master = true → s.tim.ppsIn = true →
      let n := if offset.natAbs < 20 then s.tim.ppsGood + 1 else 0
      exec (.ppsInEdge offset) s = .next { s with tim := { s.tim with
        slew := -offset, ppsGood := n, ppsLock := s.tim.ppsLock || decide (16 ≤ n), holdover := false } } ∧
      exec .ppsInLoss s = .next { s with tim := { s.tim with ppsLock := false, holdover := true, ppsGood := 0 } })) ∧
  (∀ s : State,
    let serves := s.tim.ptpEn = true ∧ s.tim.transports ≠ 0 ∧ s.alive = true
    (¬serves → exec .ptpSync s = .next s ∧ ∀ r, exec (.ptpDelayReq r) s = .next s) ∧
    (serves → ∃ t, exec .ptpSync s = .next t ∧ t.tim.ptpLast = some (s.tim.ptpSeq, s.tim.now) ∧
      t.tim.ptpSeq = (s.tim.ptpSeq + 1) % 65536 ∧ (t.rsp.words.getD 0 0).toNat = s.tim.ptpSeq % 2 ^ 64 ∧
      (t.rsp.words.getD 1 0).toNat = s.tim.now % 2 ^ 64 ∧ t = { s with tim := t.tim, rsp := t.rsp } ∧ t.tim.now = s.tim.now ∧
      (s.tim.ptpAnn = none → t.tim.ptpAnn = some s.tim.up) ∧
      (∀ a, s.tim.ptpAnn = some a → t.tim.ptpAnn = some (if a + 1000000000 ≤ s.tim.up then s.tim.up else a))) ∧
    (serves → ∀ r : PtpReq,
      (r.domain = s.tim.ptpDomain → bit s.tim.transports r.transport = true → exec (.ptpDelayReq r) s = .next (s.answer Status.ok
        [BitVec.ofNat 64 r.seq, BitVec.ofNat 64 s.tim.now, BitVec.ofNat 64 s.tim.ptpDomain])) ∧
      (r.domain ≠ s.tim.ptpDomain ∨ bit s.tim.transports r.transport = false → exec (.ptpDelayReq r) s = .next s))) ∧
  (∀ s : State,
    let ns := s.tim.now % 1000000000
    (s.tim.ppsOut = true → s.mon.switch = true → ns ≤ 1 ∨ 999999999 ≤ ns →
      exec (.ppsOutEdge true) s = .next { s with tim := { s.tim with ppsHigh := true } }) ∧
    (s.tim.ppsOut = false ∨ s.mon.switch = false ∨ (1 < ns ∧ ns < 999999999) → exec (.ppsOutEdge true) s = .next s) ∧
    (s.tim.ppsHigh = true → s.tim.ppsW * 1000000 ≤ ns → exec (.ppsOutEdge false) s = .next { s with tim := { s.tim with ppsHigh := false } }) ∧
    (s.tim.ppsHigh = false ∨ ns < s.tim.ppsW * 1000000 → exec (.ppsOutEdge false) s = .next s)) ∧
  (∀ (v : Nat) (x : Tim), let y := x.putCfg v
    y.cand = v.testBit 0 ∧ y.prio = v / 2 % 256 ∧ y.now = x.now ∧
    (v / 2048 % 512 = 0 ∨ 500 < v / 2048 % 512 → y.ppsW = x.ppsW) ∧
    (1 ≤ v / 2048 % 512 → v / 2048 % 512 ≤ 500 → y.ppsW = v / 2048 % 512))

/-- The start-up sequence (16 R430; 17 R446-R451, R455; 14 R375-R377, R384; 18 R465, R466): each phase does its work only while the module is
in it, powered and not tripped, and then goes to the next; a failing copy leaves the other; straps must have odd parity and z at most 16; a
fault pattern of OTP, a failed self-test and an image without a good copy end in Safe-Listen; a unit that fails its test is fenced; a section
with fewer than 12 good beds is fenced; READY needs the sluice keys and the end of the Aquifer phase, and MON_SVC shows the services of the
units that passed. Each cause resets the module where its rule lets it. -/
def Obligations.StartUpRows : Prop :=
  (∀ s : State,
    let idle := fun (p : Phase) => s.mon.phase ≠ p ∨ s.alive = false ∨ s.mon.tripped = true
    (idle .rom → ∀ a b c, exec (.rom a b c) s = .next s) ∧ (idle .otp → exec .otp s = .next s) ∧
    (idle .chrTest → ∀ a b, exec (.chrysalisTest a b) s = .next s) ∧ (idle .firmware → ∀ c, exec (.firmware c) s = .next s) ∧
    (idle .identity → exec .identity s = .next s) ∧ (idle .rails → exec .rails s = .next s) ∧
    (idle .memTest → ∀ l, exec (.memoryTest l) s = .next s) ∧ (idle .logicTest → ∀ l, exec (.logicTest l) s = .next s) ∧
    (idle .stacks → ∀ l, exec (.stacks l) s = .next s) ∧
    (idle .keys → (∀ l, exec (.keys l) s = .next s) ∧ ∀ l, exec (.ready l) s = .next s)) ∧
  (∀ s : State, s.alive = true → s.mon.tripped = false →
    (s.mon.phase = .rom → ∀ (d : Digest) (w : Nat), exec (.rom false d w) s = .next { s with mon := { s.mon with silent := true } } ∧
      (let t : State := { s with chr := { s.chr with digests := [d] } }
       (strapsSound w = true → exec (.rom true d w) s = .next ((t.placeAt (strapPos w)).setPhase .otp)) ∧
       (strapsSound w = false → ∃ u, exec (.rom true d w) s = .next u ∧ u.mon.phase = .otp ∧ u.mon.strapsOk = false ∧
         ∀ n, n < 48 → (u.link n).state = .fenced))) ∧
    (s.mon.phase = .otp →
      (s.chr.otp.faulty = true → ∃ t, exec .otp s = .next t ∧ t.mon.phase = .safeListen ∧ t.mon.fstat = Status.lcFault ∧ t.chr = s.chr) ∧
      (s.chr.otp.faulty = false → s.resumeOtp = none → ∃ t, exec .otp s = .next t ∧ t.mon.phase = .safeListen ∧ t.mon.fstat = Status.lcFault) ∧
      (s.chr.otp.faulty = false → s.chr.otp.secret.isSome = true → ∃ t, exec .otp s = .next t ∧ t.mon.phase = .chrTest ∧
        t.chr.lcs = t.chr.otp.state ∧ ∀ i, i < 3 → s.chr.otp.marked i = true → t.chr.otp.reached i = true) ∧
      (s.chr.otp.faulty = false → s.chr.otp.state = .blank → s.chr.otp.marked 0 = false → s.chr.otp.marked 1 = false →
        s.chr.otp.marked 2 = false → ∃ t, exec .otp s = .next t ∧ t.mon.phase = .chrTest ∧ t.chr = { s.chr with lcs := .blank })) ∧
    (s.mon.phase = .chrTest →
      (∃ t, exec (.chrysalisTest true true) s = .next t ∧ t.mon.phase = .firmware ∧ t = { s with mon := t.mon, chr := t.chr, free := s.free + 512 } ∧
        t.chr = { s.chr with vault := t.chr.vault } ∧ ∀ i, i < 256 → (t.vslot i).valid = false) ∧
      (∀ b, ∃ t, exec (.chrysalisTest false b) s = .next t ∧ t.mon.phase = .safeListen ∧ t.mon.fstat = Status.integrity) ∧
      (∃ t, exec (.chrysalisTest true false) s = .next t ∧ t.mon.phase = .safeListen ∧ t.mon.fstat = Status.trngFail ∧
        t.chr.trngFailed = true)) ∧
    (s.mon.phase = .firmware → (∀ l : List (FwCopy × FwCopy), l.length ≠ 3 → exec (.firmware l) s = .next s) ∧
      ∀ a b c x y z : FwCopy,
      let run := fun (i : Nat) (p q : FwCopy) =>
        let p := flashCopy s.mon.imgA i p
        let q := flashCopy s.mon.imgB i q
        let floor := s.chr.otp.svnmin.getD i 0
        if copyPasses floor p then some (false, p) else if copyPasses floor q then some (true, q) else none
      (∀ u v w, run 0 a x = some u → run 1 b y = some v → run 2 c z = some w →
        ∃ t, exec (.firmware [(a, x), (b, y), (c, z)]) s = .next t ∧ t.mon.phase = .identity ∧ t.mon.fwb = (u.1 || v.1 || w.1) ∧
          t.chr.digests = s.chr.digests.take 1 ++ [u.2.digest, v.2.digest, w.2.digest] ∧
          t.chr.svns = [Config.romSvn, u.2.svn, v.2.svn, w.2.svn] ∧ t.pwr.warn = s.mon.storedSag.1 ∧ t.pwr.rst = s.mon.storedSag.2) ∧
      (run 0 a x = none ∨ run 1 b y = none ∨ run 2 c z = none →
        ∃ t, exec (.firmware [(a, x), (b, y), (c, z)]) s = .next t ∧ t.mon.phase = .safeListen ∧ t.mon.fstat = Status.denied)) ∧
    (s.mon.phase = .identity →
      (s.chr.lcs = .blank ∨ s.chr.lcs = .endOfLife → exec .identity s = .next (s.setPhase .rails)) ∧
      (s.chr.lcs = .test ∨ s.chr.lcs = .production →
        let dik := derivePriv s.chr.otp.rsBytes (ascii "D20 DIK") (beBytes 8 Config.uid.toNat)
        exec .identity s = .next ((s.putPriv 0 dik Usage.sign).deriveAk.setPhase .rails))) ∧
    (s.mon.phase = .rails → ∃ t, exec .rails s = .next t ∧
      t = { s with mon := { s.mon with rails := true, phase := .memTest }, pwr := { s.pwr with point := 8, bedPoint := t.pwr.bedPoint } } ∧
      ∀ b, b < 160 → sget 0 t.pwr.bedPoint b = 9) ∧
    (s.mon.phase = .memTest → (s.pwr.why Why.thermalHard = true → ∀ l, exec (.memoryTest l) s = .next s) ∧
      (s.pwr.why Why.thermalHard = false → ∀ l, exec (.memoryTest l) s = .next (s.tested l .logicTest))) ∧
    (s.mon.phase = .logicTest → (s.pwr.why Why.thermalHard = true → ∀ l, exec (.logicTest l) s = .next s) ∧
      (s.pwr.why Why.thermalHard = false →
        (∀ l, exec (.logicTest l) s = .next (if (s.tested l .stacks).starting then (s.tested l .stacks).bedsTested else s.tested l .stacks)) ∧
        (s.mon.fails = [] → s.mon.fenceList = [] → ∃ t, exec (.logicTest []) s = .next t ∧ t.mon.phase = .stacks ∧
          ∀ n, n < 10 → (t.sec n).good = 65535 ∧ t.goodBeds n = 16 ∧ (t.sec n).fenced = (s.sec n).fenced))) ∧
    (s.mon.phase = .stacks → ∀ l, exec (.stacks l) s = .next (s.tested l .keys)) ∧
    (s.mon.phase = .keys →
      (∀ l, (s.tested l .keys).starting = false ∨ (s.tested l .keys).chr.trngFailed = true →
        exec (.keys l) s = .next (s.tested l .keys)) ∧
      (s.chr.trngFailed = false →
        ∃ t, exec (.keys []) s = .next t ∧ t.mon.phase = .keys ∧ (t.vslot 4).valid = true ∧ (t.vslot 5).valid = true ∧
          t.aqf.k1.key = t.memKey 5 "D20 AQF XTS1" ∧ t.aqf.k2.key = t.memKey 5 "D20 AQF XTS2" ∧ t.aqf.km.key = t.memKey 5 "D20 AQF MAC" ∧
          ∀ n, n < 20 → ((s.sec (n / 2)).fenced = true → t.slu n = s.slu n) ∧
            ((s.sec (n / 2)).fenced = false → (t.slu n).keyed = true ∧ (t.slu n).ready = true ∧ (t.slu n).initpm = 1000 ∧
              (t.slu n).k1.key = t.memKey 4 "D20 RES XTS1" ∧ (t.slu n).k2.key = t.memKey 4 "D20 RES XTS2" ∧
              (t.slu n).km.key = t.memKey 4 "D20 RES MAC" ∧
              (t.slu n).root = {} ∧ (t.slu n).nodes = [] ∧ (t.slu n).prim = [] ∧ (t.slu n).mirr = [] ∧ (t.slu n).poison = [])) ∧
      ((s.vslot 4).valid = false ∨ s.mon.aqfDone = false → ∀ plan, exec (.ready plan) s = .next s) ∧
      ((s.vslot 4).valid = true → s.mon.aqfDone = true → ∀ plan : List (Nat × Bool), ∃ t, exec (.ready plan) s = .next t ∧
        t.mon.phase = .ready ∧ t.mon.mgmt = true ∧ t.mon.vfEn = true ∧
        (t.mon.fabric = true ↔ .headworks ∉ s.mon.fails) ∧
        (t.mon.compute = true ↔ .syn ∉ s.mon.fails ∧ .dma ∉ s.mon.fails ∧ (∀ n b, .passThrough n b ∉ s.mon.fails) ∧
          ∃ n, n < 10 ∧ (s.sec n).fenced = false) ∧
        (t.mon.aquifer = true ↔ t.mon.compute = true ∧ 0 < s.aqf.ports) ∧
        (∀ n, n < 10 → t.mon.sections.testBit n = !(s.sec n).fenced) ∧ t.secs = s.secs ∧
        ∀ n i, n < 48 → i < 64 → sget (0, false) (t.link n).slots i =
          (if (plan.getD i (0, false)).2 then ((plan.getD i (0, false)).1 % 65536, true) else (0, false))))) ∧
  (∀ (l : List FailUnit) (p : Phase) (s : State), s.starting = true →
    s.tested [] p = s.setPhase p ∧
    (∀ n b : Nat, n < 10 → b < 16 → l = [.bed n b] ∨ l = [.passThrough n b] →
      ((s.tested l p).sec n).good.testBit b = false ∧ (s.tested l p).mon.phase = p ∧
      ∀ k, k ≠ n → (s.tested l p).sec k = s.sec k) ∧
    (∀ n : Nat, n < 10 → (∃ k b, k / 2 = n ∧ (l = [.stack k b] ∨ l = [.sluice k])) ∨ l = [.siphon n] ∨ l = [.allocator n] ∨ l = [.stu n] →
      ((s.tested l p).sec n).fenced = true ∧ (s.tested l p).mon.phase = p ∧ ∀ k, k ≠ n → (s.tested l p).sec k = s.sec k) ∧
    (∀ n, n < 48 → l = [.port n] → ((s.tested l p).link n).state = .fenced ∧ ((s.tested l p).link n).cstat = Status.linkDown ∧
      (s.tested l p).mon.phase = p) ∧
    (l = [.syn] ∨ l = [.dma] ∨ l = [.headworks] → (s.tested l p).mon.phase = p ∧ (s.tested l p).mon.fails = s.mon.fails ++ l) ∧
    (∀ lanes late, l = [.hostLanes lanes late] →
      let w := if lanes = [] then 0 else if ∃ x ∈ lanes, x < 4 then 3 else if ∃ x ∈ lanes, x < 8 then 2 else 1
      (s.tested l p).mon.width = w ∧ (w < 3 → (s.tested l p).mon.phase = p) ∧
      (w = 3 → (s.tested l p).mon.phase = .safeListen ∧ (s.tested l p).mon.hostUp = false ∧
        (s.tested l p).mon.fstat = (if late then Status.timeout else Status.integrity))) ∧
    (l = [.monarch] ∨ l = [.vault] → (s.tested l p).mon.phase = .safeListen ∧ (s.tested l p).mon.fstat = Status.integrity)) ∧
  (∀ (s : State) (n : Nat), n < 10 → s.bedsTested.goodBeds n < 12 → (s.bedsTested.sec n).fenced = true) ∧
  (∀ s : State,
    (∀ ports gib ok, s.alive = false ∨ s.starting = false ∨ s.mon.rails = false → exec (.aquifer ports gib ok) s = .next s) ∧
    (∀ ports gib, s.alive = true → s.starting = true → s.mon.rails = true →
      let t : State := { s with mon := { s.mon with aqfDone := true } }
      exec (.aquifer ports gib true) s = .next (
        let u : State := { t with aqf := { s.aqf with ports := min ports 2, gib := if ports = 0 then 0 else gib } }
        if ports < 2 then u.bootFence Status.timeout Blk.aqf 0 else u) ∧
      exec (.aquifer ports gib false) s =
        .next ({ t with aqf := { s.aqf with ports := 0, gib := 0 } }.bootFence Status.integrity Blk.aqf 0)) ∧
    (s.alive = true → exec .perstRelease s = .next { s with mon := { s.mon with
      perst := false, hostUp := !s.mon.tripped && decide (2 ≤ s.mon.phase.code) && s.mon.width != 3 } }) ∧
    (s.alive = false → exec .perstRelease s = .next { s with mon := { s.mon with perst := false } }) ∧
    (s.mon.en = true → s.mon.switch = false → s.mon.overvolt = false → exec .powerOn s = .next (s.powerUp .powerOn)) ∧
    (s.mon.en = false ∨ s.mon.switch = true ∨ s.mon.overvolt = true → exec .powerOn s = .next s) ∧
    (let closes := s.mon.en = true ∧ s.mon.switch = false ∧ s.mon.overvolt = false ∧ 480 ≤ s.pwr.input ∧ s.pwr.input ≤ 580
     ∀ cause ∈ ([.powerOn, .overvoltage] : List ResetCause),
      (closes → exec (.moduleReset cause) s = .next (s.powerUp cause)) ∧ (¬closes → exec (.moduleReset cause) s = .next s)) ∧
    (let may := fun (cause : ResetCause) => match cause with
      | .powerOn | .overvoltage => False
      | .supplySag => s.mon.tripped = false
      | .afterTrip => s.mon.tripped = true ∧ ∀ i, i < 48 → sget 0 s.pwr.junction i < 90
      | .afterFatal => s.mon.tripped = false ∧ (s.mon.phase = .fatal ∨ s.mon.phase = .safeListen)
      | .monCmd => s.mon.tripped = false ∧ s.mon.phase = .ready
     ∀ cause ∈ ([.supplySag, .afterTrip, .afterFatal, .monCmd] : List ResetCause),
      (s.alive = true → may cause → exec (.moduleReset cause) s = .next (s.moduleReset cause)) ∧
      (s.alive = false ∨ ¬may cause → exec (.moduleReset cause) s = .next s))) ∧
  (∀ w : Nat, strapsSound w = true ↔ ((List.range 15).filter (fun i => w.testBit i)).length % 2 = 1 ∧ w / 256 % 32 ≤ 16) ∧
  (∀ (cause : ResetCause) (s : State),
    let t := s.moduleReset cause
    t.mon.phase = .rom ∧ t.mon.resets = min (s.mon.resets + 1) 65535 ∧ t.mon.cause = causeCode cause ∧ t.mon.fenceList = s.mon.fenceList ∧
    t.ras = s.ras ∧ t.tim.now = s.tim.now ∧ t.tim.up = s.tim.up ∧ t.chr.otp = s.chr.otp ∧ t.pending = s.pending ∧ t.cores = [] ∧
    t.sluices = [] ∧ t.parts = [] ∧ t.chr.vault = [] ∧ (s.powerUp cause).ras.slots = [] ∧ (s.powerUp cause).mon.resets = 0 ∧
    (s.powerUp cause).mon.fenceList = [] ∧ (s.powerUp cause).mon.tripped = s.mon.tripped ∧ (s.powerUp cause).mon.silent = s.mon.silent)

/-- Records, fences and Monarch's commands (13 R356; 16 R430; 17 R446, R452, R455-R459, R461, R462; 18 R469, R478): a record takes the next
SEQ and slot, or merges into one; a severe one raises SMALERT# and stops its partition or the device; a runtime fence stops a bed's cores with
POISONED, after a failed logic check or the third memory error within 24 h; RESET, CLRFENCE, STAGE, COMMIT and ABORT do what their states
allow. -/
def Obligations.RecordAndMonarchRows : Prop :=
  (∀ s : State, (s.ras.inbox = [] → exec .rasRecord s = .next s) ∧
    (∀ r l, s.ras.inbox = r :: l → ∃ x ∈ r :: l, nextRec s.ras.inbox = some x ∧ x.time = r.time) ∧
    (∀ r : Rec, nextRec s.ras.inbox = some r →
      let x := { s.ras with inbox := s.ras.inbox.erase r }
      (∀ k b, x.mergeSlot r = some (k, b) → exec .rasRecord s = .next { s with ras := { x with
        slots := sset none x.slots k (some { b with count := b.count + 1, coalesced := true }), seqOf := sset 0 x.seqOf r.rid b.seq } }) ∧
      (x.mergeSlot r = none →
        let r' := { r with seq := x.next, cause := (r.causeRid.map (sget 0 x.seqOf)).getD 0 }
        let t := { s with
          mon := { s.mon with smalert := s.mon.smalert || decide (2 ≤ r.sev) }
          ras := { x with next := x.next + 1, wrap := x.wrap || (sget none x.slots (x.next % 4096)).isSome,
                          slots := sset none x.slots (x.next % 4096) (some r'), seqOf := sset 0 x.seqOf r.rid x.next,
                          flashQ := if 2 ≤ r.sev then x.flashQ ++ [r'] else x.flashQ } }
        (r.sev = Sev.partFatal → r.part < 10 → exec .rasRecord s = .next (t.partFatal r.part r.status x.next)) ∧
        (r.sev = Sev.devFatal → exec .rasRecord s = .next (t.deviceFatal r.status)) ∧
        (r.sev ≠ Sev.devFatal → r.sev ≠ Sev.partFatal ∨ 10 ≤ r.part → exec .rasRecord s = .next t)))) ∧
  (∀ (status seq : Nat) (s : State),
    (∀ p, p < 10 → swf {} s.fns = true → (s.part p).state = .active ∨ (s.part p).state = .preempted →
      let t := s.partFatal p status seq
      (t.part p).state = .stopped ∧ (t.part p).coc = .idle ∧ ∀ q, q < 64 → 1 ≤ q → (t.queue (p + 1) q).state ≠ .running) ∧
    (s.mon.phase = .ready → (s.deviceFatal status).mon.phase = .fatal ∧ (s.deviceFatal status).mon.fstat = status ∧
      (s.deviceFatal status).mon.compute = false) ∧
    (s.starting = true → s.deviceFatal status = s.safeListen status) ∧
    (s.mon.phase = .safeListen ∨ s.mon.phase = .fatal → s.deviceFatal status = s)) ∧
  (∀ s : State, (s.ras.flashQ = [] → exec .flashRecordCopy s = .next s) ∧
    (∀ r l, s.ras.flashQ = r :: l → ∃ t, exec .flashRecordCopy s = .next t ∧ t = { s with ras := t.ras } ∧ t.ras.flashQ = l ∧
      t.ras.next = s.ras.next ∧ t.ras.flash = keepLast 64 (s.ras.flash ++ [{ r with flashed := true }]) ∧
      t.ras.flash.getLast? = some { r with flashed := true } ∧ t.ras.flash.length ≤ 64 ∧
      (sget none s.ras.slots (r.seq % 4096) = some r → sget none t.ras.slots (r.seq % 4096) = some { r with flashed := true }))) ∧
  (∀ (n b : Nat) (s : State), n < 10 →
    (16 ≤ b ∨ s.bedGood n b = false → exec (.runtimeBedFence n (.logic b)) s = .next s) ∧
    (b < 16 → s.bedGood n b = true → ∃ t, exec (.runtimeBedFence n (.logic b)) s = .next t ∧ t.bedGood n b = false ∧
      t.mon.fenceList = s.mon.fenceList ++ [(n, b)] ∧ (t.sec n).good = (s.sec n).good ∧ (t.sec n).live = (s.sec n).live ∧
      sget 0 t.pwr.bedPoint (16 * n + b) = sget 0 (s.pwr.gate (16 * n + b)).bedPoint (16 * n + b) ∧
      ∃ r, t.ras.inbox.getLast? = some r ∧ r.status = Status.poisoned ∧ r.fence = true ∧ r.inst = n ∧ r.loc1 = b ∧
        r.sev = (if (s.secPart n).isSome then Sev.partFatal else Sev.corrected)) ∧
    (16 ≤ b → exec (.runtimeBedFence n (.memory b)) s = .next s) ∧
    (b < 16 →
      let l := (sget [] (s.sec n).errTimes b ++ [s.tim.up]).filter (fun t => decide (s.tim.up < t + 86400000000000))
      let t := s.setSec n { s.sec n with errTimes := sset [] (s.sec n).errTimes b l }
      (l.length < 3 → exec (.runtimeBedFence n (.memory b)) s = .next t) ∧
      (3 ≤ l.length → exec (.runtimeBedFence n (.memory b)) s = exec (.runtimeBedFence n (.logic b)) t))) ∧
  (∀ (path : Path) (s : State), monWrites path = false ∨ s.reach path = false →
    exec (.monCmdReset path) s = .next s ∧ exec (.monCmdClrfence path) s = .next s ∧ (∀ n, exec (.monFwctlStage path n) s = .next s) ∧
    (∀ i c, exec (.monFwctlCommit path i c) s = .next s) ∧ exec (.monFwctlAbort path) s = .next s) ∧
  (∀ (path : Path) (s : State), monWrites path = true → s.reach path = true →
    (s.mon.tripped = false → s.starting = true → exec (.monCmdReset path) s = .next (s.setMonCstat Status.state)) ∧
    (s.mon.tripped = false → s.starting = false → exec (.monCmdReset path) s =
      .next (s.moduleReset (if s.mon.phase = .fatal ∨ s.mon.phase = .safeListen then .afterFatal else .monCmd))) ∧
    (s.mon.tripped = true → (∀ i, i < 48 → sget 0 s.pwr.junction i < 90) →
      exec (.monCmdReset path) s = .next (s.moduleReset .afterTrip)) ∧
    (s.mon.tripped = true → (∃ i, i < 48 ∧ 90 ≤ sget 0 s.pwr.junction i) →
      exec (.monCmdReset path) s = .next (s.setMonCstat Status.state)) ∧
    (s.mon.phase = .ready ∨ s.mon.phase = .fatal →
      exec (.monCmdClrfence path) s = .next { s with mon := { s.mon with fenceList := [], cmdCstat := Status.ok } }) ∧
    (s.mon.phase ≠ .ready → s.mon.phase ≠ .fatal → exec (.monCmdClrfence path) s = .next (s.setMonCstat Status.state)) ∧
    (s.mon.fwBusy = true → (∀ n, exec (.monFwctlStage path n) s = .next s) ∧ (∀ i c, exec (.monFwctlCommit path i c) s = .next s) ∧
      exec (.monFwctlAbort path) s = .next s) ∧
    (s.mon.fwBusy = false → s.mon.phase ≠ .ready → s.mon.phase ≠ .fatal →
      (∀ n, exec (.monFwctlStage path n) s = .next (s.setFwCstat Status.state)) ∧
      (∀ i c, exec (.monFwctlCommit path i c) s = .next (s.setFwCstat Status.state)) ∧
      exec (.monFwctlAbort path) s = .next (s.setFwCstat Status.state)) ∧
    (s.mon.fwBusy = false → s.mon.phase = .ready ∨ s.mon.phase = .fatal →
      (∀ n, n = 0 ∨ 512 < n → exec (.monFwctlStage path n) s = .next (s.setFwCstat Status.bounds)) ∧
      (∀ n, 1 ≤ n → n ≤ 512 → s.mon.staging.length + n ≤ 3145728 → exec (.monFwctlStage path n) s = .next { s with
        mon := { s.mon with staging := s.mon.staging ++ sgets 0 s.mon.fwBuf 0 n, fwCstat := Status.ok } }) ∧
      (∀ n, 1 ≤ n → n ≤ 512 → 3145728 < s.mon.staging.length + n →
        exec (.monFwctlStage path n) s = .next (s.setFwCstat Status.quota)) ∧
      (∀ i c, 3 ≤ i → exec (.monFwctlCommit path i c) s = .next (s.setFwCstat Status.bounds)) ∧
      (∀ i c, i < 3 → c.sigOk = false ∨ c.svn < s.chr.otp.svnmin.getD i 0 →
        exec (.monFwctlCommit path i c) s = .next (s.setFwCstat Status.denied)) ∧
      (∀ i c, i < 3 → c.sigOk = true → s.chr.otp.svnmin.getD i 0 ≤ c.svn → exec (.monFwctlCommit path i c) s = .next { s with
        mon := { s.mon with fwBusy := true, fwPending := some (i, c), fwProg := 0 } }) ∧
      exec (.monFwctlAbort path) s = .next { s with mon := { s.mon with staging := [], fwCstat := Status.ok } })) ∧
  (∀ s : State, (s.mon.fwPending = none → exec .firmwareCommitDone s = .next s) ∧
    (∀ i c, s.mon.fwPending = some (i, c) →
      let x := { ({} : Image) with digest := c.digest, svn := c.svn }
      exec .firmwareCommitDone s = .next { s with mon := { s.mon with
        fwBusy := false, fwPending := none, fwCstat := Status.ok, fwProg := 1000, staging := []
        imgA := sset {} s.mon.imgA i x, imgB := sset {} s.mon.imgB i x } }))

/-- Register paths and single-register writes (00 R10-R14; 06 R176, R178; 11 R300, R328, R329; 12 R336, R340; 17 R452; 18 R469, R475): SMBus and
the management Ethernet read and write what they may; an access of another size reads all-ones or leaves a BOUNDS record; a write sets
the fields it may set; EN of IDN_AQCTL makes and destroys queue 0; quotas, WINDOW and CLR obey their limits. The answer to a malformed
frame, a LOG2 outside 4 to 15 and the all-ones of a bad read in every phase are the model's choices (log entries 49, 60 and 127). -/
def Obligations.RegisterAccessRows : Prop :=
  ((∀ (off : Nat) (v : Word) (count : Nat) (vs : List Word) (s : State), s.alive = false →
     exec (.smbusSetOffset off) s = .next s ∧ exec .smbusRead s = .next s ∧ exec (.smbusWrite off v) s = .next s ∧
     exec (.l2RegisterRead off count) s = .next s ∧ exec (.l2RegisterWrite off vs) s = .next s) ∧
   (∀ (off : Nat) (s : State), s.alive = true →
     exec (.smbusSetOffset off) s = .next { s with mon := { s.mon with smOff := off % 2 ^ 32 } } ∧
     (s.mon.smOff ≠ 0x3C00000 → exec .smbusRead s =
       .next ((s.readAt .smbus s.mon.smOff).2.answer Status.ok [(s.readAt .smbus s.mon.smOff).1])) ∧
     (s.mon.smOff = 0x3C00000 → ∃ t, exec .smbusRead s = .next t ∧ t.mon.smalert = false ∧ t.ras = s.ras ∧
       t.rsp.words = [BitVec.ofNat 64 (s.csr 0 .rasStat)])) ∧
   (∀ (off : Nat) (v : Word) (s : State),
     (s.writeAt .smbus off v = none → exec (.smbusWrite off v) s = .next s) ∧
     (s.alive = true → ∀ w, w < 512 → exec (.smbusWrite (0x101000 + 8 * w) v) s =
       .next (if s.mon.phase = .safeListen then s else { s with mon := { s.mon with fwBuf := sset 0 s.mon.fwBuf w v } })) ∧
     exec (.smbusWrite 0x400000 v) s = .next s) ∧
   (∀ (off count : Nat) (s : State), s.alive = true →
     (count = 0 ∨ 128 < count ∨ off % 8 ≠ 0 → exec (.l2RegisterRead off count) s = .next (s.answer Status.bounds)) ∧
     (1 ≤ count → count ≤ 128 → off % 8 = 0 → ∃ t, exec (.l2RegisterRead off count) s = .next t ∧ t.rsp.status = Status.ok ∧
       t.rsp.words.length = count ∧ t.rsp.words.head? = some (s.readAt .eth off).1)) ∧
   (∀ (off : Nat) (v : Word) (s : State), s.alive = true → off % 8 = 0 →
     (∀ t, s.writeAt .eth off v = some t → exec (.l2RegisterWrite off [v]) s = .next (t.answer Status.ok)) ∧
     (s.writeAt .eth off v = none → exec (.l2RegisterWrite off [v]) s = .next (s.answer Status.denied))) ∧
   (∀ (off : Nat) (vs : List Word) (s : State), s.alive = true →
     (vs = [] ∨ 128 < vs.length ∨ off % 8 ≠ 0 → exec (.l2RegisterWrite off vs) s = .next (s.answer Status.bounds)) ∧
     (vs ≠ [] → vs.length ≤ 128 → off % 8 = 0 →
       exec (.l2RegisterWrite off vs) s = .next ((s.writeMany off vs).2.answer (s.writeMany off vs).1))) ∧
   (∀ (off : Nat) (v : Word) (vs : List Word) (s : State),
     (∀ t, s.writeAt .eth off v = some t → s.writeMany off (v :: vs) = t.writeMany (off + 8) vs) ∧
     (s.writeAt .eth off v = none → s.writeMany off (v :: vs) = (Status.denied, (s.writeMany (off + 8) vs).2))) ∧
   (∀ (path : Path) (off : Nat) (isWrite : Bool) (s : State), s.reach path = false → exec (.csrBadAccess path off isWrite) s = .next s) ∧
   (∀ (path : Path) (off : Nat) (s : State), s.reach path = true →
     exec (.csrBadAccess path off false) s = .next (s.answer Status.ok [BitVec.allOnes 64]) ∧
     ∃ t r, exec (.csrBadAccess path off true) s = .next t ∧ t.ras.inbox = s.ras.inbox ++ [r] ∧ r.status = Status.bounds ∧
       r.sev = Sev.corrected ∧ t = { s with ras := t.ras }) ∧
   (∀ (path : Path) (v : Word) (s : State),
     let put (off : Nat) := exec (.registerWrite path off v) s
     (∀ off, s.writeAt path off v = none → put off = .next s) ∧ (s.reach path = false → ∀ off, put off = .next s) ∧
     (s.mayWrite path .timCfg = true → put 0x300010 = .next { s with
       tim := s.tim.putCfg v.toNat, mon := { s.mon with storedTim := (s.tim.putCfg v.toNat).cfg } }) ∧
     (s.mayWrite path .timNow = true → put 0x300000 = .next s) ∧
     (∀ w, w < 1024 → s.mayWrite path (.chrReq w) = true →
       let f := pathFn path
       put (0x202000 + 8 * w) = .next (s.setFn f { s.fn f with mbox := { (s.fn f).mbox with req := sset 0 (s.fn f).mbox.req w v } })) ∧
     (s.mayWrite path .idnAqsqb = true →
       put 0x1000 = .next (s.setFn (pathFn path) { s.fn (pathFn path) with aqSqb := v &&& ~~~0xFFF#64 })) ∧
     (s.mayWrite path .monCmd = true → v.toNat % 4 = 1 → put 0x100018 = exec (.monCmdReset path) s) ∧
     (s.mayWrite path .pwrCap = true → put 0x400000 = exec (.pwrCapWrite path v) s) ∧
     (∀ n, n < 48 → s.mayWrite path (.lnkCtrl n) = true → v.toNat % 8 = 4 → put (0x3000008 + 0x10000 * n) = exec (.lnkFence n) s)) ∧
   (∀ (off : Nat), winAt off = none → ∀ (path : Path) (s : State), s.readAt path off = (0, s)) ∧
   (∀ (k p : Nat) (w : Win) (s : State), k ≠ p + 1 → s.sees (.vf k) w (.synStagst p) = false)) ∧
  ((∀ (f : Nat) (v : Word) (s : State), f < 11 → s.reach (if f = 0 then .pf0 else .vf f) = false ∨ s.mon.phase = .safeListen →
     exec (.idnAqctlWrite f v) s = .next s) ∧
   (∀ (f : Nat) (v : Word) (s : State), f < 11 → s.reach (if f = 0 then .pf0 else .vf f) = true → s.mon.phase ≠ .safeListen →
     let x := s.fn f
     let sl := v.toNat % 16
     let cl := v.toNat / 16 % 16
     let en := v.toNat.testBit 14
     let y := s.queue f 0
     let t := s.setFn f { x with
       aqSqLog := sl, aqCqLog := cl, aqVec := v.toNat / 256 % 64, aqEn := en
       locHold := if x.anyRuns then x.locHold else none, secHold := if x.anyRuns then x.secHold else none }
     (en = true → x.aqEn = false → 4 ≤ sl → 4 ≤ cl → y.state = .absent → exec (.idnAqctlWrite f v) s =
       .next (State.flushHeld f 0 y.held.length (t.setQueue f 0 { ({} : Queue) with
         state := .running, sqBase := x.aqSqb.toNat, cqBase := x.aqCqb.toNat, sqLog := sl, cqLog := cl, vector := v.toNat / 256 % 64
         held := y.held }))) ∧
     (en = x.aqEn → exec (.idnAqctlWrite f v) s = .next t) ∧
     (sl < 4 ∨ cl < 4 ∨ y.state ≠ .absent → en = true → exec (.idnAqctlWrite f v) s = .next t) ∧
     (en = false → y.state = .absent → exec (.idnAqctlWrite f v) s = .next t) ∧
     (en = false → x.aqEn = true → y.state ≠ .absent →
       let u := t.setQueue f 0 { y with destroying := true }
       (y.busy = true → exec (.idnAqctlWrite f v) s = .next u) ∧
       (y.busy = false → ((u.cancelAll f 0).1.queue f 0).held = [] →
         exec (.idnAqctlWrite f v) s = .next ((u.cancelAll f 0).1.setQueue f 0 {})) ∧
       (y.busy = false → ((u.cancelAll f 0).1.queue f 0).held ≠ [] → exec (.idnAqctlWrite f v) s = .next (u.cancelAll f 0).1))) ∧
   (∀ (path : Path) (p r : Nat) (v : Word) (s : State), p < 10 →
     path ≠ .pf0 ∨ s.reach .pf0 = false ∨ s.mon.phase = .safeListen ∨ (s.synPart p).lock = true ∨ 2 ≤ r →
     exec (.synQuotaWrite path p r v) s = .next s) ∧
   (∀ (p : Nat) (v : Word) (s : State), p < 10 → s.reach .pf0 = true → s.mon.phase ≠ .safeListen → (s.synPart p).lock = false →
     let x := s.synPart p
     let n := v.toNat
     let put := fun (limit pool v : Nat) (get : SynPart → Nat) =>
       if limit < v ∨ pool < (((List.range 10).filter (· ≠ p)).map (fun i => get (s.synPart i))).sum + v then get x else v
     exec (.synQuotaWrite .pf0 p 0 v) s = .next (s.setSynPart p { x with
       qFence := put 16384 16384 (n % 2 ^ 15) (·.qFence), qSem := put 8192 8192 (n / 2 ^ 15 % 2 ^ 14) (·.qSem)
       qEvent := put 8192 8192 (n / 2 ^ 29 % 2 ^ 14) (·.qEvent) }) ∧
     exec (.synQuotaWrite .pf0 p 1 v) s = .next (s.setSynPart p { x with
       qWeir := put 64 512 (n % 2 ^ 7) (·.qWeir), qFweir := put 128 128 (n / 2 ^ 7 % 2 ^ 8) (·.qFweir)
       qRemote := put 4096 4096 (n / 2 ^ 15 % 2 ^ 13) (·.qRemote), qHwait := put 1024 1024 (n / 2 ^ 28 % 2 ^ 11) (·.qHwait)
       lock := n.testBit 63 })) ∧
   (∀ (path : Path) (p : Nat) (v : Word) (s : State), p < 10 →
     (path ≠ .vf (p + 1) ∨ s.reach path = false ∨ s.mon.phase = .safeListen → exec (.synStagWrite path p v) s = .next s) ∧
     (path = .vf (p + 1) → s.reach path = true → s.mon.phase ≠ .safeListen →
       exec (.synStagWrite path p v) s = .next (s.setSynPart p { s.synPart p with
         en := v.toNat.testBit 0, abort := v.toNat.testBit 1, window := max 100 (min 10000000 (v.toNat / 4 % 16777216)) }))) ∧
   (∀ (path : Path) (n e : Nat) (v : Word) (s : State), n < 10 → 256 ≤ e → exec (.secCenstagClr path n e v) s = .next s) ∧
   (∀ (path : Path) (n e : Nat) (v : Word) (s : State), n < 10 → e < 256 →
     (v.toNat.testBit 17 = false ∨ s.sees path (.sec n) (.secCenstag n e) = false → exec (.secCenstagClr path n e v) s = .next s) ∧
     (v.toNat.testBit 17 = true → s.sees path (.sec n) (.secCenstag n e) = true →
       let c := s.sec n
       exec (.secCenstagClr path n e v) s = .next (s.setSec n { c with
         census := sset {} c.census e { sget {} c.census e with words := [], valid := false } }))))

/-- The RC registers (00 R11, R13; 04 R134; 05 R159; 06 R178; 08 R238; 10 R299; 11 R330; 16 R445): a read that sees its register
answers the counts, each held to its field's width, and clears them, keeping the part below one unit; a read that does not see it
answers zero and clears nothing. What passed of a stall or a wait is a free value (log entry 47). -/
def Obligations.CounterReadRows : Prop :=
  let cap (n v : Nat) : Nat := min v (2 ^ n - 1)
  (∀ (path : Path) (c : Nat) (s : State), c < 2560 →
    let k := s.core c
    let n := c / 256
    let e := s.elapsed k.mxStallCc
    Reads (.secMxcntRead path c) s path (.sec n) (.secMxcnt c)
      (cap 32 k.mxProms + 2 ^ 32 * cap 16 k.mxSats + 2 ^ 48 * cap 8 k.mxNspec + 2 ^ 56 * cap 8 (e.1 / 16))
      (e.2.setCore c { k with mxProms := 0, mxSats := 0, mxNspec := 0, mxStallCc := e.1 % 16 }) ∧
    Reads (.secVccntRead path c) s path (.sec n) (.secVccnt c) (cap 32 k.vcSats + 2 ^ 32 * cap 16 k.vcNspec + 2 ^ 48 * cap 8 k.vcDrops)
      (s.setCore c { k with vcSats := 0, vcNspec := 0, vcDrops := 0 }) ∧
    Reads (.secVcwatchRead path c) s path (.sec n) (.secVcwatch c) (cap 32 k.watchLow + 2 ^ 32 * cap 32 k.watchHigh)
      (s.setCore c { k with watchLow := 0, watchHigh := 0 })) ∧
  (∀ (path : Path) (n e w : Nat) (s : State), n < 10 → e < 256 → w < 62 →
    let x := sget {} (s.sec n).census e
    Reads (.secCensusRead path n e w) s path (.sec n) (.secCensus n e w) (cap 32 (sget 0 x.words w))
      (s.setSec n { s.sec n with census := sset {} (s.sec n).census e { x with words := sset 0 x.words w 0 } })) ∧
  (∀ (path : Path) (n : Nat) (s : State), n < 20 →
    let x := s.slu n
    let u := s.elapsed x.waitUs
    Reads (.sluCounterRead path n 0) s path (.slu n) (.sluCtrstat n)
      (cap 32 (x.lookup / 64) + 2 ^ 32 * cap 16 (x.missCb / 16) + 2 ^ 48 * cap 16 x.missNd)
      (s.setSlu n { x with lookup := x.lookup % 64, missCb := x.missCb % 16, missNd := 0 }) ∧
    Reads (.sluCounterRead path n 1) s path (.slu n) (.sluMaint n)
      (cap 16 x.reenc + 2 ^ 16 * cap 16 x.rekey + 2 ^ 32 * cap 16 (x.partialW / 64) + 2 ^ 48 * cap 16 (u.1 / 1000))
      (u.2.setSlu n { x with reenc := 0, rekey := 0, partialW := x.partialW % 64, waitUs := u.1 % 1000 }) ∧
    Reads (.sluCounterRead path n 2) s path (.slu n) (.sluErr n)
      (cap 16 x.eccC + 2 ^ 16 * cap 8 x.repair + 2 ^ 24 * cap 8 x.linePoi + 2 ^ 32 * cap 8 x.integ + 2 ^ 40 * cap 8 x.treeLost)
      (s.setSlu n { x with eccC := 0, repair := 0, linePoi := 0, integ := 0, treeLost := 0 }) ∧
    (∀ ch, ch < 32 → let e := sget {} x.eyes ch
      Reads (.sluEyeRead path n ch) s path (.slu n) (.sluEye n ch)
        (e.phase % 64 + 2 ^ 6 * (e.vref % 128) + 2 ^ 13 * cap 5 e.margin + 2 ^ 18 * (e.lane % 64) + 2 ^ 24 * cap 16 e.moves)
        (s.setSlu n { x with eyes := sset {} x.eyes ch { e with moves := 0 } }))) ∧
  (∀ (path : Path) (n : Nat) (s : State), n < 10 →
    let c := s.sec n
    let a := s.elapsed c.stFence
    let b := a.2.elapsed c.stTag
    let d := b.2.elapsed c.stCatch
    let g := d.2.elapsed c.stIngress
    let h := g.2.elapsed c.stSlot
    Reads (.sipStallRead path n) s path (.sip n) (.sipStall n)
      (cap 12 (a.1 / 1000) + 2 ^ 12 * cap 12 (b.1 / 1000) + 2 ^ 24 * cap 12 (d.1 / 1000) + 2 ^ 36 * cap 12 (g.1 / 1000) +
        2 ^ 48 * cap 12 (h.1 / 1000))
      (h.2.setSec n { c with stFence := a.1 % 1000, stTag := b.1 % 1000, stCatch := d.1 % 1000, stIngress := g.1 % 1000, stSlot := h.1 % 1000 }) ∧
    Reads (.aqfCatchRead path n) s path .aqf (.aqfCatch n) (cap 24 c.hits + 2 ^ 24 * cap 24 c.misses + 2 ^ 48 * cap 16 c.bypass)
      (s.setSec n { c with hits := 0, misses := 0, bypass := 0 })) ∧
  (∀ (path : Path) (n : Nat) (s : State), n < 48 →
    let l := s.link n
    Reads (.lnkCntRead path n) s path (.lnk n) (.lnkCnt n)
      (cap 16 (l.corr / 65536) + 2 ^ 16 * cap 16 l.uncorr + 2 ^ 32 * cap 16 l.replays + 2 ^ 48 * cap 8 l.authf + 2 ^ 56 * cap 8 l.resync)
      (s.setLink n { l with corr := l.corr % 65536, uncorr := 0, replays := 0, authf := 0, resync := 0 }) ∧
    Reads (.hwkDropRead path n) s path (.lnk n) (.hwkDrop n)
      (cap 16 l.stale + 2 ^ 16 * cap 16 l.aged + 2 ^ 32 * cap 16 l.notready + 2 ^ 48 * cap 16 l.malformed)
      (s.setLink n { l with stale := 0, aged := 0, notready := 0, malformed := 0 })) ∧
  (∀ (path : Path) (e : Nat) (s : State), e < 64 →
    let g := s.rg e
    let a := s.elapsed g.stallL
    let b := a.2.elapsed g.stallP
    Reads (.hwkRgCounterRead path e 0) s path .rg (.hwkRgcnt e)
      (cap 16 g.commits + 2 ^ 16 * cap 16 g.short + 2 ^ 32 * cap 16 g.fulldrop + 2 ^ 48 * cap 16 (g.discard / 1024))
      (s.setRg e { g with commits := 0, short := 0, fulldrop := 0, discard := g.discard % 1024 }) ∧
    Reads (.hwkRgCounterRead path e 1) s path .rg (.hwkRgtok e) (g.free + 2 ^ 13 * cap 12 (a.1 / 1000) + 2 ^ 25 * cap 12 (b.1 / 1000))
      (b.2.setRg e { g with stallL := a.1 % 1000, stallP := b.1 % 1000 })) ∧
  (∀ (path : Path) (p : Nat) (s : State), p < 10 →
    let x := s.synPart p
    Reads (.synStagstRead path p) s path .syn (.synStagst p) x.stagst (s.setSynPart p { x with events := 0 }) ∧
    Reads (.synCntRead path p) s path .syn (.synCnt p)
      (cap 16 x.cOrder + 2 ^ 16 * cap 16 x.cUnder + 2 ^ 32 * cap 16 x.cAband + 2 ^ 48 * cap 16 x.cRfail)
      (s.setSynPart p { x with cOrder := 0, cUnder := 0, cAband := 0, cRfail := 0 })) ∧
  (∀ (n : Nat) (s : State), n < 10 →
    let c := s.sec n
    let a := s.elapsed c.mxBusy
    let b := a.2.elapsed c.stallCrd
    let d := b.2.elapsed c.stallTok
    let v := cap 32 (a.1 / 65536) + 2 ^ 32 * cap 16 (b.1 / 65536) + 2 ^ 48 * cap 16 (d.1 / 65536)
    let t := d.2.setSec n { c with mxBusy := a.1 % 65536, stallCrd := b.1 % 65536, stallTok := d.1 % 65536 }
    Reads (.idnPerfRead .pf0 n) s .pf0 .idn (.idnPerf n) v t ∧
    (∀ p o, p < 10 → o < 10 → s.secOf p o = some n → Reads (.idnPerfRead (.vf (p + 1)) o) s (.vf (p + 1)) .idn (.idnPerf o) v t)) ∧
  (∀ (path : Path) (s : State),
    let th (i : Nat) : Nat := sget 0 s.pwr.thr i
    let ms (i : Nat) : Nat := cap 16 (th i / 100)
    let rest (m : Store Nat) (i : Nat) : Store Nat := sset 0 m i (sget 0 m i % 100)
    let t0 := rest (rest (rest (rest s.pwr.thr 0) 1) 3) 4
    let t1 := rest (rest (rest s.pwr.thr 5) 6) 2
    Reads (.pwrThrRead path 0) s path .pwr (.pwrThr 0) (ms 0 + 2 ^ 16 * ms 1 + 2 ^ 32 * ms 3 + 2 ^ 48 * ms 4)
      { s with pwr := { s.pwr with thr := t0 } } ∧
    Reads (.pwrThrRead path 1) s path .pwr (.pwrThr 1) (ms 5 + 2 ^ 16 * ms 6 + 2 ^ 32 * ms 2 + 2 ^ 48 * cap 16 (th 7))
      { s with pwr := { s.pwr with thr := sset 0 t1 7 0 } } ∧
    (∀ n e k : Nat,
      (n < 20 → 3 ≤ k → exec (.sluCounterRead path n k) s = .next s) ∧ (n < 20 → 32 ≤ k → exec (.sluEyeRead path n k) s = .next s) ∧
      (n < 10 → 256 ≤ e ∨ 62 ≤ k → exec (.secCensusRead path n e k) s = .next s) ∧
      (n < 64 → 2 ≤ k → exec (.hwkRgCounterRead path n k) s = .next s) ∧ (2 ≤ k → exec (.pwrThrRead path k) s = .next s)) ∧
    Reads (.pwrSleepDropsRead path) s path .pwr .pwrSleep (s.pwr.sleep.code + 2 ^ 4 * s.pwr.sleepCstat + 2 ^ 12 * cap 16 s.pwr.drops)
      { s with pwr := { s.pwr with drops := 0 } })

/-- The encoding of Pezal (03 R71-R80, R84-R97): every instruction that has an encoding is read back from its word, with every operand at
every value; and every word that the decoder takes is the encoding of what it reads, so no bit is ignored. -/
def Obligations.PezalRoundTrip : Prop :=
  (∀ i : PInstr, i.wf = true → decodePezal (encodePezal i) = some i) ∧
  (∀ (w : Word) (i : PInstr), decodePezal w = some i → i.wf = true ∧ encodePezal i = w)

/-- The words that 03 works out field by field, read back as the instructions they stand for: CT.ADDI s5, s0, 0x240 (03 R72, R75, R81); the
MX.MMA (03 R76, R77, R88) and the SY.FSIG (03 R76, R77, R94) of its examples; and two words that encode nothing (03 R73). -/
def Obligations.PezalWords : Prop :=
  decodePezal 0x044A000000000240 = some (.imm .addi 5 0 0x240) ∧
  decodePezal 0x2065749C00000000 = some (.mx (.mma 3 true false) ⟨some 2, some (7, 9)⟩) ∧
  decodePezal 0x6041365008600000 = some (.sy .fsig ⟨none, some (3, 12)⟩ .outflow false 0 4 6) ∧
  decodePezal 0 = none ∧ decodePezal (BitVec.allOnes 64) = none

/-- No command puts a command into the queue or takes one out: the queue is the sender's and the step's alone. -/
def Obligations.CommandsLeaveTheQueue : Prop :=
  ∀ (c : Instr) (s t : State), exec c s = .next t → t.pending = s.pending

/-- A command that names only units the device has (00 R6) always has its effect; a core, section, sluice, port, function, partition, bed or
sensor that it does not have is the only thing that stops the model, by name. -/
def Obligations.WellFormedCommandsComplete : Prop :=
  (∀ (c : Instr) (s : State), c.wf = true → ∃ t, exec c s = .next t) ∧
  (∀ (c : Instr) (s : State), (∃ t, exec c s = .next t) ∨ ∃ what, exec c s = .fault (.noSuchUnit what))

/-- Host memory, the Reservoir and the stores of the units keep their canonical form, whatever command runs: equal machines are equal data. -/
def Obligations.StoresStayCanonical : Prop :=
  ∀ (s t : State), Canonical s → step s = .next t → Canonical t

/-- The module right after reset (02 R70; 11 R300, R329; 16 R445; 17 R446, R447): the ROM phase, registers at their Reset columns, every core
halted, no tag held, and the invariants of the model hold. Unwritten host memory reading as zero is the model's choice (log entry 4). -/
def Obligations.ResetState : Prop :=
  Canonical State.reset ∧ BlocksAscending State.reset ∧ State.reset.pending = [] ∧ State.reset.hostMem = [] ∧ State.reset.mon.phase = .rom ∧
  State.reset.csr 0 .monBoot = 0 ∧ State.reset.csr 0 .pwrCap = 2900 ∧ State.reset.csr 0 .pwrSag = 450 + 420 * 2 ^ 9 ∧
  State.reset.csr 0 .timCfg = 1 + 128 * 2 ^ 1 + 2 ^ 9 + 2 ^ 10 + 100 * 2 ^ 11 ∧ State.reset.csr 0 .pwrSleep = 0 ∧
  (∀ p, p < 10 → State.reset.csr 0 (.synStag p) = 1 + 10000 * 2 ^ 2 ∧ (State.reset.part p).state = .free) ∧
  (∀ c, c < 2560 → State.reset.csr 0 (.secCstat c) = 2) ∧ (∀ n, n < 48 → State.reset.csr 0 (.lnkStatus n) = 0) ∧
  (∀ n, n < 20 → State.reset.csr 0 (.sluTags n) = 1024)

/-- Register s0 (03 R74): it always reads as zero, and a write to it is discarded; every other register reads what was written last. -/
def Obligations.RegisterZero : Prop :=
  ∀ (k : Core) (v : Word), k.reg 0 = 0 ∧ k.setReg 0 v = k ∧
    (∀ r : Reg, r ≠ 0 → swf 0 k.regs = true → (k.setReg r v).reg r = v ∧ ∀ x : Reg, x ≠ r → (k.setReg r v).reg x = k.reg x)

/-- An offset inside a block's window that no register map defines (00 R11) reads as zero and ignores writes, on every path; a write to an
offset in no window is ignored as well. -/
def Obligations.UndefinedOffsetsReadAsZero : Prop :=
  ∀ (path : Path) (off : Nat) (s : State),
    (∀ (w : Win) (o : Nat), winAt off = some (w, o) → regIn w o = none →
      s.readAt path off = (0, s) ∧ ∀ v : Word, exec (.registerWrite path off v) s = .next s) ∧
    (winAt off = none → ∀ v : Word, exec (.registerWrite path off v) s = .next s)

end
end

