-- ==== Sys2Proof/Laws/Crypto.lean ====
section
/-! SUPPORT. What AES-256-GCM does to a flit: decryption under the same key and IV gives the plaintext back (09 R244); and what a root secret
bank holds (14 R375). -/

namespace Sys2Proof.Machine

/-- n big-endian bytes are n bytes. -/
@[simp] theorem beBytes_length (n x : Nat) : (beBytes n x).length = n := by
  induction n with
  | zero => rfl
  | succ n ih => simp [beBytes, ih]

/-- A string XORed twice with a key at least as long is itself. -/
theorem xorBytes_twice (a k : List Byte) (h : a.length ≤ k.length) : xorBytes (xorBytes a k) k = a := by
  induction a generalizing k with
  | nil => rfl
  | cons x a ih =>
    cases k with
    | nil => simp at h
    | cons y k =>
      have := ih k (by simpa using h)
      simp_all [xorBytes]

/-- The key stream keeps the length of a string in blocks. -/
theorem gcmCtr_length (rk : List (List Nat)) (k c : Nat) (l : List Byte) (h : l.length ≤ 16 * k) :
    (gcmCtr rk c (cutBlocks 16 k l)).length = l.length := by
  induction k generalizing c l with
  | zero => simp_all [cutBlocks, gcmCtr]
  | succ k ih =>
    by_cases e : l = []
    · simp [e, cutBlocks, gcmCtr]
    · have := ih (c / 2 ^ 32 * 2 ^ 32 + (c + 1) % 2 ^ 32) (l.drop 16) (by simp; omega)
      simp only [cutBlocks, List.isEmpty_iff, e, if_false, gcmCtr, List.length_append, this, xorBytes, List.length_zipWith,
        List.length_take, List.length_drop, beBytes_length]
      omega

/-- The key stream applied twice gives the string back. -/
theorem gcmCtr_twice (rk : List (List Nat)) (k c : Nat) (l : List Byte) (h : l.length ≤ 16 * k) :
    gcmCtr rk c (cutBlocks 16 k (gcmCtr rk c (cutBlocks 16 k l))) = l := by
  induction k generalizing c l with
  | zero => simp_all [cutBlocks, gcmCtr]
  | succ k ih =>
    by_cases e : l = []
    · simp [e, cutBlocks, gcmCtr]
    · have hd : (l.drop 16).length ≤ 16 * k := by simp; omega
      have hl := gcmCtr_length rk k (c / 2 ^ 32 * 2 ^ 32 + (c + 1) % 2 ^ 32) (l.drop 16) hd
      have hi := ih (c / 2 ^ 32 * 2 ^ 32 + (c + 1) % 2 ^ 32) (l.drop 16) hd
      have hx : (xorBytes (l.take 16) (beBytes 16 (aesNat rk (c / 2 ^ 32 * 2 ^ 32 + (c + 1) % 2 ^ 32)))).length = min 16 l.length := by
        simp [xorBytes]
      have hp : 0 < l.length := List.length_pos_of_ne_nil e
      have one : cutBlocks 16 (k + 1) l = l.take 16 :: cutBlocks 16 k (l.drop 16) := by simp [cutBlocks, e]
      rw [one, gcmCtr]
      generalize hX : xorBytes (l.take 16) (beBytes 16 (aesNat rk (c / 2 ^ 32 * 2 ^ 32 + (c + 1) % 2 ^ 32))) = X at *
      generalize hR : gcmCtr rk (c / 2 ^ 32 * 2 ^ 32 + (c + 1) % 2 ^ 32) (cutBlocks 16 k (l.drop 16)) = R at *
      rw [List.length_drop] at hl
      have ht : (X ++ R).take 16 = X ∧ (X ++ R).drop 16 = R := by
        by_cases g : 16 ≤ l.length
        · have : X.length = 16 := by omega
          constructor
          · rw [← this, List.take_left]
          · rw [← this, List.drop_left]
        · have : R = [] := List.eq_nil_of_length_eq_zero (by omega)
          subst this
          constructor
          · rw [List.append_nil, List.take_of_length_le (by omega)]
          · rw [List.append_nil, List.drop_of_length_le (by omega)]
      have ne : X ++ R ≠ [] := by
        intro h0
        have := congrArg List.length h0
        simp only [List.length_append, List.length_nil] at this
        omega
      have two : cutBlocks 16 (k + 1) (X ++ R) = X :: cutBlocks 16 k R := by
        simp only [cutBlocks, List.isEmpty_iff, if_neg ne, ht.1, ht.2]
      simp only [two, gcmCtr]
      rw [hi, ← hX, xorBytes_twice _ _ (by simp), List.take_append_drop]

/-- What GCM seals it opens. -/
theorem gcmOpen_seal (key : BitVec 256) (iv aad pt : List Byte) :
    gcmOpen key iv aad (gcmSeal key iv aad pt).1 (gcmSeal key iv aad pt).2 = some pt := by
  unfold gcmOpen gcmSeal
  simp only [if_true, blocksOf]
  have h : pt.length ≤ 16 * (pt.length / 16 + 1) := by omega
  rw [gcmCtr_length _ _ _ _ h, gcmCtr_twice _ _ _ _ h]

/-- The ciphertext is as long as the plaintext. -/
theorem gcmSeal_length (key : BitVec 256) (iv aad pt : List Byte) : (gcmSeal key iv aad pt).1.length = pt.length := by
  unfold gcmSeal
  exact gcmCtr_length _ _ _ _ (by omega)

/-- The tag has 16 bytes. -/
theorem gcmSeal_tag (key : BitVec 256) (iv aad pt : List Byte) : (gcmSeal key iv aad pt).2.length = 16 := by
  unfold gcmSeal
  simp

/-- n little-endian bytes are n bytes. -/
theorem leBytes_length (n x : Nat) : (leBytes n x).length = n := by
  induction n generalizing x with
  | zero => rfl
  | succ n ih => simp [leBytes, ih]

/-- A byte string's number has as many bytes. -/
theorem leNat_lt (l : List Byte) : leNat l < 256 ^ l.length := by
  induction l with
  | nil => exact Nat.one_pos
  | cons b r ih =>
    have hb : b.toNat < 256 := b.isLt
    simp only [leNat, List.length_cons, pow_succ]
    omega
/-- The bytes of a byte string's number are the string. -/
theorem leBytes_leNat (l : List Byte) : leBytes l.length (leNat l) = l := by
  induction l with
  | nil => rfl
  | cons b r ih =>
    have hb : b.toNat < 256 := b.isLt
    have h1 : (b.toNat + 256 * leNat r) / 256 = leNat r := by omega
    have h2 : BitVec.ofNat 8 (b.toNat + 256 * leNat r) = b := by
      apply BitVec.eq_of_toNat_eq
      simp only [BitVec.toNat_ofNat]
      omega
    simp only [leNat, List.length_cons, leBytes, h1, h2, ih]
/-- A sealed flit takes 256 bytes (09 R244). -/
theorem seal_length (m : Link) (x : Flit) (seq : Nat) (hb : x.body.length = 232) : (m.seal x seq).length = 256 := by
  simp only [Link.seal, List.length_append, leBytes_length, gcmSeal_length, gcmSeal_tag, hb]
/-- The bits of a decoded flit are taken out whole. -/
theorem takeBits_flit (b : List Byte) (hb : b.length = 256) : takeBits 2048 [(true, 2048, leNat b)] = some (true, leNat b, []) := by
  have h : leNat b < 2 ^ (8 * 256) := by
    have := leNat_lt b
    rw [hb] at this
    rwa [Nat.pow_mul]
  rw [takeBits, if_pos (Nat.le_refl _), if_pos rfl, Nat.mod_eq_of_lt h]

/-- A data flit that a port seals, its peer opens under the same key, salt and sequence number (09 R244, R248). -/
theorem openFlit_seal (l m : Link) (x : Flit) (seq : Nat) (hk : l.rxKey.key = m.txKey.key) (hs : l.rxSalt = m.txSalt)
    (hb : x.body.length = 232) (hw : leNat (leBytes 8 (flitWord x)) = flitWord x) (hf : flitOf (flitWord x) x.body = x)
    (hi : bit (flitWord x) 37 = x.idle) (hx : x.idle = false) (he : extSeq l.rxNext (bits (flitWord x) 0 16) = seq) :
    l.openFlit (m.seal x seq) = some (x, seq) := by
  have h8 := leBytes_length 8 (flitWord x)
  have hc := gcmSeal_length m.txKey.key (flitIv m.txSalt false seq) (leBytes 8 (flitWord x)) x.body
  have ht := gcmSeal_tag m.txKey.key (flitIv m.txSalt false seq) (leBytes 8 (flitWord x)) x.body
  have ho := gcmOpen_seal m.txKey.key (flitIv m.txSalt false seq) (leBytes 8 (flitWord x)) x.body
  rw [hx] at hi
  unfold Link.openFlit Link.seal
  dsimp only
  rw [hx]
  generalize leBytes 8 (flitWord x) = H at *
  generalize gcmSeal m.txKey.key (flitIv m.txSalt false seq) H x.body = g at *
  obtain ⟨C, T⟩ := g
  simp only at hc ht ho
  have e1 : (H ++ C ++ T).take 8 = H := by rw [List.append_assoc, ← h8, List.take_left]
  have e2 : slice (H ++ C ++ T) 8 232 = C := by
    rw [slice, List.append_assoc, ← h8, List.drop_left, ← hb, ← hc, List.take_left]
  have e3 : slice (H ++ C ++ T) 240 16 = T := by
    have : (H ++ C).length = 240 := by simp; omega
    rw [slice, ← this, List.drop_left, ← ht, List.take_length]
  simp only [e1, e2, e3, hw, hi, hk, hs, Bool.false_eq_true, if_false, he, ho, Option.map_some, hf]

/-! ### Forward error correction (09 R242) -/

/-- Nothing times a symbol. -/
theorem gf10MulFrom_zero (b n : Nat) : gf10MulFrom 0 b n 0 = 0 := by
  induction n with
  | zero => rfl
  | succ n ih =>
    have : gf10Double 0 = 0 := rfl
    simp only [gf10MulFrom, this, Nat.xor_zero, ite_self, ih]
/-- Zeros before a word change no syndrome. -/
theorem rsSyndromes_zeros (n : Nat) (w : List Nat) : rsSyndromes (List.replicate n 0 ++ w) = rsSyndromes w := by
  refine List.map_congr_left fun j _ => ?_
  rw [List.foldl_append]
  congr 1
  induction n with
  | zero => rfl
  | succ n ih =>
    rw [List.replicate_succ, List.foldl_cons, gf10Mul, gf10MulFrom_zero, Nat.xor_zero]
    exact ih
/-- The word of zeros is a codeword. -/
theorem rsDecode_zeros (n : Nat) : rsDecode (List.replicate n 0) = some (List.replicate n 0, 0) := by
  have h := rsSyndromes_zeros n []
  rw [List.append_nil] at h
  unfold rsDecode
  simp only [h]
  rfl
/-- A word whose error locator has more than 15 roots to find has more errors than can be put right. -/
theorem rsDecode_none (n : Nat) (w : List Nat) (hs : (rsSyndromes w).all (· == 0) = false)
    (hl : 15 < ((List.range 30).foldl (Locator.step (rsSyndromes w)) {}).len) : rsDecode (List.replicate n 0 ++ w) = none := by
  unfold rsDecode
  simp only [rsSyndromes_zeros, hs, Bool.false_eq_true, if_false]
  rw [if_neg]
  omega

/-! ### Root secret banks (14 R375) -/

/-- The left part of a concatenation. -/
theorem extract_left (x : BitVec 256) (m : BitVec 128) : (x ++ m : BitVec 384).extractLsb' 128 256 = x := by
  apply BitVec.eq_of_getLsbD_eq
  intro i hi
  rw [BitVec.getLsbD_extractLsb', BitVec.getLsbD_append]
  simp [hi]
/-- A bank that was written holds its secret. -/
theorem bankSecret_rsBank (x : BitVec 256) : bankSecret (rsBank x) = some x := by
  unfold bankSecret rsBank
  simp only [extract_left]
  simp

end Sys2Proof.Machine
end

