-- ==== Sys2Proof/Laws/Store.lean ====
section
/-! SUPPORT. The laws of sparse stores: a read after a write, and the canonical form that every operation keeps. -/

namespace Sys2Proof.Machine

/-! ### Reading after a write -/

/-- An empty store reads as unlisted everywhere. -/
@[simp] theorem sget_nil {α : Type} (d : α) (k : Nat) : sget d [] k = d := rfl

variable {α : Type} [DecidableEq α]

/-- Writing one key leaves every other key alone. -/
theorem sget_sset_ne (d : α) (m : Store α) (k j : Nat) (v : α) (h : j ≠ k) : sget d (sset d m k v) j = sget d m j := by
  induction m with
  | nil => unfold sset; split <;> simp [sget, h]
  | cons p r ih =>
    obtain ⟨k', v'⟩ := p
    unfold sset
    split
    · split <;> simp [sget, h]
    · split
      · rename_i h1 h2
        subst h2
        split <;> simp [sget, h]
      · simp only [sget, ih]

/-- Reading a key just written with a value that unlisted keys do not read as. -/
theorem sget_sset_same (d : α) (m : Store α) (k : Nat) (v : α) (h : v ≠ d) : sget d (sset d m k v) k = v := by
  induction m with
  | nil => simp [sset, sget, h]
  | cons p r ih =>
    obtain ⟨k', v'⟩ := p
    unfold sset
    split
    · simp [sget]
    · split
      · simp [sget]
      · rename_i h1 h2
        simp [sget, h2, ih]

/-- A key below every listed key reads as unlisted. -/
theorem sget_below (d : α) (n : Nat) (m : Store α) (k : Nat) (w : swfFrom d n m = true) (h : k < n) : sget d m k = d := by
  induction m generalizing n with
  | nil => rfl
  | cons p r ih =>
    obtain ⟨k', v'⟩ := p
    simp only [swfFrom, Bool.and_eq_true, decide_eq_true_eq] at w
    have h1 : k ≠ k' := by omega
    simp only [sget, h1, if_false]
    exact ih (k' + 1) w.2 (by omega)

/-- Reading a key just written, in a store in canonical form. -/
theorem sget_sset_wf (d : α) (n : Nat) (m : Store α) (k : Nat) (v : α) (w : swfFrom d n m = true) :
    sget d (sset d m k v) k = v := by
  by_cases hv : v = d
  · subst hv
    induction m generalizing n with
    | nil => simp [sset]
    | cons p r ih =>
      obtain ⟨k', v'⟩ := p
      simp only [swfFrom, Bool.and_eq_true, decide_eq_true_eq] at w
      unfold sset
      split
      · rename_i h1
        have h2 : k ≠ k' := by omega
        simp only [if_true, sget, h2, if_false]
        exact sget_below v (k' + 1) r k w.2 (by omega)
      · split
        · rename_i h1 h2
          subst h2
          simp only [if_true]
          exact sget_below v (k + 1) r k w.2 (by omega)
        · rename_i h1 h2
          simp only [sget, h2, if_false]
          exact ih (k' + 1) w.2
  · exact sget_sset_same d m k v hv

/-! ### Canonical form -/

/-- Canonical form from a key on is canonical form from any lower key on. -/
theorem swfFrom_mono (d : α) (n j : Nat) (m : Store α) (h : j ≤ n) (w : swfFrom d n m = true) : swfFrom d j m = true := by
  cases m with
  | nil => rfl
  | cons p r =>
    obtain ⟨k, v⟩ := p
    simp only [swfFrom, Bool.and_eq_true, decide_eq_true_eq] at w ⊢
    exact ⟨⟨by omega, w.1.2⟩, w.2⟩

/-- A write keeps the canonical form. -/
theorem swfFrom_sset (d : α) (n : Nat) (m : Store α) (k : Nat) (v : α) (h : n ≤ k) (w : swfFrom d n m = true) :
    swfFrom d n (sset d m k v) = true := by
  induction m generalizing n with
  | nil => unfold sset; split <;> simp_all [swfFrom]
  | cons p r ih =>
    obtain ⟨k', v'⟩ := p
    have w' := w
    simp only [swfFrom, Bool.and_eq_true, decide_eq_true_eq] at w
    unfold sset
    split
    · split
      · exact w'
      · simp only [swfFrom, Bool.and_eq_true, decide_eq_true_eq]
        exact ⟨⟨h, by assumption⟩, ⟨by omega, w.1.2⟩, w.2⟩
    · split
      · rename_i h1 h2
        subst h2
        split
        · exact swfFrom_mono d (k + 1) n r (by omega) w.2
        · simp only [swfFrom, Bool.and_eq_true, decide_eq_true_eq]
          exact ⟨⟨h, by assumption⟩, w.2⟩
      · simp only [swfFrom, Bool.and_eq_true, decide_eq_true_eq]
        exact ⟨w.1, ih (k' + 1) (by omega) w.2⟩

/-- A write keeps the canonical form of a store. -/
theorem swf_sset (d : α) (m : Store α) (k : Nat) (v : α) (w : swf d m = true) : swf d (sset d m k v) = true :=
  swfFrom_sset d 0 m k v (Nat.zero_le k) w

/-- Writing a run of keys keeps the canonical form of a store. -/
theorem swf_sputs (d : α) (m : Store α) (k : Nat) (l : List α) (w : swf d m = true) : swf d (sputs d m k l) = true := by
  induction l generalizing m k with
  | nil => exact w
  | cons v r ih => exact ih _ _ (swf_sset d m k v w)

/-- Mapping the entries of a store gives a store in canonical form, whatever the images are. -/
theorem swf_smap (d : α) (f : Nat → α → α) (m : Store α) : swf d (smap d f m) = true := by
  have h : ∀ (m r : Store α), swf d r = true → swf d (m.foldl (fun r e => sset d r e.1 (f e.1 e.2)) r) = true := by
    intro m
    induction m with
    | nil => intro r w; exact w
    | cons e m ih => intro r w; exact ih _ (swf_sset d r e.1 _ w)
  exact h m [] rfl

/-- Dropping entries keeps the canonical form of a store. -/
theorem swfFrom_filter (d : α) (n : Nat) (m : Store α) (p : Nat × α → Bool) (w : swfFrom d n m = true) :
    swfFrom d n (m.filter p) = true := by
  induction m generalizing n with
  | nil => rfl
  | cons e r ih =>
    obtain ⟨k, v⟩ := e
    simp only [swfFrom, Bool.and_eq_true, decide_eq_true_eq] at w
    rw [List.filter_cons]
    split
    · simp only [swfFrom, Bool.and_eq_true, decide_eq_true_eq]
      exact ⟨w.1, ih (k + 1) w.2⟩
    · exact swfFrom_mono d (k + 1) n _ (by omega) (ih (k + 1) w.2)

/-- Dropping entries keeps the canonical form of a store. -/
theorem swf_filter (d : α) (m : Store α) (p : Nat × α → Bool) (w : swf d m = true) : swf d (m.filter p) = true :=
  swfFrom_filter d 0 m p w

/-! ### Runs of keys -/

/-- Writing a run of keys leaves the keys outside it alone. -/
theorem sget_sputs_ne (d : α) (m : Store α) (k j : Nat) (l : List α) (h : j < k ∨ k + l.length ≤ j) :
    sget d (sputs d m k l) j = sget d m j := by
  induction l generalizing m k with
  | nil => rfl
  | cons v r ih =>
    simp only [List.length_cons] at h
    rw [sputs, ih _ _ (by omega)]
    exact sget_sset_ne d m k j v (by omega)

/-- Reading back a key of a run just written, in a store in canonical form. -/
theorem sget_sputs_wf (d : α) (m : Store α) (k i : Nat) (l : List α) (w : swf d m = true) (h : i < l.length) :
    sget d (sputs d m k l) (k + i) = l[i] := by
  induction l generalizing m k i with
  | nil => simp at h
  | cons v r ih =>
    cases i with
    | zero =>
      show sget d (sputs d (sset d m k v) (k + 1) r) k = v
      rw [sget_sputs_ne d _ (k + 1) k r (by omega)]
      exact sget_sset_wf d 0 m k v w
    | succ i =>
      have h' : i < r.length := by simpa using h
      have e : k + (i + 1) = (k + 1) + i := by omega
      rw [sputs, e, ih _ (k + 1) i (swf_sset d m k v w) h']
      rfl

end Sys2Proof.Machine
end

