-- ==== Sys2Proof/Laws/State.lean ====
section
/-! SUPPORT. What each update of the state leaves as it was: one lemma for every field, and one for every accessor, of every named update;
and what an accessor reads after its own update. -/

namespace Sys2Proof.Machine

variable (s : State)

/-! ### setCore -/

@[simp] theorem State.setCore_pending (c : Nat) (k : Core) : (s.setCore c k).pending = s.pending := rfl
@[simp] theorem State.setCore_free (c : Nat) (k : Core) : (s.setCore c k).free = s.free := rfl
@[simp] theorem State.setCore_rsp (c : Nat) (k : Core) : (s.setCore c k).rsp = s.rsp := rfl
@[simp] theorem State.setCore_hostMem (c : Nat) (k : Core) : (s.setCore c k).hostMem = s.hostMem := rfl
@[simp] theorem State.setCore_canal (c : Nat) (k : Core) : (s.setCore c k).canal = s.canal := rfl
@[simp] theorem State.setCore_secs (c : Nat) (k : Core) : (s.setCore c k).secs = s.secs := rfl
@[simp] theorem State.setCore_sluices (c : Nat) (k : Core) : (s.setCore c k).sluices = s.sluices := rfl
@[simp] theorem State.setCore_resv (c : Nat) (k : Core) : (s.setCore c k).resv = s.resv := rfl
@[simp] theorem State.setCore_aqf (c : Nat) (k : Core) : (s.setCore c k).aqf = s.aqf := rfl
@[simp] theorem State.setCore_links (c : Nat) (k : Core) : (s.setCore c k).links = s.links := rfl
@[simp] theorem State.setCore_hwk (c : Nat) (k : Core) : (s.setCore c k).hwk = s.hwk := rfl
@[simp] theorem State.setCore_rgs (c : Nat) (k : Core) : (s.setCore c k).rgs = s.rgs := rfl
@[simp] theorem State.setCore_syn (c : Nat) (k : Core) : (s.setCore c k).syn = s.syn := rfl
@[simp] theorem State.setCore_fns (c : Nat) (k : Core) : (s.setCore c k).fns = s.fns := rfl
@[simp] theorem State.setCore_parts (c : Nat) (k : Core) : (s.setCore c k).parts = s.parts := rfl
@[simp] theorem State.setCore_chr (c : Nat) (k : Core) : (s.setCore c k).chr = s.chr := rfl
@[simp] theorem State.setCore_mon (c : Nat) (k : Core) : (s.setCore c k).mon = s.mon := rfl
@[simp] theorem State.setCore_ras (c : Nat) (k : Core) : (s.setCore c k).ras = s.ras := rfl
@[simp] theorem State.setCore_pwr (c : Nat) (k : Core) : (s.setCore c k).pwr = s.pwr := rfl
@[simp] theorem State.setCore_tim (c : Nat) (k : Core) : (s.setCore c k).tim = s.tim := rfl
@[simp] theorem State.setCore_join (c : Nat) (k : Core) : (s.setCore c k).join = s.join := rfl
@[simp] theorem State.setCore_get_sec (c : Nat) (k : Core) (i' : Nat) : (s.setCore c k).sec i' = s.sec i' := rfl
@[simp] theorem State.setCore_get_slu (c : Nat) (k : Core) (i' : Nat) : (s.setCore c k).slu i' = s.slu i' := rfl
@[simp] theorem State.setCore_get_link (c : Nat) (k : Core) (i' : Nat) : (s.setCore c k).link i' = s.link i' := rfl
@[simp] theorem State.setCore_get_rg (c : Nat) (k : Core) (i' : Nat) : (s.setCore c k).rg i' = s.rg i' := rfl
@[simp] theorem State.setCore_get_fn (c : Nat) (k : Core) (i' : Nat) : (s.setCore c k).fn i' = s.fn i' := rfl
@[simp] theorem State.setCore_get_part (c : Nat) (k : Core) (i' : Nat) : (s.setCore c k).part i' = s.part i' := rfl
@[simp] theorem State.setCore_get_synPart (c : Nat) (k : Core) (i' : Nat) : (s.setCore c k).synPart i' = s.synPart i' := rfl
@[simp] theorem State.setCore_get_obj (c : Nat) (k : Core) (i' : Nat) : (s.setCore c k).obj i' = s.obj i' := rfl
@[simp] theorem State.setCore_get_vslot (c : Nat) (k : Core) (i' : Nat) : (s.setCore c k).vslot i' = s.vslot i' := rfl

/-! ### setSec -/

@[simp] theorem State.setSec_pending (n : Nat) (x : Sec) : (s.setSec n x).pending = s.pending := rfl
@[simp] theorem State.setSec_free (n : Nat) (x : Sec) : (s.setSec n x).free = s.free := rfl
@[simp] theorem State.setSec_rsp (n : Nat) (x : Sec) : (s.setSec n x).rsp = s.rsp := rfl
@[simp] theorem State.setSec_hostMem (n : Nat) (x : Sec) : (s.setSec n x).hostMem = s.hostMem := rfl
@[simp] theorem State.setSec_cores (n : Nat) (x : Sec) : (s.setSec n x).cores = s.cores := rfl
@[simp] theorem State.setSec_canal (n : Nat) (x : Sec) : (s.setSec n x).canal = s.canal := rfl
@[simp] theorem State.setSec_sluices (n : Nat) (x : Sec) : (s.setSec n x).sluices = s.sluices := rfl
@[simp] theorem State.setSec_resv (n : Nat) (x : Sec) : (s.setSec n x).resv = s.resv := rfl
@[simp] theorem State.setSec_aqf (n : Nat) (x : Sec) : (s.setSec n x).aqf = s.aqf := rfl
@[simp] theorem State.setSec_links (n : Nat) (x : Sec) : (s.setSec n x).links = s.links := rfl
@[simp] theorem State.setSec_hwk (n : Nat) (x : Sec) : (s.setSec n x).hwk = s.hwk := rfl
@[simp] theorem State.setSec_rgs (n : Nat) (x : Sec) : (s.setSec n x).rgs = s.rgs := rfl
@[simp] theorem State.setSec_syn (n : Nat) (x : Sec) : (s.setSec n x).syn = s.syn := rfl
@[simp] theorem State.setSec_fns (n : Nat) (x : Sec) : (s.setSec n x).fns = s.fns := rfl
@[simp] theorem State.setSec_parts (n : Nat) (x : Sec) : (s.setSec n x).parts = s.parts := rfl
@[simp] theorem State.setSec_chr (n : Nat) (x : Sec) : (s.setSec n x).chr = s.chr := rfl
@[simp] theorem State.setSec_mon (n : Nat) (x : Sec) : (s.setSec n x).mon = s.mon := rfl
@[simp] theorem State.setSec_ras (n : Nat) (x : Sec) : (s.setSec n x).ras = s.ras := rfl
@[simp] theorem State.setSec_pwr (n : Nat) (x : Sec) : (s.setSec n x).pwr = s.pwr := rfl
@[simp] theorem State.setSec_tim (n : Nat) (x : Sec) : (s.setSec n x).tim = s.tim := rfl
@[simp] theorem State.setSec_join (n : Nat) (x : Sec) : (s.setSec n x).join = s.join := rfl
@[simp] theorem State.setSec_get_core (n : Nat) (x : Sec) (i' : Nat) : (s.setSec n x).core i' = s.core i' := rfl
@[simp] theorem State.setSec_get_slu (n : Nat) (x : Sec) (i' : Nat) : (s.setSec n x).slu i' = s.slu i' := rfl
@[simp] theorem State.setSec_get_link (n : Nat) (x : Sec) (i' : Nat) : (s.setSec n x).link i' = s.link i' := rfl
@[simp] theorem State.setSec_get_rg (n : Nat) (x : Sec) (i' : Nat) : (s.setSec n x).rg i' = s.rg i' := rfl
@[simp] theorem State.setSec_get_fn (n : Nat) (x : Sec) (i' : Nat) : (s.setSec n x).fn i' = s.fn i' := rfl
@[simp] theorem State.setSec_get_part (n : Nat) (x : Sec) (i' : Nat) : (s.setSec n x).part i' = s.part i' := rfl
@[simp] theorem State.setSec_get_synPart (n : Nat) (x : Sec) (i' : Nat) : (s.setSec n x).synPart i' = s.synPart i' := rfl
@[simp] theorem State.setSec_get_obj (n : Nat) (x : Sec) (i' : Nat) : (s.setSec n x).obj i' = s.obj i' := rfl
@[simp] theorem State.setSec_get_vslot (n : Nat) (x : Sec) (i' : Nat) : (s.setSec n x).vslot i' = s.vslot i' := rfl

/-! ### setSlu -/

@[simp] theorem State.setSlu_pending (n : Nat) (x : Sluice) : (s.setSlu n x).pending = s.pending := rfl
@[simp] theorem State.setSlu_free (n : Nat) (x : Sluice) : (s.setSlu n x).free = s.free := rfl
@[simp] theorem State.setSlu_rsp (n : Nat) (x : Sluice) : (s.setSlu n x).rsp = s.rsp := rfl
@[simp] theorem State.setSlu_hostMem (n : Nat) (x : Sluice) : (s.setSlu n x).hostMem = s.hostMem := rfl
@[simp] theorem State.setSlu_cores (n : Nat) (x : Sluice) : (s.setSlu n x).cores = s.cores := rfl
@[simp] theorem State.setSlu_canal (n : Nat) (x : Sluice) : (s.setSlu n x).canal = s.canal := rfl
@[simp] theorem State.setSlu_secs (n : Nat) (x : Sluice) : (s.setSlu n x).secs = s.secs := rfl
@[simp] theorem State.setSlu_resv (n : Nat) (x : Sluice) : (s.setSlu n x).resv = s.resv := rfl
@[simp] theorem State.setSlu_aqf (n : Nat) (x : Sluice) : (s.setSlu n x).aqf = s.aqf := rfl
@[simp] theorem State.setSlu_links (n : Nat) (x : Sluice) : (s.setSlu n x).links = s.links := rfl
@[simp] theorem State.setSlu_hwk (n : Nat) (x : Sluice) : (s.setSlu n x).hwk = s.hwk := rfl
@[simp] theorem State.setSlu_rgs (n : Nat) (x : Sluice) : (s.setSlu n x).rgs = s.rgs := rfl
@[simp] theorem State.setSlu_syn (n : Nat) (x : Sluice) : (s.setSlu n x).syn = s.syn := rfl
@[simp] theorem State.setSlu_fns (n : Nat) (x : Sluice) : (s.setSlu n x).fns = s.fns := rfl
@[simp] theorem State.setSlu_parts (n : Nat) (x : Sluice) : (s.setSlu n x).parts = s.parts := rfl
@[simp] theorem State.setSlu_chr (n : Nat) (x : Sluice) : (s.setSlu n x).chr = s.chr := rfl
@[simp] theorem State.setSlu_mon (n : Nat) (x : Sluice) : (s.setSlu n x).mon = s.mon := rfl
@[simp] theorem State.setSlu_ras (n : Nat) (x : Sluice) : (s.setSlu n x).ras = s.ras := rfl
@[simp] theorem State.setSlu_pwr (n : Nat) (x : Sluice) : (s.setSlu n x).pwr = s.pwr := rfl
@[simp] theorem State.setSlu_tim (n : Nat) (x : Sluice) : (s.setSlu n x).tim = s.tim := rfl
@[simp] theorem State.setSlu_join (n : Nat) (x : Sluice) : (s.setSlu n x).join = s.join := rfl
@[simp] theorem State.setSlu_get_core (n : Nat) (x : Sluice) (i' : Nat) : (s.setSlu n x).core i' = s.core i' := rfl
@[simp] theorem State.setSlu_get_sec (n : Nat) (x : Sluice) (i' : Nat) : (s.setSlu n x).sec i' = s.sec i' := rfl
@[simp] theorem State.setSlu_get_link (n : Nat) (x : Sluice) (i' : Nat) : (s.setSlu n x).link i' = s.link i' := rfl
@[simp] theorem State.setSlu_get_rg (n : Nat) (x : Sluice) (i' : Nat) : (s.setSlu n x).rg i' = s.rg i' := rfl
@[simp] theorem State.setSlu_get_fn (n : Nat) (x : Sluice) (i' : Nat) : (s.setSlu n x).fn i' = s.fn i' := rfl
@[simp] theorem State.setSlu_get_part (n : Nat) (x : Sluice) (i' : Nat) : (s.setSlu n x).part i' = s.part i' := rfl
@[simp] theorem State.setSlu_get_synPart (n : Nat) (x : Sluice) (i' : Nat) : (s.setSlu n x).synPart i' = s.synPart i' := rfl
@[simp] theorem State.setSlu_get_obj (n : Nat) (x : Sluice) (i' : Nat) : (s.setSlu n x).obj i' = s.obj i' := rfl
@[simp] theorem State.setSlu_get_vslot (n : Nat) (x : Sluice) (i' : Nat) : (s.setSlu n x).vslot i' = s.vslot i' := rfl

/-! ### setLink -/

@[simp] theorem State.setLink_pending (n : Nat) (x : Link) : (s.setLink n x).pending = s.pending := rfl
@[simp] theorem State.setLink_free (n : Nat) (x : Link) : (s.setLink n x).free = s.free := rfl
@[simp] theorem State.setLink_rsp (n : Nat) (x : Link) : (s.setLink n x).rsp = s.rsp := rfl
@[simp] theorem State.setLink_hostMem (n : Nat) (x : Link) : (s.setLink n x).hostMem = s.hostMem := rfl
@[simp] theorem State.setLink_cores (n : Nat) (x : Link) : (s.setLink n x).cores = s.cores := rfl
@[simp] theorem State.setLink_canal (n : Nat) (x : Link) : (s.setLink n x).canal = s.canal := rfl
@[simp] theorem State.setLink_secs (n : Nat) (x : Link) : (s.setLink n x).secs = s.secs := rfl
@[simp] theorem State.setLink_sluices (n : Nat) (x : Link) : (s.setLink n x).sluices = s.sluices := rfl
@[simp] theorem State.setLink_resv (n : Nat) (x : Link) : (s.setLink n x).resv = s.resv := rfl
@[simp] theorem State.setLink_aqf (n : Nat) (x : Link) : (s.setLink n x).aqf = s.aqf := rfl
@[simp] theorem State.setLink_hwk (n : Nat) (x : Link) : (s.setLink n x).hwk = s.hwk := rfl
@[simp] theorem State.setLink_rgs (n : Nat) (x : Link) : (s.setLink n x).rgs = s.rgs := rfl
@[simp] theorem State.setLink_syn (n : Nat) (x : Link) : (s.setLink n x).syn = s.syn := rfl
@[simp] theorem State.setLink_fns (n : Nat) (x : Link) : (s.setLink n x).fns = s.fns := rfl
@[simp] theorem State.setLink_parts (n : Nat) (x : Link) : (s.setLink n x).parts = s.parts := rfl
@[simp] theorem State.setLink_chr (n : Nat) (x : Link) : (s.setLink n x).chr = s.chr := rfl
@[simp] theorem State.setLink_mon (n : Nat) (x : Link) : (s.setLink n x).mon = s.mon := rfl
@[simp] theorem State.setLink_ras (n : Nat) (x : Link) : (s.setLink n x).ras = s.ras := rfl
@[simp] theorem State.setLink_pwr (n : Nat) (x : Link) : (s.setLink n x).pwr = s.pwr := rfl
@[simp] theorem State.setLink_tim (n : Nat) (x : Link) : (s.setLink n x).tim = s.tim := rfl
@[simp] theorem State.setLink_join (n : Nat) (x : Link) : (s.setLink n x).join = s.join := rfl
@[simp] theorem State.setLink_get_core (n : Nat) (x : Link) (i' : Nat) : (s.setLink n x).core i' = s.core i' := rfl
@[simp] theorem State.setLink_get_sec (n : Nat) (x : Link) (i' : Nat) : (s.setLink n x).sec i' = s.sec i' := rfl
@[simp] theorem State.setLink_get_slu (n : Nat) (x : Link) (i' : Nat) : (s.setLink n x).slu i' = s.slu i' := rfl
@[simp] theorem State.setLink_get_rg (n : Nat) (x : Link) (i' : Nat) : (s.setLink n x).rg i' = s.rg i' := rfl
@[simp] theorem State.setLink_get_fn (n : Nat) (x : Link) (i' : Nat) : (s.setLink n x).fn i' = s.fn i' := rfl
@[simp] theorem State.setLink_get_part (n : Nat) (x : Link) (i' : Nat) : (s.setLink n x).part i' = s.part i' := rfl
@[simp] theorem State.setLink_get_synPart (n : Nat) (x : Link) (i' : Nat) : (s.setLink n x).synPart i' = s.synPart i' := rfl
@[simp] theorem State.setLink_get_obj (n : Nat) (x : Link) (i' : Nat) : (s.setLink n x).obj i' = s.obj i' := rfl
@[simp] theorem State.setLink_get_vslot (n : Nat) (x : Link) (i' : Nat) : (s.setLink n x).vslot i' = s.vslot i' := rfl

/-! ### setRg -/

@[simp] theorem State.setRg_pending (e : Nat) (x : RGroup) : (s.setRg e x).pending = s.pending := rfl
@[simp] theorem State.setRg_free (e : Nat) (x : RGroup) : (s.setRg e x).free = s.free := rfl
@[simp] theorem State.setRg_rsp (e : Nat) (x : RGroup) : (s.setRg e x).rsp = s.rsp := rfl
@[simp] theorem State.setRg_hostMem (e : Nat) (x : RGroup) : (s.setRg e x).hostMem = s.hostMem := rfl
@[simp] theorem State.setRg_cores (e : Nat) (x : RGroup) : (s.setRg e x).cores = s.cores := rfl
@[simp] theorem State.setRg_canal (e : Nat) (x : RGroup) : (s.setRg e x).canal = s.canal := rfl
@[simp] theorem State.setRg_secs (e : Nat) (x : RGroup) : (s.setRg e x).secs = s.secs := rfl
@[simp] theorem State.setRg_sluices (e : Nat) (x : RGroup) : (s.setRg e x).sluices = s.sluices := rfl
@[simp] theorem State.setRg_resv (e : Nat) (x : RGroup) : (s.setRg e x).resv = s.resv := rfl
@[simp] theorem State.setRg_aqf (e : Nat) (x : RGroup) : (s.setRg e x).aqf = s.aqf := rfl
@[simp] theorem State.setRg_links (e : Nat) (x : RGroup) : (s.setRg e x).links = s.links := rfl
@[simp] theorem State.setRg_hwk (e : Nat) (x : RGroup) : (s.setRg e x).hwk = s.hwk := rfl
@[simp] theorem State.setRg_syn (e : Nat) (x : RGroup) : (s.setRg e x).syn = s.syn := rfl
@[simp] theorem State.setRg_fns (e : Nat) (x : RGroup) : (s.setRg e x).fns = s.fns := rfl
@[simp] theorem State.setRg_parts (e : Nat) (x : RGroup) : (s.setRg e x).parts = s.parts := rfl
@[simp] theorem State.setRg_chr (e : Nat) (x : RGroup) : (s.setRg e x).chr = s.chr := rfl
@[simp] theorem State.setRg_mon (e : Nat) (x : RGroup) : (s.setRg e x).mon = s.mon := rfl
@[simp] theorem State.setRg_ras (e : Nat) (x : RGroup) : (s.setRg e x).ras = s.ras := rfl
@[simp] theorem State.setRg_pwr (e : Nat) (x : RGroup) : (s.setRg e x).pwr = s.pwr := rfl
@[simp] theorem State.setRg_tim (e : Nat) (x : RGroup) : (s.setRg e x).tim = s.tim := rfl
@[simp] theorem State.setRg_join (e : Nat) (x : RGroup) : (s.setRg e x).join = s.join := rfl
@[simp] theorem State.setRg_get_core (e : Nat) (x : RGroup) (i' : Nat) : (s.setRg e x).core i' = s.core i' := rfl
@[simp] theorem State.setRg_get_sec (e : Nat) (x : RGroup) (i' : Nat) : (s.setRg e x).sec i' = s.sec i' := rfl
@[simp] theorem State.setRg_get_slu (e : Nat) (x : RGroup) (i' : Nat) : (s.setRg e x).slu i' = s.slu i' := rfl
@[simp] theorem State.setRg_get_link (e : Nat) (x : RGroup) (i' : Nat) : (s.setRg e x).link i' = s.link i' := rfl
@[simp] theorem State.setRg_get_fn (e : Nat) (x : RGroup) (i' : Nat) : (s.setRg e x).fn i' = s.fn i' := rfl
@[simp] theorem State.setRg_get_part (e : Nat) (x : RGroup) (i' : Nat) : (s.setRg e x).part i' = s.part i' := rfl
@[simp] theorem State.setRg_get_synPart (e : Nat) (x : RGroup) (i' : Nat) : (s.setRg e x).synPart i' = s.synPart i' := rfl
@[simp] theorem State.setRg_get_obj (e : Nat) (x : RGroup) (i' : Nat) : (s.setRg e x).obj i' = s.obj i' := rfl
@[simp] theorem State.setRg_get_vslot (e : Nat) (x : RGroup) (i' : Nat) : (s.setRg e x).vslot i' = s.vslot i' := rfl

/-! ### setFn -/

@[simp] theorem State.setFn_pending (f : Nat) (x : Fn) : (s.setFn f x).pending = s.pending := rfl
@[simp] theorem State.setFn_free (f : Nat) (x : Fn) : (s.setFn f x).free = s.free := rfl
@[simp] theorem State.setFn_rsp (f : Nat) (x : Fn) : (s.setFn f x).rsp = s.rsp := rfl
@[simp] theorem State.setFn_hostMem (f : Nat) (x : Fn) : (s.setFn f x).hostMem = s.hostMem := rfl
@[simp] theorem State.setFn_cores (f : Nat) (x : Fn) : (s.setFn f x).cores = s.cores := rfl
@[simp] theorem State.setFn_canal (f : Nat) (x : Fn) : (s.setFn f x).canal = s.canal := rfl
@[simp] theorem State.setFn_secs (f : Nat) (x : Fn) : (s.setFn f x).secs = s.secs := rfl
@[simp] theorem State.setFn_sluices (f : Nat) (x : Fn) : (s.setFn f x).sluices = s.sluices := rfl
@[simp] theorem State.setFn_resv (f : Nat) (x : Fn) : (s.setFn f x).resv = s.resv := rfl
@[simp] theorem State.setFn_aqf (f : Nat) (x : Fn) : (s.setFn f x).aqf = s.aqf := rfl
@[simp] theorem State.setFn_links (f : Nat) (x : Fn) : (s.setFn f x).links = s.links := rfl
@[simp] theorem State.setFn_hwk (f : Nat) (x : Fn) : (s.setFn f x).hwk = s.hwk := rfl
@[simp] theorem State.setFn_rgs (f : Nat) (x : Fn) : (s.setFn f x).rgs = s.rgs := rfl
@[simp] theorem State.setFn_syn (f : Nat) (x : Fn) : (s.setFn f x).syn = s.syn := rfl
@[simp] theorem State.setFn_parts (f : Nat) (x : Fn) : (s.setFn f x).parts = s.parts := rfl
@[simp] theorem State.setFn_chr (f : Nat) (x : Fn) : (s.setFn f x).chr = s.chr := rfl
@[simp] theorem State.setFn_mon (f : Nat) (x : Fn) : (s.setFn f x).mon = s.mon := rfl
@[simp] theorem State.setFn_ras (f : Nat) (x : Fn) : (s.setFn f x).ras = s.ras := rfl
@[simp] theorem State.setFn_pwr (f : Nat) (x : Fn) : (s.setFn f x).pwr = s.pwr := rfl
@[simp] theorem State.setFn_tim (f : Nat) (x : Fn) : (s.setFn f x).tim = s.tim := rfl
@[simp] theorem State.setFn_join (f : Nat) (x : Fn) : (s.setFn f x).join = s.join := rfl
@[simp] theorem State.setFn_get_core (f : Nat) (x : Fn) (i' : Nat) : (s.setFn f x).core i' = s.core i' := rfl
@[simp] theorem State.setFn_get_sec (f : Nat) (x : Fn) (i' : Nat) : (s.setFn f x).sec i' = s.sec i' := rfl
@[simp] theorem State.setFn_get_slu (f : Nat) (x : Fn) (i' : Nat) : (s.setFn f x).slu i' = s.slu i' := rfl
@[simp] theorem State.setFn_get_link (f : Nat) (x : Fn) (i' : Nat) : (s.setFn f x).link i' = s.link i' := rfl
@[simp] theorem State.setFn_get_rg (f : Nat) (x : Fn) (i' : Nat) : (s.setFn f x).rg i' = s.rg i' := rfl
@[simp] theorem State.setFn_get_part (f : Nat) (x : Fn) (i' : Nat) : (s.setFn f x).part i' = s.part i' := rfl
@[simp] theorem State.setFn_get_synPart (f : Nat) (x : Fn) (i' : Nat) : (s.setFn f x).synPart i' = s.synPart i' := rfl
@[simp] theorem State.setFn_get_obj (f : Nat) (x : Fn) (i' : Nat) : (s.setFn f x).obj i' = s.obj i' := rfl
@[simp] theorem State.setFn_get_vslot (f : Nat) (x : Fn) (i' : Nat) : (s.setFn f x).vslot i' = s.vslot i' := rfl

/-! ### setQueue -/

@[simp] theorem State.setQueue_pending (f q : Nat) (x : Queue) : (s.setQueue f q x).pending = s.pending := rfl
@[simp] theorem State.setQueue_free (f q : Nat) (x : Queue) : (s.setQueue f q x).free = s.free := rfl
@[simp] theorem State.setQueue_rsp (f q : Nat) (x : Queue) : (s.setQueue f q x).rsp = s.rsp := rfl
@[simp] theorem State.setQueue_hostMem (f q : Nat) (x : Queue) : (s.setQueue f q x).hostMem = s.hostMem := rfl
@[simp] theorem State.setQueue_cores (f q : Nat) (x : Queue) : (s.setQueue f q x).cores = s.cores := rfl
@[simp] theorem State.setQueue_canal (f q : Nat) (x : Queue) : (s.setQueue f q x).canal = s.canal := rfl
@[simp] theorem State.setQueue_secs (f q : Nat) (x : Queue) : (s.setQueue f q x).secs = s.secs := rfl
@[simp] theorem State.setQueue_sluices (f q : Nat) (x : Queue) : (s.setQueue f q x).sluices = s.sluices := rfl
@[simp] theorem State.setQueue_resv (f q : Nat) (x : Queue) : (s.setQueue f q x).resv = s.resv := rfl
@[simp] theorem State.setQueue_aqf (f q : Nat) (x : Queue) : (s.setQueue f q x).aqf = s.aqf := rfl
@[simp] theorem State.setQueue_links (f q : Nat) (x : Queue) : (s.setQueue f q x).links = s.links := rfl
@[simp] theorem State.setQueue_hwk (f q : Nat) (x : Queue) : (s.setQueue f q x).hwk = s.hwk := rfl
@[simp] theorem State.setQueue_rgs (f q : Nat) (x : Queue) : (s.setQueue f q x).rgs = s.rgs := rfl
@[simp] theorem State.setQueue_syn (f q : Nat) (x : Queue) : (s.setQueue f q x).syn = s.syn := rfl
@[simp] theorem State.setQueue_parts (f q : Nat) (x : Queue) : (s.setQueue f q x).parts = s.parts := rfl
@[simp] theorem State.setQueue_chr (f q : Nat) (x : Queue) : (s.setQueue f q x).chr = s.chr := rfl
@[simp] theorem State.setQueue_mon (f q : Nat) (x : Queue) : (s.setQueue f q x).mon = s.mon := rfl
@[simp] theorem State.setQueue_ras (f q : Nat) (x : Queue) : (s.setQueue f q x).ras = s.ras := rfl
@[simp] theorem State.setQueue_pwr (f q : Nat) (x : Queue) : (s.setQueue f q x).pwr = s.pwr := rfl
@[simp] theorem State.setQueue_tim (f q : Nat) (x : Queue) : (s.setQueue f q x).tim = s.tim := rfl
@[simp] theorem State.setQueue_join (f q : Nat) (x : Queue) : (s.setQueue f q x).join = s.join := rfl
@[simp] theorem State.setQueue_get_core (f q : Nat) (x : Queue) (i' : Nat) : (s.setQueue f q x).core i' = s.core i' := rfl
@[simp] theorem State.setQueue_get_sec (f q : Nat) (x : Queue) (i' : Nat) : (s.setQueue f q x).sec i' = s.sec i' := rfl
@[simp] theorem State.setQueue_get_slu (f q : Nat) (x : Queue) (i' : Nat) : (s.setQueue f q x).slu i' = s.slu i' := rfl
@[simp] theorem State.setQueue_get_link (f q : Nat) (x : Queue) (i' : Nat) : (s.setQueue f q x).link i' = s.link i' := rfl
@[simp] theorem State.setQueue_get_rg (f q : Nat) (x : Queue) (i' : Nat) : (s.setQueue f q x).rg i' = s.rg i' := rfl
@[simp] theorem State.setQueue_get_part (f q : Nat) (x : Queue) (i' : Nat) : (s.setQueue f q x).part i' = s.part i' := rfl
@[simp] theorem State.setQueue_get_synPart (f q : Nat) (x : Queue) (i' : Nat) : (s.setQueue f q x).synPart i' = s.synPart i' := rfl
@[simp] theorem State.setQueue_get_obj (f q : Nat) (x : Queue) (i' : Nat) : (s.setQueue f q x).obj i' = s.obj i' := rfl
@[simp] theorem State.setQueue_get_vslot (f q : Nat) (x : Queue) (i' : Nat) : (s.setQueue f q x).vslot i' = s.vslot i' := rfl

/-! ### setPart -/

@[simp] theorem State.setPart_pending (p : Nat) (x : Part) : (s.setPart p x).pending = s.pending := rfl
@[simp] theorem State.setPart_free (p : Nat) (x : Part) : (s.setPart p x).free = s.free := rfl
@[simp] theorem State.setPart_rsp (p : Nat) (x : Part) : (s.setPart p x).rsp = s.rsp := rfl
@[simp] theorem State.setPart_hostMem (p : Nat) (x : Part) : (s.setPart p x).hostMem = s.hostMem := rfl
@[simp] theorem State.setPart_cores (p : Nat) (x : Part) : (s.setPart p x).cores = s.cores := rfl
@[simp] theorem State.setPart_canal (p : Nat) (x : Part) : (s.setPart p x).canal = s.canal := rfl
@[simp] theorem State.setPart_secs (p : Nat) (x : Part) : (s.setPart p x).secs = s.secs := rfl
@[simp] theorem State.setPart_sluices (p : Nat) (x : Part) : (s.setPart p x).sluices = s.sluices := rfl
@[simp] theorem State.setPart_resv (p : Nat) (x : Part) : (s.setPart p x).resv = s.resv := rfl
@[simp] theorem State.setPart_aqf (p : Nat) (x : Part) : (s.setPart p x).aqf = s.aqf := rfl
@[simp] theorem State.setPart_links (p : Nat) (x : Part) : (s.setPart p x).links = s.links := rfl
@[simp] theorem State.setPart_hwk (p : Nat) (x : Part) : (s.setPart p x).hwk = s.hwk := rfl
@[simp] theorem State.setPart_rgs (p : Nat) (x : Part) : (s.setPart p x).rgs = s.rgs := rfl
@[simp] theorem State.setPart_syn (p : Nat) (x : Part) : (s.setPart p x).syn = s.syn := rfl
@[simp] theorem State.setPart_fns (p : Nat) (x : Part) : (s.setPart p x).fns = s.fns := rfl
@[simp] theorem State.setPart_chr (p : Nat) (x : Part) : (s.setPart p x).chr = s.chr := rfl
@[simp] theorem State.setPart_mon (p : Nat) (x : Part) : (s.setPart p x).mon = s.mon := rfl
@[simp] theorem State.setPart_ras (p : Nat) (x : Part) : (s.setPart p x).ras = s.ras := rfl
@[simp] theorem State.setPart_pwr (p : Nat) (x : Part) : (s.setPart p x).pwr = s.pwr := rfl
@[simp] theorem State.setPart_tim (p : Nat) (x : Part) : (s.setPart p x).tim = s.tim := rfl
@[simp] theorem State.setPart_join (p : Nat) (x : Part) : (s.setPart p x).join = s.join := rfl
@[simp] theorem State.setPart_get_core (p : Nat) (x : Part) (i' : Nat) : (s.setPart p x).core i' = s.core i' := rfl
@[simp] theorem State.setPart_get_sec (p : Nat) (x : Part) (i' : Nat) : (s.setPart p x).sec i' = s.sec i' := rfl
@[simp] theorem State.setPart_get_slu (p : Nat) (x : Part) (i' : Nat) : (s.setPart p x).slu i' = s.slu i' := rfl
@[simp] theorem State.setPart_get_link (p : Nat) (x : Part) (i' : Nat) : (s.setPart p x).link i' = s.link i' := rfl
@[simp] theorem State.setPart_get_rg (p : Nat) (x : Part) (i' : Nat) : (s.setPart p x).rg i' = s.rg i' := rfl
@[simp] theorem State.setPart_get_fn (p : Nat) (x : Part) (i' : Nat) : (s.setPart p x).fn i' = s.fn i' := rfl
@[simp] theorem State.setPart_get_synPart (p : Nat) (x : Part) (i' : Nat) : (s.setPart p x).synPart i' = s.synPart i' := rfl
@[simp] theorem State.setPart_get_obj (p : Nat) (x : Part) (i' : Nat) : (s.setPart p x).obj i' = s.obj i' := rfl
@[simp] theorem State.setPart_get_vslot (p : Nat) (x : Part) (i' : Nat) : (s.setPart p x).vslot i' = s.vslot i' := rfl

/-! ### setSynPart -/

@[simp] theorem State.setSynPart_pending (p : Nat) (x : SynPart) : (s.setSynPart p x).pending = s.pending := rfl
@[simp] theorem State.setSynPart_free (p : Nat) (x : SynPart) : (s.setSynPart p x).free = s.free := rfl
@[simp] theorem State.setSynPart_rsp (p : Nat) (x : SynPart) : (s.setSynPart p x).rsp = s.rsp := rfl
@[simp] theorem State.setSynPart_hostMem (p : Nat) (x : SynPart) : (s.setSynPart p x).hostMem = s.hostMem := rfl
@[simp] theorem State.setSynPart_cores (p : Nat) (x : SynPart) : (s.setSynPart p x).cores = s.cores := rfl
@[simp] theorem State.setSynPart_canal (p : Nat) (x : SynPart) : (s.setSynPart p x).canal = s.canal := rfl
@[simp] theorem State.setSynPart_secs (p : Nat) (x : SynPart) : (s.setSynPart p x).secs = s.secs := rfl
@[simp] theorem State.setSynPart_sluices (p : Nat) (x : SynPart) : (s.setSynPart p x).sluices = s.sluices := rfl
@[simp] theorem State.setSynPart_resv (p : Nat) (x : SynPart) : (s.setSynPart p x).resv = s.resv := rfl
@[simp] theorem State.setSynPart_aqf (p : Nat) (x : SynPart) : (s.setSynPart p x).aqf = s.aqf := rfl
@[simp] theorem State.setSynPart_links (p : Nat) (x : SynPart) : (s.setSynPart p x).links = s.links := rfl
@[simp] theorem State.setSynPart_hwk (p : Nat) (x : SynPart) : (s.setSynPart p x).hwk = s.hwk := rfl
@[simp] theorem State.setSynPart_rgs (p : Nat) (x : SynPart) : (s.setSynPart p x).rgs = s.rgs := rfl
@[simp] theorem State.setSynPart_fns (p : Nat) (x : SynPart) : (s.setSynPart p x).fns = s.fns := rfl
@[simp] theorem State.setSynPart_parts (p : Nat) (x : SynPart) : (s.setSynPart p x).parts = s.parts := rfl
@[simp] theorem State.setSynPart_chr (p : Nat) (x : SynPart) : (s.setSynPart p x).chr = s.chr := rfl
@[simp] theorem State.setSynPart_mon (p : Nat) (x : SynPart) : (s.setSynPart p x).mon = s.mon := rfl
@[simp] theorem State.setSynPart_ras (p : Nat) (x : SynPart) : (s.setSynPart p x).ras = s.ras := rfl
@[simp] theorem State.setSynPart_pwr (p : Nat) (x : SynPart) : (s.setSynPart p x).pwr = s.pwr := rfl
@[simp] theorem State.setSynPart_tim (p : Nat) (x : SynPart) : (s.setSynPart p x).tim = s.tim := rfl
@[simp] theorem State.setSynPart_join (p : Nat) (x : SynPart) : (s.setSynPart p x).join = s.join := rfl
@[simp] theorem State.setSynPart_get_core (p : Nat) (x : SynPart) (i' : Nat) : (s.setSynPart p x).core i' = s.core i' := rfl
@[simp] theorem State.setSynPart_get_sec (p : Nat) (x : SynPart) (i' : Nat) : (s.setSynPart p x).sec i' = s.sec i' := rfl
@[simp] theorem State.setSynPart_get_slu (p : Nat) (x : SynPart) (i' : Nat) : (s.setSynPart p x).slu i' = s.slu i' := rfl
@[simp] theorem State.setSynPart_get_link (p : Nat) (x : SynPart) (i' : Nat) : (s.setSynPart p x).link i' = s.link i' := rfl
@[simp] theorem State.setSynPart_get_rg (p : Nat) (x : SynPart) (i' : Nat) : (s.setSynPart p x).rg i' = s.rg i' := rfl
@[simp] theorem State.setSynPart_get_fn (p : Nat) (x : SynPart) (i' : Nat) : (s.setSynPart p x).fn i' = s.fn i' := rfl
@[simp] theorem State.setSynPart_get_part (p : Nat) (x : SynPart) (i' : Nat) : (s.setSynPart p x).part i' = s.part i' := rfl
@[simp] theorem State.setSynPart_get_vslot (p : Nat) (x : SynPart) (i' : Nat) : (s.setSynPart p x).vslot i' = s.vslot i' := rfl

/-! ### setObj -/

@[simp] theorem State.setObj_pending (y : Nat) (x : Option SynObj) : (s.setObj y x).pending = s.pending := rfl
@[simp] theorem State.setObj_free (y : Nat) (x : Option SynObj) : (s.setObj y x).free = s.free := rfl
@[simp] theorem State.setObj_rsp (y : Nat) (x : Option SynObj) : (s.setObj y x).rsp = s.rsp := rfl
@[simp] theorem State.setObj_hostMem (y : Nat) (x : Option SynObj) : (s.setObj y x).hostMem = s.hostMem := rfl
@[simp] theorem State.setObj_cores (y : Nat) (x : Option SynObj) : (s.setObj y x).cores = s.cores := rfl
@[simp] theorem State.setObj_canal (y : Nat) (x : Option SynObj) : (s.setObj y x).canal = s.canal := rfl
@[simp] theorem State.setObj_secs (y : Nat) (x : Option SynObj) : (s.setObj y x).secs = s.secs := rfl
@[simp] theorem State.setObj_sluices (y : Nat) (x : Option SynObj) : (s.setObj y x).sluices = s.sluices := rfl
@[simp] theorem State.setObj_resv (y : Nat) (x : Option SynObj) : (s.setObj y x).resv = s.resv := rfl
@[simp] theorem State.setObj_aqf (y : Nat) (x : Option SynObj) : (s.setObj y x).aqf = s.aqf := rfl
@[simp] theorem State.setObj_links (y : Nat) (x : Option SynObj) : (s.setObj y x).links = s.links := rfl
@[simp] theorem State.setObj_hwk (y : Nat) (x : Option SynObj) : (s.setObj y x).hwk = s.hwk := rfl
@[simp] theorem State.setObj_rgs (y : Nat) (x : Option SynObj) : (s.setObj y x).rgs = s.rgs := rfl
@[simp] theorem State.setObj_fns (y : Nat) (x : Option SynObj) : (s.setObj y x).fns = s.fns := rfl
@[simp] theorem State.setObj_parts (y : Nat) (x : Option SynObj) : (s.setObj y x).parts = s.parts := rfl
@[simp] theorem State.setObj_chr (y : Nat) (x : Option SynObj) : (s.setObj y x).chr = s.chr := rfl
@[simp] theorem State.setObj_mon (y : Nat) (x : Option SynObj) : (s.setObj y x).mon = s.mon := rfl
@[simp] theorem State.setObj_ras (y : Nat) (x : Option SynObj) : (s.setObj y x).ras = s.ras := rfl
@[simp] theorem State.setObj_pwr (y : Nat) (x : Option SynObj) : (s.setObj y x).pwr = s.pwr := rfl
@[simp] theorem State.setObj_tim (y : Nat) (x : Option SynObj) : (s.setObj y x).tim = s.tim := rfl
@[simp] theorem State.setObj_join (y : Nat) (x : Option SynObj) : (s.setObj y x).join = s.join := rfl
@[simp] theorem State.setObj_get_core (y : Nat) (x : Option SynObj) (i' : Nat) : (s.setObj y x).core i' = s.core i' := rfl
@[simp] theorem State.setObj_get_sec (y : Nat) (x : Option SynObj) (i' : Nat) : (s.setObj y x).sec i' = s.sec i' := rfl
@[simp] theorem State.setObj_get_slu (y : Nat) (x : Option SynObj) (i' : Nat) : (s.setObj y x).slu i' = s.slu i' := rfl
@[simp] theorem State.setObj_get_link (y : Nat) (x : Option SynObj) (i' : Nat) : (s.setObj y x).link i' = s.link i' := rfl
@[simp] theorem State.setObj_get_rg (y : Nat) (x : Option SynObj) (i' : Nat) : (s.setObj y x).rg i' = s.rg i' := rfl
@[simp] theorem State.setObj_get_fn (y : Nat) (x : Option SynObj) (i' : Nat) : (s.setObj y x).fn i' = s.fn i' := rfl
@[simp] theorem State.setObj_get_part (y : Nat) (x : Option SynObj) (i' : Nat) : (s.setObj y x).part i' = s.part i' := rfl
@[simp] theorem State.setObj_get_vslot (y : Nat) (x : Option SynObj) (i' : Nat) : (s.setObj y x).vslot i' = s.vslot i' := rfl

/-! ### setVslot -/

@[simp] theorem State.setVslot_pending (i : Nat) (v : VSlot) : (s.setVslot i v).pending = s.pending := rfl
@[simp] theorem State.setVslot_free (i : Nat) (v : VSlot) : (s.setVslot i v).free = s.free := rfl
@[simp] theorem State.setVslot_rsp (i : Nat) (v : VSlot) : (s.setVslot i v).rsp = s.rsp := rfl
@[simp] theorem State.setVslot_hostMem (i : Nat) (v : VSlot) : (s.setVslot i v).hostMem = s.hostMem := rfl
@[simp] theorem State.setVslot_cores (i : Nat) (v : VSlot) : (s.setVslot i v).cores = s.cores := rfl
@[simp] theorem State.setVslot_canal (i : Nat) (v : VSlot) : (s.setVslot i v).canal = s.canal := rfl
@[simp] theorem State.setVslot_secs (i : Nat) (v : VSlot) : (s.setVslot i v).secs = s.secs := rfl
@[simp] theorem State.setVslot_sluices (i : Nat) (v : VSlot) : (s.setVslot i v).sluices = s.sluices := rfl
@[simp] theorem State.setVslot_resv (i : Nat) (v : VSlot) : (s.setVslot i v).resv = s.resv := rfl
@[simp] theorem State.setVslot_aqf (i : Nat) (v : VSlot) : (s.setVslot i v).aqf = s.aqf := rfl
@[simp] theorem State.setVslot_links (i : Nat) (v : VSlot) : (s.setVslot i v).links = s.links := rfl
@[simp] theorem State.setVslot_hwk (i : Nat) (v : VSlot) : (s.setVslot i v).hwk = s.hwk := rfl
@[simp] theorem State.setVslot_rgs (i : Nat) (v : VSlot) : (s.setVslot i v).rgs = s.rgs := rfl
@[simp] theorem State.setVslot_syn (i : Nat) (v : VSlot) : (s.setVslot i v).syn = s.syn := rfl
@[simp] theorem State.setVslot_fns (i : Nat) (v : VSlot) : (s.setVslot i v).fns = s.fns := rfl
@[simp] theorem State.setVslot_parts (i : Nat) (v : VSlot) : (s.setVslot i v).parts = s.parts := rfl
@[simp] theorem State.setVslot_mon (i : Nat) (v : VSlot) : (s.setVslot i v).mon = s.mon := rfl
@[simp] theorem State.setVslot_ras (i : Nat) (v : VSlot) : (s.setVslot i v).ras = s.ras := rfl
@[simp] theorem State.setVslot_pwr (i : Nat) (v : VSlot) : (s.setVslot i v).pwr = s.pwr := rfl
@[simp] theorem State.setVslot_tim (i : Nat) (v : VSlot) : (s.setVslot i v).tim = s.tim := rfl
@[simp] theorem State.setVslot_join (i : Nat) (v : VSlot) : (s.setVslot i v).join = s.join := rfl
@[simp] theorem State.setVslot_get_core (i : Nat) (v : VSlot) (i' : Nat) : (s.setVslot i v).core i' = s.core i' := rfl
@[simp] theorem State.setVslot_get_sec (i : Nat) (v : VSlot) (i' : Nat) : (s.setVslot i v).sec i' = s.sec i' := rfl
@[simp] theorem State.setVslot_get_slu (i : Nat) (v : VSlot) (i' : Nat) : (s.setVslot i v).slu i' = s.slu i' := rfl
@[simp] theorem State.setVslot_get_link (i : Nat) (v : VSlot) (i' : Nat) : (s.setVslot i v).link i' = s.link i' := rfl
@[simp] theorem State.setVslot_get_rg (i : Nat) (v : VSlot) (i' : Nat) : (s.setVslot i v).rg i' = s.rg i' := rfl
@[simp] theorem State.setVslot_get_fn (i : Nat) (v : VSlot) (i' : Nat) : (s.setVslot i v).fn i' = s.fn i' := rfl
@[simp] theorem State.setVslot_get_part (i : Nat) (v : VSlot) (i' : Nat) : (s.setVslot i v).part i' = s.part i' := rfl
@[simp] theorem State.setVslot_get_synPart (i : Nat) (v : VSlot) (i' : Nat) : (s.setVslot i v).synPart i' = s.synPart i' := rfl
@[simp] theorem State.setVslot_get_obj (i : Nat) (v : VSlot) (i' : Nat) : (s.setVslot i v).obj i' = s.obj i' := rfl

/-! ### setOtp -/

@[simp] theorem State.setOtp_pending (o : Otp) : (s.setOtp o).pending = s.pending := rfl
@[simp] theorem State.setOtp_free (o : Otp) : (s.setOtp o).free = s.free := rfl
@[simp] theorem State.setOtp_rsp (o : Otp) : (s.setOtp o).rsp = s.rsp := rfl
@[simp] theorem State.setOtp_hostMem (o : Otp) : (s.setOtp o).hostMem = s.hostMem := rfl
@[simp] theorem State.setOtp_cores (o : Otp) : (s.setOtp o).cores = s.cores := rfl
@[simp] theorem State.setOtp_canal (o : Otp) : (s.setOtp o).canal = s.canal := rfl
@[simp] theorem State.setOtp_secs (o : Otp) : (s.setOtp o).secs = s.secs := rfl
@[simp] theorem State.setOtp_sluices (o : Otp) : (s.setOtp o).sluices = s.sluices := rfl
@[simp] theorem State.setOtp_resv (o : Otp) : (s.setOtp o).resv = s.resv := rfl
@[simp] theorem State.setOtp_aqf (o : Otp) : (s.setOtp o).aqf = s.aqf := rfl
@[simp] theorem State.setOtp_links (o : Otp) : (s.setOtp o).links = s.links := rfl
@[simp] theorem State.setOtp_hwk (o : Otp) : (s.setOtp o).hwk = s.hwk := rfl
@[simp] theorem State.setOtp_rgs (o : Otp) : (s.setOtp o).rgs = s.rgs := rfl
@[simp] theorem State.setOtp_syn (o : Otp) : (s.setOtp o).syn = s.syn := rfl
@[simp] theorem State.setOtp_fns (o : Otp) : (s.setOtp o).fns = s.fns := rfl
@[simp] theorem State.setOtp_parts (o : Otp) : (s.setOtp o).parts = s.parts := rfl
@[simp] theorem State.setOtp_mon (o : Otp) : (s.setOtp o).mon = s.mon := rfl
@[simp] theorem State.setOtp_ras (o : Otp) : (s.setOtp o).ras = s.ras := rfl
@[simp] theorem State.setOtp_pwr (o : Otp) : (s.setOtp o).pwr = s.pwr := rfl
@[simp] theorem State.setOtp_tim (o : Otp) : (s.setOtp o).tim = s.tim := rfl
@[simp] theorem State.setOtp_join (o : Otp) : (s.setOtp o).join = s.join := rfl
@[simp] theorem State.setOtp_get_core (o : Otp) (i' : Nat) : (s.setOtp o).core i' = s.core i' := rfl
@[simp] theorem State.setOtp_get_sec (o : Otp) (i' : Nat) : (s.setOtp o).sec i' = s.sec i' := rfl
@[simp] theorem State.setOtp_get_slu (o : Otp) (i' : Nat) : (s.setOtp o).slu i' = s.slu i' := rfl
@[simp] theorem State.setOtp_get_link (o : Otp) (i' : Nat) : (s.setOtp o).link i' = s.link i' := rfl
@[simp] theorem State.setOtp_get_rg (o : Otp) (i' : Nat) : (s.setOtp o).rg i' = s.rg i' := rfl
@[simp] theorem State.setOtp_get_fn (o : Otp) (i' : Nat) : (s.setOtp o).fn i' = s.fn i' := rfl
@[simp] theorem State.setOtp_get_part (o : Otp) (i' : Nat) : (s.setOtp o).part i' = s.part i' := rfl
@[simp] theorem State.setOtp_get_synPart (o : Otp) (i' : Nat) : (s.setOtp o).synPart i' = s.synPart i' := rfl
@[simp] theorem State.setOtp_get_obj (o : Otp) (i' : Nat) : (s.setOtp o).obj i' = s.obj i' := rfl

/-! ### setPwr -/

@[simp] theorem State.setPwr_pending (x : Pwr) : (s.setPwr x).pending = s.pending := rfl
@[simp] theorem State.setPwr_free (x : Pwr) : (s.setPwr x).free = s.free := rfl
@[simp] theorem State.setPwr_rsp (x : Pwr) : (s.setPwr x).rsp = s.rsp := rfl
@[simp] theorem State.setPwr_hostMem (x : Pwr) : (s.setPwr x).hostMem = s.hostMem := rfl
@[simp] theorem State.setPwr_cores (x : Pwr) : (s.setPwr x).cores = s.cores := rfl
@[simp] theorem State.setPwr_canal (x : Pwr) : (s.setPwr x).canal = s.canal := rfl
@[simp] theorem State.setPwr_secs (x : Pwr) : (s.setPwr x).secs = s.secs := rfl
@[simp] theorem State.setPwr_sluices (x : Pwr) : (s.setPwr x).sluices = s.sluices := rfl
@[simp] theorem State.setPwr_resv (x : Pwr) : (s.setPwr x).resv = s.resv := rfl
@[simp] theorem State.setPwr_aqf (x : Pwr) : (s.setPwr x).aqf = s.aqf := rfl
@[simp] theorem State.setPwr_links (x : Pwr) : (s.setPwr x).links = s.links := rfl
@[simp] theorem State.setPwr_hwk (x : Pwr) : (s.setPwr x).hwk = s.hwk := rfl
@[simp] theorem State.setPwr_rgs (x : Pwr) : (s.setPwr x).rgs = s.rgs := rfl
@[simp] theorem State.setPwr_syn (x : Pwr) : (s.setPwr x).syn = s.syn := rfl
@[simp] theorem State.setPwr_fns (x : Pwr) : (s.setPwr x).fns = s.fns := rfl
@[simp] theorem State.setPwr_parts (x : Pwr) : (s.setPwr x).parts = s.parts := rfl
@[simp] theorem State.setPwr_chr (x : Pwr) : (s.setPwr x).chr = s.chr := rfl
@[simp] theorem State.setPwr_mon (x : Pwr) : (s.setPwr x).mon = s.mon := rfl
@[simp] theorem State.setPwr_ras (x : Pwr) : (s.setPwr x).ras = s.ras := rfl
@[simp] theorem State.setPwr_tim (x : Pwr) : (s.setPwr x).tim = s.tim := rfl
@[simp] theorem State.setPwr_join (x : Pwr) : (s.setPwr x).join = s.join := rfl
@[simp] theorem State.setPwr_get_core (x : Pwr) (i' : Nat) : (s.setPwr x).core i' = s.core i' := rfl
@[simp] theorem State.setPwr_get_sec (x : Pwr) (i' : Nat) : (s.setPwr x).sec i' = s.sec i' := rfl
@[simp] theorem State.setPwr_get_slu (x : Pwr) (i' : Nat) : (s.setPwr x).slu i' = s.slu i' := rfl
@[simp] theorem State.setPwr_get_link (x : Pwr) (i' : Nat) : (s.setPwr x).link i' = s.link i' := rfl
@[simp] theorem State.setPwr_get_rg (x : Pwr) (i' : Nat) : (s.setPwr x).rg i' = s.rg i' := rfl
@[simp] theorem State.setPwr_get_fn (x : Pwr) (i' : Nat) : (s.setPwr x).fn i' = s.fn i' := rfl
@[simp] theorem State.setPwr_get_part (x : Pwr) (i' : Nat) : (s.setPwr x).part i' = s.part i' := rfl
@[simp] theorem State.setPwr_get_synPart (x : Pwr) (i' : Nat) : (s.setPwr x).synPart i' = s.synPart i' := rfl
@[simp] theorem State.setPwr_get_obj (x : Pwr) (i' : Nat) : (s.setPwr x).obj i' = s.obj i' := rfl
@[simp] theorem State.setPwr_get_vslot (x : Pwr) (i' : Nat) : (s.setPwr x).vslot i' = s.vslot i' := rfl

/-! ### setSleep -/

@[simp] theorem State.setSleep_pending (x : Sleep) (st : Nat) : (s.setSleep x st).pending = s.pending := rfl
@[simp] theorem State.setSleep_free (x : Sleep) (st : Nat) : (s.setSleep x st).free = s.free := rfl
@[simp] theorem State.setSleep_rsp (x : Sleep) (st : Nat) : (s.setSleep x st).rsp = s.rsp := rfl
@[simp] theorem State.setSleep_hostMem (x : Sleep) (st : Nat) : (s.setSleep x st).hostMem = s.hostMem := rfl
@[simp] theorem State.setSleep_cores (x : Sleep) (st : Nat) : (s.setSleep x st).cores = s.cores := rfl
@[simp] theorem State.setSleep_canal (x : Sleep) (st : Nat) : (s.setSleep x st).canal = s.canal := rfl
@[simp] theorem State.setSleep_secs (x : Sleep) (st : Nat) : (s.setSleep x st).secs = s.secs := rfl
@[simp] theorem State.setSleep_sluices (x : Sleep) (st : Nat) : (s.setSleep x st).sluices = s.sluices := rfl
@[simp] theorem State.setSleep_resv (x : Sleep) (st : Nat) : (s.setSleep x st).resv = s.resv := rfl
@[simp] theorem State.setSleep_aqf (x : Sleep) (st : Nat) : (s.setSleep x st).aqf = s.aqf := rfl
@[simp] theorem State.setSleep_links (x : Sleep) (st : Nat) : (s.setSleep x st).links = s.links := rfl
@[simp] theorem State.setSleep_hwk (x : Sleep) (st : Nat) : (s.setSleep x st).hwk = s.hwk := rfl
@[simp] theorem State.setSleep_rgs (x : Sleep) (st : Nat) : (s.setSleep x st).rgs = s.rgs := rfl
@[simp] theorem State.setSleep_syn (x : Sleep) (st : Nat) : (s.setSleep x st).syn = s.syn := rfl
@[simp] theorem State.setSleep_fns (x : Sleep) (st : Nat) : (s.setSleep x st).fns = s.fns := rfl
@[simp] theorem State.setSleep_parts (x : Sleep) (st : Nat) : (s.setSleep x st).parts = s.parts := rfl
@[simp] theorem State.setSleep_chr (x : Sleep) (st : Nat) : (s.setSleep x st).chr = s.chr := rfl
@[simp] theorem State.setSleep_mon (x : Sleep) (st : Nat) : (s.setSleep x st).mon = s.mon := rfl
@[simp] theorem State.setSleep_ras (x : Sleep) (st : Nat) : (s.setSleep x st).ras = s.ras := rfl
@[simp] theorem State.setSleep_tim (x : Sleep) (st : Nat) : (s.setSleep x st).tim = s.tim := rfl
@[simp] theorem State.setSleep_join (x : Sleep) (st : Nat) : (s.setSleep x st).join = s.join := rfl
@[simp] theorem State.setSleep_get_core (x : Sleep) (st : Nat) (i' : Nat) : (s.setSleep x st).core i' = s.core i' := rfl
@[simp] theorem State.setSleep_get_sec (x : Sleep) (st : Nat) (i' : Nat) : (s.setSleep x st).sec i' = s.sec i' := rfl
@[simp] theorem State.setSleep_get_slu (x : Sleep) (st : Nat) (i' : Nat) : (s.setSleep x st).slu i' = s.slu i' := rfl
@[simp] theorem State.setSleep_get_link (x : Sleep) (st : Nat) (i' : Nat) : (s.setSleep x st).link i' = s.link i' := rfl
@[simp] theorem State.setSleep_get_rg (x : Sleep) (st : Nat) (i' : Nat) : (s.setSleep x st).rg i' = s.rg i' := rfl
@[simp] theorem State.setSleep_get_fn (x : Sleep) (st : Nat) (i' : Nat) : (s.setSleep x st).fn i' = s.fn i' := rfl
@[simp] theorem State.setSleep_get_part (x : Sleep) (st : Nat) (i' : Nat) : (s.setSleep x st).part i' = s.part i' := rfl
@[simp] theorem State.setSleep_get_synPart (x : Sleep) (st : Nat) (i' : Nat) : (s.setSleep x st).synPart i' = s.synPart i' := rfl
@[simp] theorem State.setSleep_get_obj (x : Sleep) (st : Nat) (i' : Nat) : (s.setSleep x st).obj i' = s.obj i' := rfl
@[simp] theorem State.setSleep_get_vslot (x : Sleep) (st : Nat) (i' : Nat) : (s.setSleep x st).vslot i' = s.vslot i' := rfl

/-! ### setMonCstat -/

@[simp] theorem State.setMonCstat_pending (st : Nat) : (s.setMonCstat st).pending = s.pending := rfl
@[simp] theorem State.setMonCstat_free (st : Nat) : (s.setMonCstat st).free = s.free := rfl
@[simp] theorem State.setMonCstat_rsp (st : Nat) : (s.setMonCstat st).rsp = s.rsp := rfl
@[simp] theorem State.setMonCstat_hostMem (st : Nat) : (s.setMonCstat st).hostMem = s.hostMem := rfl
@[simp] theorem State.setMonCstat_cores (st : Nat) : (s.setMonCstat st).cores = s.cores := rfl
@[simp] theorem State.setMonCstat_canal (st : Nat) : (s.setMonCstat st).canal = s.canal := rfl
@[simp] theorem State.setMonCstat_secs (st : Nat) : (s.setMonCstat st).secs = s.secs := rfl
@[simp] theorem State.setMonCstat_sluices (st : Nat) : (s.setMonCstat st).sluices = s.sluices := rfl
@[simp] theorem State.setMonCstat_resv (st : Nat) : (s.setMonCstat st).resv = s.resv := rfl
@[simp] theorem State.setMonCstat_aqf (st : Nat) : (s.setMonCstat st).aqf = s.aqf := rfl
@[simp] theorem State.setMonCstat_links (st : Nat) : (s.setMonCstat st).links = s.links := rfl
@[simp] theorem State.setMonCstat_hwk (st : Nat) : (s.setMonCstat st).hwk = s.hwk := rfl
@[simp] theorem State.setMonCstat_rgs (st : Nat) : (s.setMonCstat st).rgs = s.rgs := rfl
@[simp] theorem State.setMonCstat_syn (st : Nat) : (s.setMonCstat st).syn = s.syn := rfl
@[simp] theorem State.setMonCstat_fns (st : Nat) : (s.setMonCstat st).fns = s.fns := rfl
@[simp] theorem State.setMonCstat_parts (st : Nat) : (s.setMonCstat st).parts = s.parts := rfl
@[simp] theorem State.setMonCstat_chr (st : Nat) : (s.setMonCstat st).chr = s.chr := rfl
@[simp] theorem State.setMonCstat_ras (st : Nat) : (s.setMonCstat st).ras = s.ras := rfl
@[simp] theorem State.setMonCstat_pwr (st : Nat) : (s.setMonCstat st).pwr = s.pwr := rfl
@[simp] theorem State.setMonCstat_tim (st : Nat) : (s.setMonCstat st).tim = s.tim := rfl
@[simp] theorem State.setMonCstat_join (st : Nat) : (s.setMonCstat st).join = s.join := rfl
@[simp] theorem State.setMonCstat_get_core (st : Nat) (i' : Nat) : (s.setMonCstat st).core i' = s.core i' := rfl
@[simp] theorem State.setMonCstat_get_sec (st : Nat) (i' : Nat) : (s.setMonCstat st).sec i' = s.sec i' := rfl
@[simp] theorem State.setMonCstat_get_slu (st : Nat) (i' : Nat) : (s.setMonCstat st).slu i' = s.slu i' := rfl
@[simp] theorem State.setMonCstat_get_link (st : Nat) (i' : Nat) : (s.setMonCstat st).link i' = s.link i' := rfl
@[simp] theorem State.setMonCstat_get_rg (st : Nat) (i' : Nat) : (s.setMonCstat st).rg i' = s.rg i' := rfl
@[simp] theorem State.setMonCstat_get_fn (st : Nat) (i' : Nat) : (s.setMonCstat st).fn i' = s.fn i' := rfl
@[simp] theorem State.setMonCstat_get_part (st : Nat) (i' : Nat) : (s.setMonCstat st).part i' = s.part i' := rfl
@[simp] theorem State.setMonCstat_get_synPart (st : Nat) (i' : Nat) : (s.setMonCstat st).synPart i' = s.synPart i' := rfl
@[simp] theorem State.setMonCstat_get_obj (st : Nat) (i' : Nat) : (s.setMonCstat st).obj i' = s.obj i' := rfl
@[simp] theorem State.setMonCstat_get_vslot (st : Nat) (i' : Nat) : (s.setMonCstat st).vslot i' = s.vslot i' := rfl

/-! ### setFwCstat -/

@[simp] theorem State.setFwCstat_pending (st : Nat) : (s.setFwCstat st).pending = s.pending := rfl
@[simp] theorem State.setFwCstat_free (st : Nat) : (s.setFwCstat st).free = s.free := rfl
@[simp] theorem State.setFwCstat_rsp (st : Nat) : (s.setFwCstat st).rsp = s.rsp := rfl
@[simp] theorem State.setFwCstat_hostMem (st : Nat) : (s.setFwCstat st).hostMem = s.hostMem := rfl
@[simp] theorem State.setFwCstat_cores (st : Nat) : (s.setFwCstat st).cores = s.cores := rfl
@[simp] theorem State.setFwCstat_canal (st : Nat) : (s.setFwCstat st).canal = s.canal := rfl
@[simp] theorem State.setFwCstat_secs (st : Nat) : (s.setFwCstat st).secs = s.secs := rfl
@[simp] theorem State.setFwCstat_sluices (st : Nat) : (s.setFwCstat st).sluices = s.sluices := rfl
@[simp] theorem State.setFwCstat_resv (st : Nat) : (s.setFwCstat st).resv = s.resv := rfl
@[simp] theorem State.setFwCstat_aqf (st : Nat) : (s.setFwCstat st).aqf = s.aqf := rfl
@[simp] theorem State.setFwCstat_links (st : Nat) : (s.setFwCstat st).links = s.links := rfl
@[simp] theorem State.setFwCstat_hwk (st : Nat) : (s.setFwCstat st).hwk = s.hwk := rfl
@[simp] theorem State.setFwCstat_rgs (st : Nat) : (s.setFwCstat st).rgs = s.rgs := rfl
@[simp] theorem State.setFwCstat_syn (st : Nat) : (s.setFwCstat st).syn = s.syn := rfl
@[simp] theorem State.setFwCstat_fns (st : Nat) : (s.setFwCstat st).fns = s.fns := rfl
@[simp] theorem State.setFwCstat_parts (st : Nat) : (s.setFwCstat st).parts = s.parts := rfl
@[simp] theorem State.setFwCstat_chr (st : Nat) : (s.setFwCstat st).chr = s.chr := rfl
@[simp] theorem State.setFwCstat_ras (st : Nat) : (s.setFwCstat st).ras = s.ras := rfl
@[simp] theorem State.setFwCstat_pwr (st : Nat) : (s.setFwCstat st).pwr = s.pwr := rfl
@[simp] theorem State.setFwCstat_tim (st : Nat) : (s.setFwCstat st).tim = s.tim := rfl
@[simp] theorem State.setFwCstat_join (st : Nat) : (s.setFwCstat st).join = s.join := rfl
@[simp] theorem State.setFwCstat_get_core (st : Nat) (i' : Nat) : (s.setFwCstat st).core i' = s.core i' := rfl
@[simp] theorem State.setFwCstat_get_sec (st : Nat) (i' : Nat) : (s.setFwCstat st).sec i' = s.sec i' := rfl
@[simp] theorem State.setFwCstat_get_slu (st : Nat) (i' : Nat) : (s.setFwCstat st).slu i' = s.slu i' := rfl
@[simp] theorem State.setFwCstat_get_link (st : Nat) (i' : Nat) : (s.setFwCstat st).link i' = s.link i' := rfl
@[simp] theorem State.setFwCstat_get_rg (st : Nat) (i' : Nat) : (s.setFwCstat st).rg i' = s.rg i' := rfl
@[simp] theorem State.setFwCstat_get_fn (st : Nat) (i' : Nat) : (s.setFwCstat st).fn i' = s.fn i' := rfl
@[simp] theorem State.setFwCstat_get_part (st : Nat) (i' : Nat) : (s.setFwCstat st).part i' = s.part i' := rfl
@[simp] theorem State.setFwCstat_get_synPart (st : Nat) (i' : Nat) : (s.setFwCstat st).synPart i' = s.synPart i' := rfl
@[simp] theorem State.setFwCstat_get_obj (st : Nat) (i' : Nat) : (s.setFwCstat st).obj i' = s.obj i' := rfl
@[simp] theorem State.setFwCstat_get_vslot (st : Nat) (i' : Nat) : (s.setFwCstat st).vslot i' = s.vslot i' := rfl

/-! ### setPhase -/

@[simp] theorem State.setPhase_pending (p : Phase) : (s.setPhase p).pending = s.pending := rfl
@[simp] theorem State.setPhase_free (p : Phase) : (s.setPhase p).free = s.free := rfl
@[simp] theorem State.setPhase_rsp (p : Phase) : (s.setPhase p).rsp = s.rsp := rfl
@[simp] theorem State.setPhase_hostMem (p : Phase) : (s.setPhase p).hostMem = s.hostMem := rfl
@[simp] theorem State.setPhase_cores (p : Phase) : (s.setPhase p).cores = s.cores := rfl
@[simp] theorem State.setPhase_canal (p : Phase) : (s.setPhase p).canal = s.canal := rfl
@[simp] theorem State.setPhase_secs (p : Phase) : (s.setPhase p).secs = s.secs := rfl
@[simp] theorem State.setPhase_sluices (p : Phase) : (s.setPhase p).sluices = s.sluices := rfl
@[simp] theorem State.setPhase_resv (p : Phase) : (s.setPhase p).resv = s.resv := rfl
@[simp] theorem State.setPhase_aqf (p : Phase) : (s.setPhase p).aqf = s.aqf := rfl
@[simp] theorem State.setPhase_links (p : Phase) : (s.setPhase p).links = s.links := rfl
@[simp] theorem State.setPhase_hwk (p : Phase) : (s.setPhase p).hwk = s.hwk := rfl
@[simp] theorem State.setPhase_rgs (p : Phase) : (s.setPhase p).rgs = s.rgs := rfl
@[simp] theorem State.setPhase_syn (p : Phase) : (s.setPhase p).syn = s.syn := rfl
@[simp] theorem State.setPhase_fns (p : Phase) : (s.setPhase p).fns = s.fns := rfl
@[simp] theorem State.setPhase_parts (p : Phase) : (s.setPhase p).parts = s.parts := rfl
@[simp] theorem State.setPhase_chr (p : Phase) : (s.setPhase p).chr = s.chr := rfl
@[simp] theorem State.setPhase_ras (p : Phase) : (s.setPhase p).ras = s.ras := rfl
@[simp] theorem State.setPhase_pwr (p : Phase) : (s.setPhase p).pwr = s.pwr := rfl
@[simp] theorem State.setPhase_tim (p : Phase) : (s.setPhase p).tim = s.tim := rfl
@[simp] theorem State.setPhase_join (p : Phase) : (s.setPhase p).join = s.join := rfl
@[simp] theorem State.setPhase_get_core (p : Phase) (i' : Nat) : (s.setPhase p).core i' = s.core i' := rfl
@[simp] theorem State.setPhase_get_sec (p : Phase) (i' : Nat) : (s.setPhase p).sec i' = s.sec i' := rfl
@[simp] theorem State.setPhase_get_slu (p : Phase) (i' : Nat) : (s.setPhase p).slu i' = s.slu i' := rfl
@[simp] theorem State.setPhase_get_link (p : Phase) (i' : Nat) : (s.setPhase p).link i' = s.link i' := rfl
@[simp] theorem State.setPhase_get_rg (p : Phase) (i' : Nat) : (s.setPhase p).rg i' = s.rg i' := rfl
@[simp] theorem State.setPhase_get_fn (p : Phase) (i' : Nat) : (s.setPhase p).fn i' = s.fn i' := rfl
@[simp] theorem State.setPhase_get_part (p : Phase) (i' : Nat) : (s.setPhase p).part i' = s.part i' := rfl
@[simp] theorem State.setPhase_get_synPart (p : Phase) (i' : Nat) : (s.setPhase p).synPart i' = s.synPart i' := rfl
@[simp] theorem State.setPhase_get_obj (p : Phase) (i' : Nat) : (s.setPhase p).obj i' = s.obj i' := rfl
@[simp] theorem State.setPhase_get_vslot (p : Phase) (i' : Nat) : (s.setPhase p).vslot i' = s.vslot i' := rfl

/-! ### dieOff -/

@[simp] theorem State.dieOff_pending (g : LinkState → LinkState) : (s.dieOff g).pending = s.pending := rfl
@[simp] theorem State.dieOff_free (g : LinkState → LinkState) : (s.dieOff g).free = s.free := rfl
@[simp] theorem State.dieOff_rsp (g : LinkState → LinkState) : (s.dieOff g).rsp = s.rsp := rfl
@[simp] theorem State.dieOff_hostMem (g : LinkState → LinkState) : (s.dieOff g).hostMem = s.hostMem := rfl
@[simp] theorem State.dieOff_resv (g : LinkState → LinkState) : (s.dieOff g).resv = s.resv := rfl
@[simp] theorem State.dieOff_parts (g : LinkState → LinkState) : (s.dieOff g).parts = s.parts := rfl
@[simp] theorem State.dieOff_chr (g : LinkState → LinkState) : (s.dieOff g).chr = s.chr := rfl
@[simp] theorem State.dieOff_ras (g : LinkState → LinkState) : (s.dieOff g).ras = s.ras := rfl
@[simp] theorem State.dieOff_tim (g : LinkState → LinkState) : (s.dieOff g).tim = s.tim := rfl
@[simp] theorem State.dieOff_join (g : LinkState → LinkState) : (s.dieOff g).join = s.join := rfl
@[simp] theorem State.dieOff_get_part (g : LinkState → LinkState) (i' : Nat) : (s.dieOff g).part i' = s.part i' := rfl
@[simp] theorem State.dieOff_get_vslot (g : LinkState → LinkState) (i' : Nat) : (s.dieOff g).vslot i' = s.vslot i' := rfl

/-! ### safeListen -/

@[simp] theorem State.safeListen_pending (st : Nat) : (s.safeListen st).pending = s.pending := by unfold State.safeListen; split <;> rfl
@[simp] theorem State.safeListen_free (st : Nat) : (s.safeListen st).free = s.free := by unfold State.safeListen; split <;> rfl
@[simp] theorem State.safeListen_rsp (st : Nat) : (s.safeListen st).rsp = s.rsp := by unfold State.safeListen; split <;> rfl
@[simp] theorem State.safeListen_hostMem (st : Nat) : (s.safeListen st).hostMem = s.hostMem := by unfold State.safeListen; split <;> rfl
@[simp] theorem State.safeListen_resv (st : Nat) : (s.safeListen st).resv = s.resv := by unfold State.safeListen; split <;> rfl
@[simp] theorem State.safeListen_parts (st : Nat) : (s.safeListen st).parts = s.parts := by unfold State.safeListen; split <;> rfl
@[simp] theorem State.safeListen_chr (st : Nat) : (s.safeListen st).chr = s.chr := by unfold State.safeListen; split <;> rfl
@[simp] theorem State.safeListen_ras (st : Nat) : (s.safeListen st).ras = s.ras := by unfold State.safeListen; split <;> rfl
@[simp] theorem State.safeListen_tim (st : Nat) : (s.safeListen st).tim = s.tim := by unfold State.safeListen; split <;> rfl
@[simp] theorem State.safeListen_join (st : Nat) : (s.safeListen st).join = s.join := by unfold State.safeListen; split <;> rfl
@[simp] theorem State.safeListen_get_part (st : Nat) (i' : Nat) : (s.safeListen st).part i' = s.part i' := by unfold State.safeListen; split <;> rfl
@[simp] theorem State.safeListen_get_vslot (st : Nat) (i' : Nat) : (s.safeListen st).vslot i' = s.vslot i' := by unfold State.safeListen; split <;> rfl

/-! ### hostPut -/

@[simp] theorem State.hostPut_pending (a : Nat) (l : List Byte) : (s.hostPut a l).pending = s.pending := rfl
@[simp] theorem State.hostPut_free (a : Nat) (l : List Byte) : (s.hostPut a l).free = s.free := rfl
@[simp] theorem State.hostPut_rsp (a : Nat) (l : List Byte) : (s.hostPut a l).rsp = s.rsp := rfl
@[simp] theorem State.hostPut_cores (a : Nat) (l : List Byte) : (s.hostPut a l).cores = s.cores := rfl
@[simp] theorem State.hostPut_canal (a : Nat) (l : List Byte) : (s.hostPut a l).canal = s.canal := rfl
@[simp] theorem State.hostPut_secs (a : Nat) (l : List Byte) : (s.hostPut a l).secs = s.secs := rfl
@[simp] theorem State.hostPut_sluices (a : Nat) (l : List Byte) : (s.hostPut a l).sluices = s.sluices := rfl
@[simp] theorem State.hostPut_resv (a : Nat) (l : List Byte) : (s.hostPut a l).resv = s.resv := rfl
@[simp] theorem State.hostPut_aqf (a : Nat) (l : List Byte) : (s.hostPut a l).aqf = s.aqf := rfl
@[simp] theorem State.hostPut_links (a : Nat) (l : List Byte) : (s.hostPut a l).links = s.links := rfl
@[simp] theorem State.hostPut_hwk (a : Nat) (l : List Byte) : (s.hostPut a l).hwk = s.hwk := rfl
@[simp] theorem State.hostPut_rgs (a : Nat) (l : List Byte) : (s.hostPut a l).rgs = s.rgs := rfl
@[simp] theorem State.hostPut_syn (a : Nat) (l : List Byte) : (s.hostPut a l).syn = s.syn := rfl
@[simp] theorem State.hostPut_fns (a : Nat) (l : List Byte) : (s.hostPut a l).fns = s.fns := rfl
@[simp] theorem State.hostPut_parts (a : Nat) (l : List Byte) : (s.hostPut a l).parts = s.parts := rfl
@[simp] theorem State.hostPut_chr (a : Nat) (l : List Byte) : (s.hostPut a l).chr = s.chr := rfl
@[simp] theorem State.hostPut_mon (a : Nat) (l : List Byte) : (s.hostPut a l).mon = s.mon := rfl
@[simp] theorem State.hostPut_ras (a : Nat) (l : List Byte) : (s.hostPut a l).ras = s.ras := rfl
@[simp] theorem State.hostPut_pwr (a : Nat) (l : List Byte) : (s.hostPut a l).pwr = s.pwr := rfl
@[simp] theorem State.hostPut_tim (a : Nat) (l : List Byte) : (s.hostPut a l).tim = s.tim := rfl
@[simp] theorem State.hostPut_join (a : Nat) (l : List Byte) : (s.hostPut a l).join = s.join := rfl
@[simp] theorem State.hostPut_get_core (a : Nat) (l : List Byte) (i' : Nat) : (s.hostPut a l).core i' = s.core i' := rfl
@[simp] theorem State.hostPut_get_sec (a : Nat) (l : List Byte) (i' : Nat) : (s.hostPut a l).sec i' = s.sec i' := rfl
@[simp] theorem State.hostPut_get_slu (a : Nat) (l : List Byte) (i' : Nat) : (s.hostPut a l).slu i' = s.slu i' := rfl
@[simp] theorem State.hostPut_get_link (a : Nat) (l : List Byte) (i' : Nat) : (s.hostPut a l).link i' = s.link i' := rfl
@[simp] theorem State.hostPut_get_rg (a : Nat) (l : List Byte) (i' : Nat) : (s.hostPut a l).rg i' = s.rg i' := rfl
@[simp] theorem State.hostPut_get_fn (a : Nat) (l : List Byte) (i' : Nat) : (s.hostPut a l).fn i' = s.fn i' := rfl
@[simp] theorem State.hostPut_get_part (a : Nat) (l : List Byte) (i' : Nat) : (s.hostPut a l).part i' = s.part i' := rfl
@[simp] theorem State.hostPut_get_synPart (a : Nat) (l : List Byte) (i' : Nat) : (s.hostPut a l).synPart i' = s.synPart i' := rfl
@[simp] theorem State.hostPut_get_obj (a : Nat) (l : List Byte) (i' : Nat) : (s.hostPut a l).obj i' = s.obj i' := rfl
@[simp] theorem State.hostPut_get_vslot (a : Nat) (l : List Byte) (i' : Nat) : (s.hostPut a l).vslot i' = s.vslot i' := rfl

/-! ### setRes -/

@[simp] theorem State.setRes_pending (sec off : Nat) (l : List Byte) : (s.setRes sec off l).pending = s.pending := rfl
@[simp] theorem State.setRes_free (sec off : Nat) (l : List Byte) : (s.setRes sec off l).free = s.free := rfl
@[simp] theorem State.setRes_rsp (sec off : Nat) (l : List Byte) : (s.setRes sec off l).rsp = s.rsp := rfl
@[simp] theorem State.setRes_hostMem (sec off : Nat) (l : List Byte) : (s.setRes sec off l).hostMem = s.hostMem := rfl
@[simp] theorem State.setRes_cores (sec off : Nat) (l : List Byte) : (s.setRes sec off l).cores = s.cores := rfl
@[simp] theorem State.setRes_canal (sec off : Nat) (l : List Byte) : (s.setRes sec off l).canal = s.canal := rfl
@[simp] theorem State.setRes_secs (sec off : Nat) (l : List Byte) : (s.setRes sec off l).secs = s.secs := rfl
@[simp] theorem State.setRes_sluices (sec off : Nat) (l : List Byte) : (s.setRes sec off l).sluices = s.sluices := rfl
@[simp] theorem State.setRes_aqf (sec off : Nat) (l : List Byte) : (s.setRes sec off l).aqf = s.aqf := rfl
@[simp] theorem State.setRes_links (sec off : Nat) (l : List Byte) : (s.setRes sec off l).links = s.links := rfl
@[simp] theorem State.setRes_hwk (sec off : Nat) (l : List Byte) : (s.setRes sec off l).hwk = s.hwk := rfl
@[simp] theorem State.setRes_rgs (sec off : Nat) (l : List Byte) : (s.setRes sec off l).rgs = s.rgs := rfl
@[simp] theorem State.setRes_syn (sec off : Nat) (l : List Byte) : (s.setRes sec off l).syn = s.syn := rfl
@[simp] theorem State.setRes_fns (sec off : Nat) (l : List Byte) : (s.setRes sec off l).fns = s.fns := rfl
@[simp] theorem State.setRes_parts (sec off : Nat) (l : List Byte) : (s.setRes sec off l).parts = s.parts := rfl
@[simp] theorem State.setRes_chr (sec off : Nat) (l : List Byte) : (s.setRes sec off l).chr = s.chr := rfl
@[simp] theorem State.setRes_mon (sec off : Nat) (l : List Byte) : (s.setRes sec off l).mon = s.mon := rfl
@[simp] theorem State.setRes_ras (sec off : Nat) (l : List Byte) : (s.setRes sec off l).ras = s.ras := rfl
@[simp] theorem State.setRes_pwr (sec off : Nat) (l : List Byte) : (s.setRes sec off l).pwr = s.pwr := rfl
@[simp] theorem State.setRes_tim (sec off : Nat) (l : List Byte) : (s.setRes sec off l).tim = s.tim := rfl
@[simp] theorem State.setRes_join (sec off : Nat) (l : List Byte) : (s.setRes sec off l).join = s.join := rfl
@[simp] theorem State.setRes_get_core (sec off : Nat) (l : List Byte) (i' : Nat) : (s.setRes sec off l).core i' = s.core i' := rfl
@[simp] theorem State.setRes_get_sec (sec off : Nat) (l : List Byte) (i' : Nat) : (s.setRes sec off l).sec i' = s.sec i' := rfl
@[simp] theorem State.setRes_get_slu (sec off : Nat) (l : List Byte) (i' : Nat) : (s.setRes sec off l).slu i' = s.slu i' := rfl
@[simp] theorem State.setRes_get_link (sec off : Nat) (l : List Byte) (i' : Nat) : (s.setRes sec off l).link i' = s.link i' := rfl
@[simp] theorem State.setRes_get_rg (sec off : Nat) (l : List Byte) (i' : Nat) : (s.setRes sec off l).rg i' = s.rg i' := rfl
@[simp] theorem State.setRes_get_fn (sec off : Nat) (l : List Byte) (i' : Nat) : (s.setRes sec off l).fn i' = s.fn i' := rfl
@[simp] theorem State.setRes_get_part (sec off : Nat) (l : List Byte) (i' : Nat) : (s.setRes sec off l).part i' = s.part i' := rfl
@[simp] theorem State.setRes_get_synPart (sec off : Nat) (l : List Byte) (i' : Nat) : (s.setRes sec off l).synPart i' = s.synPart i' := rfl
@[simp] theorem State.setRes_get_obj (sec off : Nat) (l : List Byte) (i' : Nat) : (s.setRes sec off l).obj i' = s.obj i' := rfl
@[simp] theorem State.setRes_get_vslot (sec off : Nat) (l : List Byte) (i' : Nat) : (s.setRes sec off l).vslot i' = s.vslot i' := rfl

/-! ### zeroRes -/

@[simp] theorem State.zeroRes_pending (sec off n : Nat) : (s.zeroRes sec off n).pending = s.pending := rfl
@[simp] theorem State.zeroRes_free (sec off n : Nat) : (s.zeroRes sec off n).free = s.free := rfl
@[simp] theorem State.zeroRes_rsp (sec off n : Nat) : (s.zeroRes sec off n).rsp = s.rsp := rfl
@[simp] theorem State.zeroRes_hostMem (sec off n : Nat) : (s.zeroRes sec off n).hostMem = s.hostMem := rfl
@[simp] theorem State.zeroRes_cores (sec off n : Nat) : (s.zeroRes sec off n).cores = s.cores := rfl
@[simp] theorem State.zeroRes_canal (sec off n : Nat) : (s.zeroRes sec off n).canal = s.canal := rfl
@[simp] theorem State.zeroRes_secs (sec off n : Nat) : (s.zeroRes sec off n).secs = s.secs := rfl
@[simp] theorem State.zeroRes_sluices (sec off n : Nat) : (s.zeroRes sec off n).sluices = s.sluices := rfl
@[simp] theorem State.zeroRes_aqf (sec off n : Nat) : (s.zeroRes sec off n).aqf = s.aqf := rfl
@[simp] theorem State.zeroRes_links (sec off n : Nat) : (s.zeroRes sec off n).links = s.links := rfl
@[simp] theorem State.zeroRes_hwk (sec off n : Nat) : (s.zeroRes sec off n).hwk = s.hwk := rfl
@[simp] theorem State.zeroRes_rgs (sec off n : Nat) : (s.zeroRes sec off n).rgs = s.rgs := rfl
@[simp] theorem State.zeroRes_syn (sec off n : Nat) : (s.zeroRes sec off n).syn = s.syn := rfl
@[simp] theorem State.zeroRes_fns (sec off n : Nat) : (s.zeroRes sec off n).fns = s.fns := rfl
@[simp] theorem State.zeroRes_parts (sec off n : Nat) : (s.zeroRes sec off n).parts = s.parts := rfl
@[simp] theorem State.zeroRes_chr (sec off n : Nat) : (s.zeroRes sec off n).chr = s.chr := rfl
@[simp] theorem State.zeroRes_mon (sec off n : Nat) : (s.zeroRes sec off n).mon = s.mon := rfl
@[simp] theorem State.zeroRes_ras (sec off n : Nat) : (s.zeroRes sec off n).ras = s.ras := rfl
@[simp] theorem State.zeroRes_pwr (sec off n : Nat) : (s.zeroRes sec off n).pwr = s.pwr := rfl
@[simp] theorem State.zeroRes_tim (sec off n : Nat) : (s.zeroRes sec off n).tim = s.tim := rfl
@[simp] theorem State.zeroRes_join (sec off n : Nat) : (s.zeroRes sec off n).join = s.join := rfl
@[simp] theorem State.zeroRes_get_core (sec off n : Nat) (i' : Nat) : (s.zeroRes sec off n).core i' = s.core i' := rfl
@[simp] theorem State.zeroRes_get_sec (sec off n : Nat) (i' : Nat) : (s.zeroRes sec off n).sec i' = s.sec i' := rfl
@[simp] theorem State.zeroRes_get_slu (sec off n : Nat) (i' : Nat) : (s.zeroRes sec off n).slu i' = s.slu i' := rfl
@[simp] theorem State.zeroRes_get_link (sec off n : Nat) (i' : Nat) : (s.zeroRes sec off n).link i' = s.link i' := rfl
@[simp] theorem State.zeroRes_get_rg (sec off n : Nat) (i' : Nat) : (s.zeroRes sec off n).rg i' = s.rg i' := rfl
@[simp] theorem State.zeroRes_get_fn (sec off n : Nat) (i' : Nat) : (s.zeroRes sec off n).fn i' = s.fn i' := rfl
@[simp] theorem State.zeroRes_get_part (sec off n : Nat) (i' : Nat) : (s.zeroRes sec off n).part i' = s.part i' := rfl
@[simp] theorem State.zeroRes_get_synPart (sec off n : Nat) (i' : Nat) : (s.zeroRes sec off n).synPart i' = s.synPart i' := rfl
@[simp] theorem State.zeroRes_get_obj (sec off n : Nat) (i' : Nat) : (s.zeroRes sec off n).obj i' = s.obj i' := rfl
@[simp] theorem State.zeroRes_get_vslot (sec off n : Nat) (i' : Nat) : (s.zeroRes sec off n).vslot i' = s.vslot i' := rfl

/-! ### sendCanal -/

@[simp] theorem State.sendCanal_pending (m : CanalMsg) : (s.sendCanal m).pending = s.pending := rfl
@[simp] theorem State.sendCanal_free (m : CanalMsg) : (s.sendCanal m).free = s.free := rfl
@[simp] theorem State.sendCanal_rsp (m : CanalMsg) : (s.sendCanal m).rsp = s.rsp := rfl
@[simp] theorem State.sendCanal_hostMem (m : CanalMsg) : (s.sendCanal m).hostMem = s.hostMem := rfl
@[simp] theorem State.sendCanal_cores (m : CanalMsg) : (s.sendCanal m).cores = s.cores := rfl
@[simp] theorem State.sendCanal_secs (m : CanalMsg) : (s.sendCanal m).secs = s.secs := rfl
@[simp] theorem State.sendCanal_sluices (m : CanalMsg) : (s.sendCanal m).sluices = s.sluices := rfl
@[simp] theorem State.sendCanal_resv (m : CanalMsg) : (s.sendCanal m).resv = s.resv := rfl
@[simp] theorem State.sendCanal_aqf (m : CanalMsg) : (s.sendCanal m).aqf = s.aqf := rfl
@[simp] theorem State.sendCanal_links (m : CanalMsg) : (s.sendCanal m).links = s.links := rfl
@[simp] theorem State.sendCanal_hwk (m : CanalMsg) : (s.sendCanal m).hwk = s.hwk := rfl
@[simp] theorem State.sendCanal_rgs (m : CanalMsg) : (s.sendCanal m).rgs = s.rgs := rfl
@[simp] theorem State.sendCanal_syn (m : CanalMsg) : (s.sendCanal m).syn = s.syn := rfl
@[simp] theorem State.sendCanal_fns (m : CanalMsg) : (s.sendCanal m).fns = s.fns := rfl
@[simp] theorem State.sendCanal_parts (m : CanalMsg) : (s.sendCanal m).parts = s.parts := rfl
@[simp] theorem State.sendCanal_chr (m : CanalMsg) : (s.sendCanal m).chr = s.chr := rfl
@[simp] theorem State.sendCanal_mon (m : CanalMsg) : (s.sendCanal m).mon = s.mon := rfl
@[simp] theorem State.sendCanal_ras (m : CanalMsg) : (s.sendCanal m).ras = s.ras := rfl
@[simp] theorem State.sendCanal_pwr (m : CanalMsg) : (s.sendCanal m).pwr = s.pwr := rfl
@[simp] theorem State.sendCanal_tim (m : CanalMsg) : (s.sendCanal m).tim = s.tim := rfl
@[simp] theorem State.sendCanal_join (m : CanalMsg) : (s.sendCanal m).join = s.join := rfl
@[simp] theorem State.sendCanal_get_core (m : CanalMsg) (i' : Nat) : (s.sendCanal m).core i' = s.core i' := rfl
@[simp] theorem State.sendCanal_get_sec (m : CanalMsg) (i' : Nat) : (s.sendCanal m).sec i' = s.sec i' := rfl
@[simp] theorem State.sendCanal_get_slu (m : CanalMsg) (i' : Nat) : (s.sendCanal m).slu i' = s.slu i' := rfl
@[simp] theorem State.sendCanal_get_link (m : CanalMsg) (i' : Nat) : (s.sendCanal m).link i' = s.link i' := rfl
@[simp] theorem State.sendCanal_get_rg (m : CanalMsg) (i' : Nat) : (s.sendCanal m).rg i' = s.rg i' := rfl
@[simp] theorem State.sendCanal_get_fn (m : CanalMsg) (i' : Nat) : (s.sendCanal m).fn i' = s.fn i' := rfl
@[simp] theorem State.sendCanal_get_part (m : CanalMsg) (i' : Nat) : (s.sendCanal m).part i' = s.part i' := rfl
@[simp] theorem State.sendCanal_get_synPart (m : CanalMsg) (i' : Nat) : (s.sendCanal m).synPart i' = s.synPart i' := rfl
@[simp] theorem State.sendCanal_get_obj (m : CanalMsg) (i' : Nat) : (s.sendCanal m).obj i' = s.obj i' := rfl
@[simp] theorem State.sendCanal_get_vslot (m : CanalMsg) (i' : Nat) : (s.sendCanal m).vslot i' = s.vslot i' := rfl

/-! ### sendPacket -/

@[simp] theorem State.sendPacket_pending (p : Packet) : (s.sendPacket p).pending = s.pending := rfl
@[simp] theorem State.sendPacket_free (p : Packet) : (s.sendPacket p).free = s.free := rfl
@[simp] theorem State.sendPacket_rsp (p : Packet) : (s.sendPacket p).rsp = s.rsp := rfl
@[simp] theorem State.sendPacket_hostMem (p : Packet) : (s.sendPacket p).hostMem = s.hostMem := rfl
@[simp] theorem State.sendPacket_cores (p : Packet) : (s.sendPacket p).cores = s.cores := rfl
@[simp] theorem State.sendPacket_canal (p : Packet) : (s.sendPacket p).canal = s.canal := rfl
@[simp] theorem State.sendPacket_secs (p : Packet) : (s.sendPacket p).secs = s.secs := rfl
@[simp] theorem State.sendPacket_sluices (p : Packet) : (s.sendPacket p).sluices = s.sluices := rfl
@[simp] theorem State.sendPacket_resv (p : Packet) : (s.sendPacket p).resv = s.resv := rfl
@[simp] theorem State.sendPacket_aqf (p : Packet) : (s.sendPacket p).aqf = s.aqf := rfl
@[simp] theorem State.sendPacket_links (p : Packet) : (s.sendPacket p).links = s.links := rfl
@[simp] theorem State.sendPacket_rgs (p : Packet) : (s.sendPacket p).rgs = s.rgs := rfl
@[simp] theorem State.sendPacket_syn (p : Packet) : (s.sendPacket p).syn = s.syn := rfl
@[simp] theorem State.sendPacket_fns (p : Packet) : (s.sendPacket p).fns = s.fns := rfl
@[simp] theorem State.sendPacket_parts (p : Packet) : (s.sendPacket p).parts = s.parts := rfl
@[simp] theorem State.sendPacket_chr (p : Packet) : (s.sendPacket p).chr = s.chr := rfl
@[simp] theorem State.sendPacket_mon (p : Packet) : (s.sendPacket p).mon = s.mon := rfl
@[simp] theorem State.sendPacket_ras (p : Packet) : (s.sendPacket p).ras = s.ras := rfl
@[simp] theorem State.sendPacket_pwr (p : Packet) : (s.sendPacket p).pwr = s.pwr := rfl
@[simp] theorem State.sendPacket_tim (p : Packet) : (s.sendPacket p).tim = s.tim := rfl
@[simp] theorem State.sendPacket_join (p : Packet) : (s.sendPacket p).join = s.join := rfl
@[simp] theorem State.sendPacket_get_core (p : Packet) (i' : Nat) : (s.sendPacket p).core i' = s.core i' := rfl
@[simp] theorem State.sendPacket_get_sec (p : Packet) (i' : Nat) : (s.sendPacket p).sec i' = s.sec i' := rfl
@[simp] theorem State.sendPacket_get_slu (p : Packet) (i' : Nat) : (s.sendPacket p).slu i' = s.slu i' := rfl
@[simp] theorem State.sendPacket_get_link (p : Packet) (i' : Nat) : (s.sendPacket p).link i' = s.link i' := rfl
@[simp] theorem State.sendPacket_get_rg (p : Packet) (i' : Nat) : (s.sendPacket p).rg i' = s.rg i' := rfl
@[simp] theorem State.sendPacket_get_fn (p : Packet) (i' : Nat) : (s.sendPacket p).fn i' = s.fn i' := rfl
@[simp] theorem State.sendPacket_get_part (p : Packet) (i' : Nat) : (s.sendPacket p).part i' = s.part i' := rfl
@[simp] theorem State.sendPacket_get_synPart (p : Packet) (i' : Nat) : (s.sendPacket p).synPart i' = s.synPart i' := rfl
@[simp] theorem State.sendPacket_get_obj (p : Packet) (i' : Nat) : (s.sendPacket p).obj i' = s.obj i' := rfl
@[simp] theorem State.sendPacket_get_vslot (p : Packet) (i' : Nat) : (s.sendPacket p).vslot i' = s.vslot i' := rfl

/-! ### takeInbox -/

@[simp] theorem State.takeInbox_pending (p : Packet) : (s.takeInbox p).pending = s.pending := rfl
@[simp] theorem State.takeInbox_free (p : Packet) : (s.takeInbox p).free = s.free := rfl
@[simp] theorem State.takeInbox_rsp (p : Packet) : (s.takeInbox p).rsp = s.rsp := rfl
@[simp] theorem State.takeInbox_hostMem (p : Packet) : (s.takeInbox p).hostMem = s.hostMem := rfl
@[simp] theorem State.takeInbox_cores (p : Packet) : (s.takeInbox p).cores = s.cores := rfl
@[simp] theorem State.takeInbox_canal (p : Packet) : (s.takeInbox p).canal = s.canal := rfl
@[simp] theorem State.takeInbox_secs (p : Packet) : (s.takeInbox p).secs = s.secs := rfl
@[simp] theorem State.takeInbox_sluices (p : Packet) : (s.takeInbox p).sluices = s.sluices := rfl
@[simp] theorem State.takeInbox_resv (p : Packet) : (s.takeInbox p).resv = s.resv := rfl
@[simp] theorem State.takeInbox_aqf (p : Packet) : (s.takeInbox p).aqf = s.aqf := rfl
@[simp] theorem State.takeInbox_links (p : Packet) : (s.takeInbox p).links = s.links := rfl
@[simp] theorem State.takeInbox_rgs (p : Packet) : (s.takeInbox p).rgs = s.rgs := rfl
@[simp] theorem State.takeInbox_syn (p : Packet) : (s.takeInbox p).syn = s.syn := rfl
@[simp] theorem State.takeInbox_fns (p : Packet) : (s.takeInbox p).fns = s.fns := rfl
@[simp] theorem State.takeInbox_parts (p : Packet) : (s.takeInbox p).parts = s.parts := rfl
@[simp] theorem State.takeInbox_chr (p : Packet) : (s.takeInbox p).chr = s.chr := rfl
@[simp] theorem State.takeInbox_mon (p : Packet) : (s.takeInbox p).mon = s.mon := rfl
@[simp] theorem State.takeInbox_ras (p : Packet) : (s.takeInbox p).ras = s.ras := rfl
@[simp] theorem State.takeInbox_pwr (p : Packet) : (s.takeInbox p).pwr = s.pwr := rfl
@[simp] theorem State.takeInbox_tim (p : Packet) : (s.takeInbox p).tim = s.tim := rfl
@[simp] theorem State.takeInbox_join (p : Packet) : (s.takeInbox p).join = s.join := rfl
@[simp] theorem State.takeInbox_get_core (p : Packet) (i' : Nat) : (s.takeInbox p).core i' = s.core i' := rfl
@[simp] theorem State.takeInbox_get_sec (p : Packet) (i' : Nat) : (s.takeInbox p).sec i' = s.sec i' := rfl
@[simp] theorem State.takeInbox_get_slu (p : Packet) (i' : Nat) : (s.takeInbox p).slu i' = s.slu i' := rfl
@[simp] theorem State.takeInbox_get_link (p : Packet) (i' : Nat) : (s.takeInbox p).link i' = s.link i' := rfl
@[simp] theorem State.takeInbox_get_rg (p : Packet) (i' : Nat) : (s.takeInbox p).rg i' = s.rg i' := rfl
@[simp] theorem State.takeInbox_get_fn (p : Packet) (i' : Nat) : (s.takeInbox p).fn i' = s.fn i' := rfl
@[simp] theorem State.takeInbox_get_part (p : Packet) (i' : Nat) : (s.takeInbox p).part i' = s.part i' := rfl
@[simp] theorem State.takeInbox_get_synPart (p : Packet) (i' : Nat) : (s.takeInbox p).synPart i' = s.synPart i' := rfl
@[simp] theorem State.takeInbox_get_obj (p : Packet) (i' : Nat) : (s.takeInbox p).obj i' = s.obj i' := rfl
@[simp] theorem State.takeInbox_get_vslot (p : Packet) (i' : Nat) : (s.takeInbox p).vslot i' = s.vslot i' := rfl

/-! ### setEpoch -/

@[simp] theorem State.setEpoch_pending (cid e : Nat) : (s.setEpoch cid e).pending = s.pending := rfl
@[simp] theorem State.setEpoch_free (cid e : Nat) : (s.setEpoch cid e).free = s.free := rfl
@[simp] theorem State.setEpoch_rsp (cid e : Nat) : (s.setEpoch cid e).rsp = s.rsp := rfl
@[simp] theorem State.setEpoch_hostMem (cid e : Nat) : (s.setEpoch cid e).hostMem = s.hostMem := rfl
@[simp] theorem State.setEpoch_cores (cid e : Nat) : (s.setEpoch cid e).cores = s.cores := rfl
@[simp] theorem State.setEpoch_canal (cid e : Nat) : (s.setEpoch cid e).canal = s.canal := rfl
@[simp] theorem State.setEpoch_secs (cid e : Nat) : (s.setEpoch cid e).secs = s.secs := rfl
@[simp] theorem State.setEpoch_sluices (cid e : Nat) : (s.setEpoch cid e).sluices = s.sluices := rfl
@[simp] theorem State.setEpoch_resv (cid e : Nat) : (s.setEpoch cid e).resv = s.resv := rfl
@[simp] theorem State.setEpoch_aqf (cid e : Nat) : (s.setEpoch cid e).aqf = s.aqf := rfl
@[simp] theorem State.setEpoch_links (cid e : Nat) : (s.setEpoch cid e).links = s.links := rfl
@[simp] theorem State.setEpoch_rgs (cid e : Nat) : (s.setEpoch cid e).rgs = s.rgs := rfl
@[simp] theorem State.setEpoch_syn (cid e : Nat) : (s.setEpoch cid e).syn = s.syn := rfl
@[simp] theorem State.setEpoch_fns (cid e : Nat) : (s.setEpoch cid e).fns = s.fns := rfl
@[simp] theorem State.setEpoch_parts (cid e : Nat) : (s.setEpoch cid e).parts = s.parts := rfl
@[simp] theorem State.setEpoch_chr (cid e : Nat) : (s.setEpoch cid e).chr = s.chr := rfl
@[simp] theorem State.setEpoch_mon (cid e : Nat) : (s.setEpoch cid e).mon = s.mon := rfl
@[simp] theorem State.setEpoch_ras (cid e : Nat) : (s.setEpoch cid e).ras = s.ras := rfl
@[simp] theorem State.setEpoch_pwr (cid e : Nat) : (s.setEpoch cid e).pwr = s.pwr := rfl
@[simp] theorem State.setEpoch_tim (cid e : Nat) : (s.setEpoch cid e).tim = s.tim := rfl
@[simp] theorem State.setEpoch_join (cid e : Nat) : (s.setEpoch cid e).join = s.join := rfl
@[simp] theorem State.setEpoch_get_core (cid e : Nat) (i' : Nat) : (s.setEpoch cid e).core i' = s.core i' := rfl
@[simp] theorem State.setEpoch_get_sec (cid e : Nat) (i' : Nat) : (s.setEpoch cid e).sec i' = s.sec i' := rfl
@[simp] theorem State.setEpoch_get_slu (cid e : Nat) (i' : Nat) : (s.setEpoch cid e).slu i' = s.slu i' := rfl
@[simp] theorem State.setEpoch_get_link (cid e : Nat) (i' : Nat) : (s.setEpoch cid e).link i' = s.link i' := rfl
@[simp] theorem State.setEpoch_get_rg (cid e : Nat) (i' : Nat) : (s.setEpoch cid e).rg i' = s.rg i' := rfl
@[simp] theorem State.setEpoch_get_fn (cid e : Nat) (i' : Nat) : (s.setEpoch cid e).fn i' = s.fn i' := rfl
@[simp] theorem State.setEpoch_get_part (cid e : Nat) (i' : Nat) : (s.setEpoch cid e).part i' = s.part i' := rfl
@[simp] theorem State.setEpoch_get_synPart (cid e : Nat) (i' : Nat) : (s.setEpoch cid e).synPart i' = s.synPart i' := rfl
@[simp] theorem State.setEpoch_get_obj (cid e : Nat) (i' : Nat) : (s.setEpoch cid e).obj i' = s.obj i' := rfl
@[simp] theorem State.setEpoch_get_vslot (cid e : Nat) (i' : Nat) : (s.setEpoch cid e).vslot i' = s.vslot i' := rfl

/-! ### report -/

@[simp] theorem State.report_pending (r : Rec) : (s.report r).pending = s.pending := rfl
@[simp] theorem State.report_free (r : Rec) : (s.report r).free = s.free := rfl
@[simp] theorem State.report_rsp (r : Rec) : (s.report r).rsp = s.rsp := rfl
@[simp] theorem State.report_hostMem (r : Rec) : (s.report r).hostMem = s.hostMem := rfl
@[simp] theorem State.report_cores (r : Rec) : (s.report r).cores = s.cores := rfl
@[simp] theorem State.report_canal (r : Rec) : (s.report r).canal = s.canal := rfl
@[simp] theorem State.report_secs (r : Rec) : (s.report r).secs = s.secs := rfl
@[simp] theorem State.report_sluices (r : Rec) : (s.report r).sluices = s.sluices := rfl
@[simp] theorem State.report_resv (r : Rec) : (s.report r).resv = s.resv := rfl
@[simp] theorem State.report_aqf (r : Rec) : (s.report r).aqf = s.aqf := rfl
@[simp] theorem State.report_links (r : Rec) : (s.report r).links = s.links := rfl
@[simp] theorem State.report_hwk (r : Rec) : (s.report r).hwk = s.hwk := rfl
@[simp] theorem State.report_rgs (r : Rec) : (s.report r).rgs = s.rgs := rfl
@[simp] theorem State.report_syn (r : Rec) : (s.report r).syn = s.syn := rfl
@[simp] theorem State.report_fns (r : Rec) : (s.report r).fns = s.fns := rfl
@[simp] theorem State.report_parts (r : Rec) : (s.report r).parts = s.parts := rfl
@[simp] theorem State.report_chr (r : Rec) : (s.report r).chr = s.chr := rfl
@[simp] theorem State.report_mon (r : Rec) : (s.report r).mon = s.mon := rfl
@[simp] theorem State.report_pwr (r : Rec) : (s.report r).pwr = s.pwr := rfl
@[simp] theorem State.report_tim (r : Rec) : (s.report r).tim = s.tim := rfl
@[simp] theorem State.report_join (r : Rec) : (s.report r).join = s.join := rfl
@[simp] theorem State.report_get_core (r : Rec) (i' : Nat) : (s.report r).core i' = s.core i' := rfl
@[simp] theorem State.report_get_sec (r : Rec) (i' : Nat) : (s.report r).sec i' = s.sec i' := rfl
@[simp] theorem State.report_get_slu (r : Rec) (i' : Nat) : (s.report r).slu i' = s.slu i' := rfl
@[simp] theorem State.report_get_link (r : Rec) (i' : Nat) : (s.report r).link i' = s.link i' := rfl
@[simp] theorem State.report_get_rg (r : Rec) (i' : Nat) : (s.report r).rg i' = s.rg i' := rfl
@[simp] theorem State.report_get_fn (r : Rec) (i' : Nat) : (s.report r).fn i' = s.fn i' := rfl
@[simp] theorem State.report_get_part (r : Rec) (i' : Nat) : (s.report r).part i' = s.part i' := rfl
@[simp] theorem State.report_get_synPart (r : Rec) (i' : Nat) : (s.report r).synPart i' = s.synPart i' := rfl
@[simp] theorem State.report_get_obj (r : Rec) (i' : Nat) : (s.report r).obj i' = s.obj i' := rfl
@[simp] theorem State.report_get_vslot (r : Rec) (i' : Nat) : (s.report r).vslot i' = s.vslot i' := rfl

/-! ### answer -/

@[simp] theorem State.answer_pending (st : Nat) (w : List Word) (b : List Byte) : (s.answer st w b).pending = s.pending := rfl
@[simp] theorem State.answer_free (st : Nat) (w : List Word) (b : List Byte) : (s.answer st w b).free = s.free := rfl
@[simp] theorem State.answer_hostMem (st : Nat) (w : List Word) (b : List Byte) : (s.answer st w b).hostMem = s.hostMem := rfl
@[simp] theorem State.answer_cores (st : Nat) (w : List Word) (b : List Byte) : (s.answer st w b).cores = s.cores := rfl
@[simp] theorem State.answer_canal (st : Nat) (w : List Word) (b : List Byte) : (s.answer st w b).canal = s.canal := rfl
@[simp] theorem State.answer_secs (st : Nat) (w : List Word) (b : List Byte) : (s.answer st w b).secs = s.secs := rfl
@[simp] theorem State.answer_sluices (st : Nat) (w : List Word) (b : List Byte) : (s.answer st w b).sluices = s.sluices := rfl
@[simp] theorem State.answer_resv (st : Nat) (w : List Word) (b : List Byte) : (s.answer st w b).resv = s.resv := rfl
@[simp] theorem State.answer_aqf (st : Nat) (w : List Word) (b : List Byte) : (s.answer st w b).aqf = s.aqf := rfl
@[simp] theorem State.answer_links (st : Nat) (w : List Word) (b : List Byte) : (s.answer st w b).links = s.links := rfl
@[simp] theorem State.answer_hwk (st : Nat) (w : List Word) (b : List Byte) : (s.answer st w b).hwk = s.hwk := rfl
@[simp] theorem State.answer_rgs (st : Nat) (w : List Word) (b : List Byte) : (s.answer st w b).rgs = s.rgs := rfl
@[simp] theorem State.answer_syn (st : Nat) (w : List Word) (b : List Byte) : (s.answer st w b).syn = s.syn := rfl
@[simp] theorem State.answer_fns (st : Nat) (w : List Word) (b : List Byte) : (s.answer st w b).fns = s.fns := rfl
@[simp] theorem State.answer_parts (st : Nat) (w : List Word) (b : List Byte) : (s.answer st w b).parts = s.parts := rfl
@[simp] theorem State.answer_chr (st : Nat) (w : List Word) (b : List Byte) : (s.answer st w b).chr = s.chr := rfl
@[simp] theorem State.answer_mon (st : Nat) (w : List Word) (b : List Byte) : (s.answer st w b).mon = s.mon := rfl
@[simp] theorem State.answer_ras (st : Nat) (w : List Word) (b : List Byte) : (s.answer st w b).ras = s.ras := rfl
@[simp] theorem State.answer_pwr (st : Nat) (w : List Word) (b : List Byte) : (s.answer st w b).pwr = s.pwr := rfl
@[simp] theorem State.answer_tim (st : Nat) (w : List Word) (b : List Byte) : (s.answer st w b).tim = s.tim := rfl
@[simp] theorem State.answer_join (st : Nat) (w : List Word) (b : List Byte) : (s.answer st w b).join = s.join := rfl
@[simp] theorem State.answer_get_core (st : Nat) (w : List Word) (b : List Byte) (i' : Nat) : (s.answer st w b).core i' = s.core i' := rfl
@[simp] theorem State.answer_get_sec (st : Nat) (w : List Word) (b : List Byte) (i' : Nat) : (s.answer st w b).sec i' = s.sec i' := rfl
@[simp] theorem State.answer_get_slu (st : Nat) (w : List Word) (b : List Byte) (i' : Nat) : (s.answer st w b).slu i' = s.slu i' := rfl
@[simp] theorem State.answer_get_link (st : Nat) (w : List Word) (b : List Byte) (i' : Nat) : (s.answer st w b).link i' = s.link i' := rfl
@[simp] theorem State.answer_get_rg (st : Nat) (w : List Word) (b : List Byte) (i' : Nat) : (s.answer st w b).rg i' = s.rg i' := rfl
@[simp] theorem State.answer_get_fn (st : Nat) (w : List Word) (b : List Byte) (i' : Nat) : (s.answer st w b).fn i' = s.fn i' := rfl
@[simp] theorem State.answer_get_part (st : Nat) (w : List Word) (b : List Byte) (i' : Nat) : (s.answer st w b).part i' = s.part i' := rfl
@[simp] theorem State.answer_get_synPart (st : Nat) (w : List Word) (b : List Byte) (i' : Nat) : (s.answer st w b).synPart i' = s.synPart i' := rfl
@[simp] theorem State.answer_get_obj (st : Nat) (w : List Word) (b : List Byte) (i' : Nat) : (s.answer st w b).obj i' = s.obj i' := rfl
@[simp] theorem State.answer_get_vslot (st : Nat) (w : List Word) (b : List Byte) (i' : Nat) : (s.answer st w b).vslot i' = s.vslot i' := rfl

/-! ### tick -/

@[simp] theorem State.tick_pending : (s.tick).pending = s.pending := rfl
@[simp] theorem State.tick_free : (s.tick).free = s.free := rfl
@[simp] theorem State.tick_rsp : (s.tick).rsp = s.rsp := rfl
@[simp] theorem State.tick_hostMem : (s.tick).hostMem = s.hostMem := rfl
@[simp] theorem State.tick_cores : (s.tick).cores = s.cores := rfl
@[simp] theorem State.tick_canal : (s.tick).canal = s.canal := rfl
@[simp] theorem State.tick_secs : (s.tick).secs = s.secs := rfl
@[simp] theorem State.tick_sluices : (s.tick).sluices = s.sluices := rfl
@[simp] theorem State.tick_resv : (s.tick).resv = s.resv := rfl
@[simp] theorem State.tick_aqf : (s.tick).aqf = s.aqf := rfl
@[simp] theorem State.tick_links : (s.tick).links = s.links := rfl
@[simp] theorem State.tick_hwk : (s.tick).hwk = s.hwk := rfl
@[simp] theorem State.tick_rgs : (s.tick).rgs = s.rgs := rfl
@[simp] theorem State.tick_syn : (s.tick).syn = s.syn := rfl
@[simp] theorem State.tick_fns : (s.tick).fns = s.fns := rfl
@[simp] theorem State.tick_parts : (s.tick).parts = s.parts := rfl
@[simp] theorem State.tick_chr : (s.tick).chr = s.chr := rfl
@[simp] theorem State.tick_mon : (s.tick).mon = s.mon := rfl
@[simp] theorem State.tick_ras : (s.tick).ras = s.ras := rfl
@[simp] theorem State.tick_pwr : (s.tick).pwr = s.pwr := rfl
@[simp] theorem State.tick_join : (s.tick).join = s.join := rfl
@[simp] theorem State.tick_get_core (i' : Nat) : (s.tick).core i' = s.core i' := rfl
@[simp] theorem State.tick_get_sec (i' : Nat) : (s.tick).sec i' = s.sec i' := rfl
@[simp] theorem State.tick_get_slu (i' : Nat) : (s.tick).slu i' = s.slu i' := rfl
@[simp] theorem State.tick_get_link (i' : Nat) : (s.tick).link i' = s.link i' := rfl
@[simp] theorem State.tick_get_rg (i' : Nat) : (s.tick).rg i' = s.rg i' := rfl
@[simp] theorem State.tick_get_fn (i' : Nat) : (s.tick).fn i' = s.fn i' := rfl
@[simp] theorem State.tick_get_part (i' : Nat) : (s.tick).part i' = s.part i' := rfl
@[simp] theorem State.tick_get_synPart (i' : Nat) : (s.tick).synPart i' = s.synPart i' := rfl
@[simp] theorem State.tick_get_obj (i' : Nat) : (s.tick).obj i' = s.obj i' := rfl
@[simp] theorem State.tick_get_vslot (i' : Nat) : (s.tick).vslot i' = s.vslot i' := rfl

/-! ### timSetEnd -/

@[simp] theorem State.timSetEnd_pending (st : Nat) : (s.timSetEnd st).pending = s.pending := rfl
@[simp] theorem State.timSetEnd_free (st : Nat) : (s.timSetEnd st).free = s.free := rfl
@[simp] theorem State.timSetEnd_rsp (st : Nat) : (s.timSetEnd st).rsp = s.rsp := rfl
@[simp] theorem State.timSetEnd_hostMem (st : Nat) : (s.timSetEnd st).hostMem = s.hostMem := rfl
@[simp] theorem State.timSetEnd_cores (st : Nat) : (s.timSetEnd st).cores = s.cores := rfl
@[simp] theorem State.timSetEnd_canal (st : Nat) : (s.timSetEnd st).canal = s.canal := rfl
@[simp] theorem State.timSetEnd_secs (st : Nat) : (s.timSetEnd st).secs = s.secs := rfl
@[simp] theorem State.timSetEnd_sluices (st : Nat) : (s.timSetEnd st).sluices = s.sluices := rfl
@[simp] theorem State.timSetEnd_resv (st : Nat) : (s.timSetEnd st).resv = s.resv := rfl
@[simp] theorem State.timSetEnd_aqf (st : Nat) : (s.timSetEnd st).aqf = s.aqf := rfl
@[simp] theorem State.timSetEnd_links (st : Nat) : (s.timSetEnd st).links = s.links := rfl
@[simp] theorem State.timSetEnd_hwk (st : Nat) : (s.timSetEnd st).hwk = s.hwk := rfl
@[simp] theorem State.timSetEnd_rgs (st : Nat) : (s.timSetEnd st).rgs = s.rgs := rfl
@[simp] theorem State.timSetEnd_syn (st : Nat) : (s.timSetEnd st).syn = s.syn := rfl
@[simp] theorem State.timSetEnd_fns (st : Nat) : (s.timSetEnd st).fns = s.fns := rfl
@[simp] theorem State.timSetEnd_parts (st : Nat) : (s.timSetEnd st).parts = s.parts := rfl
@[simp] theorem State.timSetEnd_chr (st : Nat) : (s.timSetEnd st).chr = s.chr := rfl
@[simp] theorem State.timSetEnd_mon (st : Nat) : (s.timSetEnd st).mon = s.mon := rfl
@[simp] theorem State.timSetEnd_ras (st : Nat) : (s.timSetEnd st).ras = s.ras := rfl
@[simp] theorem State.timSetEnd_pwr (st : Nat) : (s.timSetEnd st).pwr = s.pwr := rfl
@[simp] theorem State.timSetEnd_join (st : Nat) : (s.timSetEnd st).join = s.join := rfl
@[simp] theorem State.timSetEnd_get_core (st : Nat) (i' : Nat) : (s.timSetEnd st).core i' = s.core i' := rfl
@[simp] theorem State.timSetEnd_get_sec (st : Nat) (i' : Nat) : (s.timSetEnd st).sec i' = s.sec i' := rfl
@[simp] theorem State.timSetEnd_get_slu (st : Nat) (i' : Nat) : (s.timSetEnd st).slu i' = s.slu i' := rfl
@[simp] theorem State.timSetEnd_get_link (st : Nat) (i' : Nat) : (s.timSetEnd st).link i' = s.link i' := rfl
@[simp] theorem State.timSetEnd_get_rg (st : Nat) (i' : Nat) : (s.timSetEnd st).rg i' = s.rg i' := rfl
@[simp] theorem State.timSetEnd_get_fn (st : Nat) (i' : Nat) : (s.timSetEnd st).fn i' = s.fn i' := rfl
@[simp] theorem State.timSetEnd_get_part (st : Nat) (i' : Nat) : (s.timSetEnd st).part i' = s.part i' := rfl
@[simp] theorem State.timSetEnd_get_synPart (st : Nat) (i' : Nat) : (s.timSetEnd st).synPart i' = s.synPart i' := rfl
@[simp] theorem State.timSetEnd_get_obj (st : Nat) (i' : Nat) : (s.timSetEnd st).obj i' = s.obj i' := rfl
@[simp] theorem State.timSetEnd_get_vslot (st : Nat) (i' : Nat) : (s.timSetEnd st).vslot i' = s.vslot i' := rfl

@[simp] theorem State.setSynPart_obj (p : Nat) (x : SynPart) (i : Nat) : (s.setSynPart p x).obj i = s.obj i := rfl
@[simp] theorem State.setObj_synPart (y : Nat) (x : Option SynObj) (i : Nat) : (s.setObj y x).synPart i = s.synPart i := rfl

/-! ### What is read after an update of the same kind -/

@[simp] theorem State.setCore_core_ne (c j : Nat) (k : Core) (h : j ≠ c) : (s.setCore c k).core j = s.core j := sget_sset_ne _ _ _ _ _ h
theorem State.setCore_core (c : Nat) (k : Core) (w : swf {} s.cores = true) : (s.setCore c k).core c = k := sget_sset_wf _ _ _ _ _ w
theorem State.setCore_wf (c : Nat) (k : Core) (w : swf {} s.cores = true) : swf {} (s.setCore c k).cores = true := swf_sset _ _ _ _ w
@[simp] theorem State.setSec_sec_ne (n j : Nat) (x : Sec) (h : j ≠ n) : (s.setSec n x).sec j = s.sec j := sget_sset_ne _ _ _ _ _ h
theorem State.setSec_sec (n : Nat) (x : Sec) (w : swf {} s.secs = true) : (s.setSec n x).sec n = x := sget_sset_wf _ _ _ _ _ w
theorem State.setSec_wf (n : Nat) (x : Sec) (w : swf {} s.secs = true) : swf {} (s.setSec n x).secs = true := swf_sset _ _ _ _ w
@[simp] theorem State.setSlu_slu_ne (n j : Nat) (x : Sluice) (h : j ≠ n) : (s.setSlu n x).slu j = s.slu j := sget_sset_ne _ _ _ _ _ h
theorem State.setSlu_slu (n : Nat) (x : Sluice) (w : swf {} s.sluices = true) : (s.setSlu n x).slu n = x := sget_sset_wf _ _ _ _ _ w
theorem State.setSlu_wf (n : Nat) (x : Sluice) (w : swf {} s.sluices = true) : swf {} (s.setSlu n x).sluices = true := swf_sset _ _ _ _ w
@[simp] theorem State.setLink_link_ne (n j : Nat) (x : Link) (h : j ≠ n) : (s.setLink n x).link j = s.link j := sget_sset_ne _ _ _ _ _ h
theorem State.setLink_link (n : Nat) (x : Link) (w : swf {} s.links = true) : (s.setLink n x).link n = x := sget_sset_wf _ _ _ _ _ w
theorem State.setLink_wf (n : Nat) (x : Link) (w : swf {} s.links = true) : swf {} (s.setLink n x).links = true := swf_sset _ _ _ _ w
@[simp] theorem State.setRg_rg_ne (e j : Nat) (x : RGroup) (h : j ≠ e) : (s.setRg e x).rg j = s.rg j := sget_sset_ne _ _ _ _ _ h
theorem State.setRg_rg (e : Nat) (x : RGroup) (w : swf {} s.rgs = true) : (s.setRg e x).rg e = x := sget_sset_wf _ _ _ _ _ w
theorem State.setRg_wf (e : Nat) (x : RGroup) (w : swf {} s.rgs = true) : swf {} (s.setRg e x).rgs = true := swf_sset _ _ _ _ w
@[simp] theorem State.setFn_fn_ne (f j : Nat) (x : Fn) (h : j ≠ f) : (s.setFn f x).fn j = s.fn j := sget_sset_ne _ _ _ _ _ h
theorem State.setFn_fn (f : Nat) (x : Fn) (w : swf {} s.fns = true) : (s.setFn f x).fn f = x := sget_sset_wf _ _ _ _ _ w
theorem State.setFn_wf (f : Nat) (x : Fn) (w : swf {} s.fns = true) : swf {} (s.setFn f x).fns = true := swf_sset _ _ _ _ w
@[simp] theorem State.setPart_part_ne (p j : Nat) (x : Part) (h : j ≠ p) : (s.setPart p x).part j = s.part j := sget_sset_ne _ _ _ _ _ h
theorem State.setPart_part (p : Nat) (x : Part) (w : swf {} s.parts = true) : (s.setPart p x).part p = x := sget_sset_wf _ _ _ _ _ w
theorem State.setPart_wf (p : Nat) (x : Part) (w : swf {} s.parts = true) : swf {} (s.setPart p x).parts = true := swf_sset _ _ _ _ w
@[simp] theorem State.setSynPart_synPart_ne (p j : Nat) (x : SynPart) (h : j ≠ p) : (s.setSynPart p x).synPart j = s.synPart j := sget_sset_ne _ _ _ _ _ h
theorem State.setSynPart_synPart (p : Nat) (x : SynPart) (w : swf {} s.syn.parts = true) : (s.setSynPart p x).synPart p = x := sget_sset_wf _ _ _ _ _ w
theorem State.setSynPart_wf (p : Nat) (x : SynPart) (w : swf {} s.syn.parts = true) : swf {} (s.setSynPart p x).syn.parts = true := swf_sset _ _ _ _ w
@[simp] theorem State.setObj_obj_ne (y j : Nat) (x : Option SynObj) (h : j ≠ y) : (s.setObj y x).obj j = s.obj j := sget_sset_ne _ _ _ _ _ h
theorem State.setObj_obj (y : Nat) (x : Option SynObj) (w : swf none s.syn.objs = true) : (s.setObj y x).obj y = x := sget_sset_wf _ _ _ _ _ w
theorem State.setObj_wf (y : Nat) (x : Option SynObj) (w : swf none s.syn.objs = true) : swf none (s.setObj y x).syn.objs = true := swf_sset _ _ _ _ w
@[simp] theorem State.setVslot_vslot_ne (i j : Nat) (x : VSlot) (h : j ≠ i) : (s.setVslot i x).vslot j = s.vslot j := sget_sset_ne _ _ _ _ _ h
theorem State.setVslot_vslot (i : Nat) (x : VSlot) (w : swf {} s.chr.vault = true) : (s.setVslot i x).vslot i = x := sget_sset_wf _ _ _ _ _ w
theorem State.setVslot_wf (i : Nat) (x : VSlot) (w : swf {} s.chr.vault = true) : swf {} (s.setVslot i x).chr.vault = true := swf_sset _ _ _ _ w
theorem State.hostPut_wf (a : Nat) (l : List Byte) (w : Memory.wf s.hostMem) : Memory.wf (s.hostPut a l).hostMem := swf_sputs _ _ _ _ w
theorem State.setRes_wf (sec off : Nat) (l : List Byte) (w : Memory.wf s.resv) : Memory.wf (s.setRes sec off l).resv := swf_sputs _ _ _ _ w
theorem State.zeroRes_wf (sec off n : Nat) (w : Memory.wf s.resv) : Memory.wf (s.zeroRes sec off n).resv := swf_filter _ _ _ w

end Sys2Proof.Machine
end

