-- ==== Sys2Proof/Laws/Shared.lean ====
section
/-! SUPPORT. The spec lemmas of the shared operations: what each wrapper of a meaning answers, and what a step does. A proof about a
command cites these and never unfolds the wrapper. -/

namespace Sys2Proof.Machine

/-! ### Commands on a unit -/

/-- A command on a unit that the device has answers the state that its work leads to. -/
@[simp] theorem onUnit_of_lt (what : String) (count n : Nat) (t : State) (h : n < count) : onUnit what count n t = .next t := by
  simp [onUnit, h]
/-- A command on a unit answers a next state only for a unit that the device has, and then that of its work. -/
theorem onUnit_next (what : String) (count n : Nat) (t u : State) (h : onUnit what count n t = .next u) : n < count ∧ u = t := by
  unfold onUnit at h
  split at h
  · exact ⟨‹_›, by simpa using h.symm⟩
  · cases h
/-- A command on a unit never refuses. -/
theorem onUnit_not_refused (what : String) (count n : Nat) (t : State) (r : Refusal) : onUnit what count n t ≠ .refused r := by
  unfold onUnit
  split <;> simp
@[simp] theorem onCore_of_lt (c : Nat) (t : State) (h : c < 2560) : onCore c t = .next t := onUnit_of_lt _ _ _ _ h
@[simp] theorem onSec_of_lt (n : Nat) (t : State) (h : n < 10) : onSec n t = .next t := onUnit_of_lt _ _ _ _ h
@[simp] theorem onSlu_of_lt (n : Nat) (t : State) (h : n < 20) : onSlu n t = .next t := onUnit_of_lt _ _ _ _ h
@[simp] theorem onLink_of_lt (n : Nat) (t : State) (h : n < 48) : onLink n t = .next t := onUnit_of_lt _ _ _ _ h
@[simp] theorem onFn_of_lt (n : Nat) (t : State) (h : n < 11) : onFn n t = .next t := onUnit_of_lt _ _ _ _ h
@[simp] theorem onPart_of_lt (n : Nat) (t : State) (h : n < 10) : onPart n t = .next t := onUnit_of_lt _ _ _ _ h

/-! ### The scalar unit and the stations -/

/-- A core that dispatches runs the instruction, and its partition makes progress where it has finished. -/
theorem onScalar_dispatching (c : Nat) (s : State) (f : Core → State) (h : c < 2560) (d : (s.core c).dispatches = true) :
    onScalar c s f = .next (s.dispatched c (f (s.core c))) := by
  simp [onScalar, h, d]
/-- A core that does not dispatch is left as it is. -/
theorem onScalar_idle (c : Nat) (s : State) (f : Core → State) (h : c < 2560) (d : (s.core c).dispatches = false) :
    onScalar c s f = .next s := by
  simp [onScalar, h, d]

/-- What a station's work leads to. -/
def Did.apply (c : Nat) (u : Stn) (s : State) (e : QEntry) : Did → State
  | .waits w => s.setCore c ((s.core c).setWait u w)
  | .fault st => s.setCore c (((s.core c).setQ u (((s.core c).q u).drop 1)).fault st u e.pc e.seq)
  | .faultIn t st => t.setCore c (((t.core c).setQ u (((t.core c).q u).drop 1)).fault st u e.pc e.seq)
  | .waitsIn t w => t.setCore c (((t.core c).setStage u .running).setWait u w)
  | .starts t w => t.setCore c (((t.core c).setStage u .running).setWait u w)
  | .done t => t.setCore c (((t.core c).setStage u .done).setWait u .none)
/-- The instruction at the head of a station that nothing holds back has the effect of its row. -/
theorem onStation_at_head {α : Type} (c : Nat) (u : Stn) (s : State) (sel : PInstr → Option α) (body : Core → QEntry → α → Did)
    (e : QEntry) (a : α) (h : c < 2560) (he : (s.core c).head u = some e) (hq : e.stage = .queued) (hh : (s.core c).halt = false)
    (hs : sel e.ins = some a) (hg : (s.core c).gate e = none) :
    onStation c u s sel body = .next ((body (s.core c) e a).apply c u s e) := by
  simp only [onStation, onCore_of_lt _ _ h, he, hq, hh, hs, hg, true_or, and_self, if_true]
  cases body (s.core c) e a <;> rfl
/-- The instruction at the head of a station that something holds back waits, with no effect. -/
theorem onStation_held {α : Type} (c : Nat) (u : Stn) (s : State) (sel : PInstr → Option α) (body : Core → QEntry → α → Did)
    (e : QEntry) (a : α) (w : Wait) (h : c < 2560) (he : (s.core c).head u = some e) (hq : e.stage = .queued)
    (hh : (s.core c).halt = false) (hs : sel e.ins = some a) (hg : (s.core c).gate e = some w) :
    onStation c u s sel body = .next (s.setCore c ((s.core c).setWait u w)) := by
  simp only [onStation, onCore_of_lt _ _ h, he, hq, hh, hs, hg, true_or, and_self, if_true]
/-- A station with nothing at its head is left as it is. -/
theorem onStation_empty {α : Type} (c : Nat) (u : Stn) (s : State) (sel : PInstr → Option α) (body : Core → QEntry → α → Did)
    (h : c < 2560) (he : (s.core c).head u = none) : onStation c u s sel body = .next s := by
  simp only [onStation, onCore_of_lt _ _ h, he]

/-! ### The commands of the queues -/

/-- The command in hand, ready, of a queue that is served has the effect of its opcode. -/
theorem onCmd_in_hand (opc f q : Nat) (s : State) (body : Cmd → Res) (c : Cmd) (hf : f < 11) (hq : q < 64)
    (hc : (s.queue f q).cur = some c) (ho : c.opc = opc) (hr : c.stage = .ready) (hs : s.served f q = true) :
    onCmd opc f q s body = .next ((body c).apply f q s) := by
  simp [onCmd, hf, hq, hc, ho, hr, hs]
/-- A queue with no command in hand is left as it is. -/
theorem onCmd_idle (opc f q : Nat) (s : State) (body : Cmd → Res) (hf : f < 11) (hc : (s.queue f q).cur = none) :
    onCmd opc f q s body = .next s := by
  simp [onCmd, hf, hc]
@[simp] theorem Res.apply_done (f q : Nat) (s t : State) (st r0 r1 : Nat) : (Res.done t st r0 r1).apply f q s = t.finish f q st r0 r1 := rfl
@[simp] theorem Res.apply_fail (f q : Nat) (s t : State) (st : Nat) : (Res.fail t st).apply f q s = t.finish f q st 0 0 := rfl
@[simp] theorem Res.apply_later (f q : Nat) (s : State) : Res.later.apply f q s = s := rfl
@[simp] theorem Res.apply_waits (f q : Nat) (s t : State) : (Res.waits t).apply f q s =
    t.setQueue f q { t.queue f q with cur := (t.queue f q).cur.map (fun c => { c with asked := true }) } := rfl

/-! ### Records and free values -/

/-- A report puts one record at the end of Monarch's inbox, named by the next number and stamped with fabric time. -/
theorem State.report_inbox (s : State) (r : Rec) : ∃ x, (s.report r).ras.inbox = s.ras.inbox ++ [x] ∧ x.rid = s.ras.nextRid ∧
    x.time = s.tim.now ∧ x.status = r.status ∧ x.sev = r.sev ∧ x.block = r.block ∧ x.inst = r.inst ∧ x.part = r.part :=
  ⟨_, rfl, rfl, rfl, rfl, rfl, rfl, rfl, rfl⟩
@[simp] theorem State.fresh_state (s : State) : s.fresh.2 = { s with free := s.free + 1 } := rfl
@[simp] theorem State.trng_state (s : State) : s.trng.2 = { s with free := s.free + 1 } := rfl
@[simp] theorem State.elapsed_state (s : State) (v : Nat) : (s.elapsed v).2 = { s with free := s.free + 1 } := rfl

/-! ### Folds -/

/-- What one step of a fold keeps, the whole fold keeps. -/
theorem foldl_keeps {α β : Type} (P : α → Prop) (f : α → β → α) (h : ∀ a b, P a → P (f a b)) (l : List β) (a : α) (w : P a) :
    P (l.foldl f a) := by
  induction l generalizing a with
  | nil => exact w
  | cons b l ih => exact ih _ (h a b w)
/-- What one step of a fold leaves as it was, the whole fold leaves as it was. -/
theorem foldl_same {α β γ : Type} (g : α → γ) (f : α → β → α) (h : ∀ a b, g (f a b) = g a) (l : List β) (a : α) : g (l.foldl f a) = g a := by
  induction l generalizing a with
  | nil => rfl
  | cons b l ih => rw [List.foldl_cons, ih, h]

/-! ### Lists keyed by number -/

/-- What was put under a key is read under it. -/
@[simp] theorem keyGet_keyPut_same {α : Type} (k : Nat) (v : α) (l : List (Nat × α)) : keyGet k (keyPut k v l) = some v := by
  induction l with
  | nil => simp [keyPut, keyGet]
  | cons e r ih =>
    unfold keyPut
    split
    · simp [keyGet]
    · split
      · simp [keyGet]
      · rename_i h
        have : (e.1 == k) = false := by simpa using fun x => h x.symm
        simpa [keyGet, this] using ih
/-- No other key is touched. -/
@[simp] theorem keyGet_keyPut_ne {α : Type} (k j : Nat) (v : α) (l : List (Nat × α)) (h : j ≠ k) : keyGet j (keyPut k v l) = keyGet j l := by
  have h' : (k == j) = false := by simpa using fun x => h x.symm
  induction l with
  | nil => simp [keyPut, keyGet, h']
  | cons e r ih =>
    unfold keyPut
    split
    · simp [keyGet, h']
    · split
      · rename_i hk
        simp [keyGet, h', ← hk]
      · by_cases he : (e.1 == j) = true
        · simp [keyGet, he]
        · simpa [keyGet, he] using ih

/-! ### Audits -/

/-- Ledgers that agree leave the state as it is. -/
@[simp] theorem State.audit_ok (s : State) (blk inst : Nat) : s.audit true blk inst = s := rfl
/-- One that does not leaves a Device-fatal record with INTEGRITY (02 R62). -/
@[simp] theorem State.audit_fails (s : State) (blk inst : Nat) :
    s.audit false blk inst = s.report (Rec.mk' Status.integrity Sev.devFatal blk inst) := rfl

/-! ### Steps -/

/-- With a command at the front of the queue, a step runs it on the queue's rest. -/
theorem step_of_pending (s : State) (c : Instr) (rest : List Instr) (h : s.pending = c :: rest) :
    step s = exec c { s with pending := rest } := by
  simp only [step, h]
/-- With an empty queue, a step lets fabric time run on. -/
theorem step_of_empty (s : State) (h : s.pending = []) : step s = .next s.tick := by
  simp only [step, h]
/-- No word spells a command, so the helper that puts one in front leaves the state as it is. -/
@[simp] theorem State.withFetchWord_eq (s : State) (nbits w : Nat) : s.withFetchWord nbits w = s := rfl

end Sys2Proof.Machine
end

