-- ==== Sys2Proof/Tests/Slice0.lean ====
section
/-! SUPPORT. Tests of the model on small states: words written out from the spec's encodings, the ill-formed terms that each check
refuses, and for each statement a state and operands that meet its hypotheses. -/

section
-- One theorem after another: each thread of the elaborator takes its own stack, and the check limits the memory of all of them.
set_option Elab.async false
open Sys2Proof Sys2Proof.Machine Sys2Proof.Claims

namespace Sys2Proof.Tests

/-- A sluice of partition 0 that serves requests. -/
def okSluice : Sluice := { ({} : Sluice) with keyed := true, ready := true, assigned := true, initpm := 1000 }
/-- A module in service: Ready, every section good, partition 0 Active with section 0 and identifier 7. -/
def base : State :=
  { State.reset with
    mon := { ({} : Mon) with phase := .ready, rails := true, hostUp := true, mgmt := true, compute := true, fabric := true,
                             sections := 1023, perst := false, vfEn := true, aqfDone := true }
    secs := [(0, { ({} : Sec) with good := 0xFFFF, catchC := 4, live := [⟨0, 64, .priv, some 0⟩] })]
    sluices := [(0, okSluice), (1, okSluice)]
    parts := [(0, { ({} : Part) with state := .active, sections := 1, cid := 7, catchC := 4 })]
    tim := { ({} : Tim) with now := 1000000, up := 1000000 } }
/-- The attestation key in its slots. -/
def akVault : Store VSlot :=
  [(2, { ({} : VSlot) with valid := true, usage := Usage.sign }), (3, { ({} : VSlot) with valid := true, usage := Usage.sign, pair := true })]
/-- A core that runs. -/
def busy : Core := { ({} : Core) with run := true, halt := false, dseq := 1, ilen := 64 }
/-- The module with core 0 as given. -/
def withCore (k : Core) : State := base.setCore 0 k
/-- The module with an instruction at the head of a station of core 0. -/
def atHead (k : Core) (u : Stn) (i : PInstr) (sv tv : Store Word) : State :=
  withCore (k.setQ u [{ seq := 0, ins := i, pc := 0, sv := sv, tv := tv }])
/-- The entry that atHead puts there. -/
def entryOf (i : PInstr) (sv tv : Store Word) : QEntry := { seq := 0, ins := i, pc := 0, sv := sv, tv := tv }
/-- No token. -/
def noTok : TokF := ⟨none, none⟩

end Sys2Proof.Tests

open Sys2Proof.Tests

/-! ### The scalar unit -/

/-- Core 0 with three registers. -/
def r1 : Core := { busy with regs := [(1, 0x8000000000000005), (2, 0x43), (3, 7)], pc := 16 }

theorem witness_dispatching : Dispatching 0 (withCore r1) := ⟨by decide, by decide⟩
theorem witness_ControlFlowRows :
    Dispatching 0 (withCore { r1 with rstack := [24, 8] }) ∧ (0xFFFFFFF8#32).toNat % 8 = 0 ∧
    ((withCore { r1 with rstack := [24, 8] }).core 0).rstack = 24 :: [8] ∧
    ((withCore { r1 with rstack := [24, 8] }).core 0).rstack.length < 16 := ⟨⟨by decide, by decide⟩, by decide, by decide, by decide⟩
theorem witness_ControlFlowRows_faults :
    Dispatching 0 (withCore { r1 with rstack := List.replicate 16 0 }) ∧
    16 ≤ ((withCore { r1 with rstack := List.replicate 16 0 }).core 0).rstack.length ∧
    ((withCore r1).core 0).rstack = [] ∧ (4#32).toNat % 8 ≠ 0 := ⟨⟨by decide, by decide⟩, by decide, by decide, by decide⟩
/-- The highest address that LDS and STS take, 0x9_FFF8, is free of hazards and rings; the next multiple of 8 is out of range. -/
theorem witness_PondLoadsAndStores :
    let k := (withCore r1).core 0
    (k.reg 3 + BitVec.ofInt 64 (0x9FFF1#32).toInt).toNat = 0x9FFF8 ∧
    overlaps [(0x9FFF8, 0xA0000)] k.rings = false ∧
    k.hazardFree k.dseq ([.pond 0x9FFF8 0xA0000], []) = true ∧ k.hazardFree k.dseq ([], [.pond 0x9FFF8 0xA0000]) = true ∧
    (k.reg 3 + BitVec.ofInt 64 (2#32).toInt).toNat % 8 ≠ 0 ∧ 0x9FFF8 < (k.reg 3 + BitVec.ofInt 64 (0x9FFF9#32).toInt).toNat := by
  decide
theorem witness_PondLoadsAndStores_hazard :
    let k := (atHead r1 .accmem (.am (.save 0 2) noTok) [] [(2, 0xD00000000)]).core 0
    k.hazardFree k.dseq ([.pond 0 8], []) = false ∧ k.hazardFree k.dseq ([], [.pond 0 8]) = false := by decide
theorem witness_ScalarStateRows :
    let k := (withCore { r1 with toks := [(3, 0)], regs := [(1, 0x80000001), (2, 64), (3, 512), (4, 65535)] }).core 0
    (k.tok 3 - (k.reg 1).truncate 32).toNat < 2 ^ 31 ∧ 64 ≤ (k.reg 2).toNat ∧ (k.reg 3).toNat ≤ 512 ∧
    (k.reg 2).toNat % 32 = 0 ∧ (k.reg 3).toNat % 32 = 0 ∧ (k.reg 4).toNat < 65536 := by decide
theorem witness_HaltBreakTrapAndCoreHalt :
    let k := (withCore { r1 with stop := some ⟨true, 0x45, .scalar, 16, 1⟩ }).core 0
    k.stop = some ⟨true, 0x45, .scalar, 16, 1⟩ ∧ k.drained true = true ∧ k.handles = [] ∧
    swf {} (withCore { r1 with stop := some ⟨true, 0x45, .scalar, 16, 1⟩ }).cores = true := by decide

/-- A HALT waits for what was dispatched before it. -/
theorem witness_HaltBreakTrapAndCoreHalt_waits :
    let k := ({ r1 with stop := some ⟨true, 0, .scalar, 16, 1⟩ } : Core).setQ .matrix [{ seq := 0, ins := .mx (.prom 0) noTok, pc := 0, sv := [], tv := [] }]
    ((withCore k).core 0).stop = some ⟨true, 0, .scalar, 16, 1⟩ ∧ ((withCore k).core 0).drained true = false ∧ ((withCore r1).core 0).stop = none := by
  decide

/-! ### Issue, the stations -/

/-- Core 0 with one instruction word at its program counter. -/
def wordAt (w : Word) : State := withCore { r1 with istore := [(2, w)] }
/-- ADD s4 = s1 + s2. -/
def addWord : Word := encodePezal (.alu .add 4 1 2)
theorem witness_DispatchAndRetirement_add :
    ((withCore { r1 with pc := 64 }).core 0).ilen ≤ ((withCore { r1 with pc := 64 }).core 0).pc ∧
    decodePezal 0 = none ∧ ((wordAt addWord).core 0).pc < ((wordAt addWord).core 0).ilen := by decide
/-- MX.MMA acc5. -/
def mmaWord : Word := encodePezal (.mx (.mma 5 false true) noTok)
theorem witness_DispatchAndRetirement_station :
    let k := (wordAt mmaWord).core 0
    decodePezal (sget 0 k.istore (k.pc / 8)) = some (.mx (.mma 5 false true) noTok) ∧
    ((k.q .matrix).filter (fun e => e.stage = .queued)).length < 16 := by decide
theorem witness_DispatchAndRetirement_full :
    let k := ((withCore ({ r1 with istore := [(2, mmaWord)] }.setQ .matrix (List.replicate 16 (entryOf (.mx (.prom 0) noTok) [] [])))).core 0)
    16 ≤ ((k.q .matrix).filter (fun e => e.stage = .queued)).length := by decide
/-- A VC.CVT of an FP16 tile that names an SC, and an IN.RCV of a producer end. -/
theorem witness_DispatchAndRetirement_checks :
    let k := { r1 with tds := [(2, 0x100000000000000)], handles := [(4, { ({} : Handle) with state := .opened, stn := .outflow })] }
    let i : PInstr := .vc (.cvt false (.pond 1) (.pond 2) 5) noTok
    let j : PInstr := .inn (.rcv .lV 4) noTok
    decodePezal (encodePezal i) = some i ∧ k.cvtBad i = true ∧ decodePezal (encodePezal j) = some j ∧ k.cvtBad j = false ∧
    k.operandBad j = true ∧ scalarRow 0 (.br .bge 1 2 8) = some (.ctBge 0 1 2 8) ∧
    insStn k (.sy .fsig noTok .vector true 1 2 3) = some .vector := by decide
/-- SY.FSIG of the scalar unit that waits on token 4, and a CT.RCLOSE of a handle that nothing is bound to. -/
def syToken : PInstr := .sy .fsig ⟨some 5, some (4, 3)⟩ .scalar true 1 2 3
theorem witness_DispatchAndRetirement_token :
    let k := (wordAt (encodePezal syToken)).core 0
    let j : PInstr := .rclose noTok 7
    decodePezal (sget 0 k.istore (k.pc / 8)) = some syToken ∧ k.cvtBad syToken = false ∧ k.operandBad syToken = false ∧
    scalarRow 0 (.sy .fsig ⟨none, none⟩ .scalar true 1 2 3) = some (.syFsig 0 (.scalar true 1 2 3)) ∧ tokenAt k ⟨some 5, some (4, 3)⟩ = false ∧
    tokenAt { k with toks := [(4, 7)] } ⟨some 5, some (4, 3)⟩ = true ∧ decodePezal (encodePezal j) = some j ∧ (k.handle 7).state = .unbound := by
  decide
theorem witness_DispatchAndRetirement_notDone :
    ((withCore (r1.setQ .matrix [entryOf (.mx (.prom 3) noTok) [] []])).core 0).head .matrix = some (entryOf (.mx (.prom 3) noTok) [] []) ∧
    (entryOf (.mx (.prom 3) noTok) [] []).stage ≠ .done := by decide
theorem witness_DispatchAndRetirement_retire :
    let e : QEntry := { entryOf (.mx (.prom 3) ⟨some 4, none⟩) [] [] with stage := .done }
    ((withCore (r1.setQ .matrix [e])).core 0).head .matrix = some e ∧ e.took = [] := by decide
theorem witness_ScalarStateRows_capabilities :
    let s := withCore { r1 with launch := some ⟨1, 2, true, false, 0⟩ }
    Dispatching 0 s ∧ s.corePart 0 = some 0 ∧ s.partOf 0 = 0 ∧ (s.core 0).launch = some ⟨1, 2, true, false, 0⟩ :=
  ⟨⟨by decide, by decide⟩, by decide, by decide, by decide⟩

/-- A descriptor of an FP16 tile at 0x100 with rows 0x40 apart. -/
def fp16Tile : Word := 0x1#4 ++ 0x40#16 ++ 0x100#20 |>.zeroExtend 64
def ldtState : State := atHead busy .intake (.inn (.ldt 2 .lA) noTok) [] [(2, fp16Tile)]
def lddState : State := atHead busy .intake (.inn (.ldd 2 .lB 1 2 3) noTok) [(1, 0x1000), (2, 0x40)] [(2, fp16Tile)]
def rcvState : State :=
  atHead { busy with handles := [(4, { ({} : Handle) with
    state := .opened, consumer := true, stn := .intake, fmt := 1, depth := 2, rid := 9, ring := [.tile ⟨1, [], [], false⟩, .endMark] })] }
    .intake (.inn (.rcv .lV 4) noTok) [] []

theorem witness_IntakeRows_ldt :
    let k := ldtState.core 0
    let e := entryOf (.inn (.ldt 2 .lA) noTok) [] [(2, fp16Tile)]
    k.halt = false ∧ k.head .intake = some e ∧ k.gate e = none ∧ k.room .lA = true ∧ Fmt.reserved (e.d 2).fmt = false ∧
    (e.d 2).okBounds = true ∧ intakeOk k.d12 (e.d 2).fmt = true ∧ overlaps (e.d 2).ranges k.rings = false := by decide
theorem witness_IntakeRows_ldd :
    let s := lddState
    let k := s.core 0
    let e := entryOf (.inn (.ldd 2 .lB 1 2 3) noTok) [(1, 0x1000), (2, 0x40)] [(2, fp16Tile)]
    let rows := (List.range 32).map (fun i => (((e.s 1) + BitVec.ofNat 64 i * e.s 2).toNat, Fmt.rowBytes (e.d 2).fmt))
    k.head .intake = some e ∧ k.gate e = none ∧ k.room .lB = true ∧ Fmt.isMx (e.d 2).fmt = false ∧
    rows.all (fun y => s.coreRange 0 0 y.1 y.2) = true ∧ ((s.lookedUp (.core 0)).readDva (.core 0) 0 0 rows).2 = .done 0 := by decide
theorem witness_IntakeRows_rcv :
    let k := rcvState.core 0
    let e := entryOf (.inn (.rcv .lV 4) noTok) [] []
    k.head .intake = some e ∧ k.gate e = none ∧ k.room .lV = true ∧ (k.handle 4).state = .opened ∧ (k.handle 4).consumer = true ∧ (k.handle 4).stn = .intake ∧
    (k.handle 4).kind = .canal ∧ (k.handle 4).ring = .tile ⟨1, [], [], false⟩ :: [.endMark] ∧ intakeOk k.d12 1 = true := by decide

/-- An IN.LDD whose accesses are under way, and IN.RCV of an empty canal runnel and of a fabric one. -/
theorem witness_IntakeRows_waits :
    let e : QEntry := { entryOf (.inn (.ldd 2 .lB 1 2 3) noTok) [(1, 0x1000), (2, 0x40)] [(2, fp16Tile)] with stage := .running }
    let k := (withCore ({ busy with lB := List.replicate 8 ⟨1, [], [], false⟩ }.setQ .intake [e])).core 0
    let h : Handle := { state := .opened, consumer := true, stn := .intake, fmt := 1, depth := 2, rid := 9 }
    let f := atHead { busy with handles := [(4, { h with kind := .fabric })] } .intake (.inn (.rcv .lV 4) noTok) [] []
    let t : State := { f with hwk := { f.hwk with rings := [(ringKey 0 4 0, (1, noPacket))] } }
    k.head .intake = some e ∧ e.resumes = true ∧ k.gate e = none ∧ k.room .lB = false ∧ h.ring = [] ∧
    (((atHead { busy with handles := [(4, h)] } .intake (.inn (.rcv .lV 4) noTok) [] []).core 0).head .intake).isSome = true ∧
    ((t.core 0).handle 4).kind = .fabric ∧
    sget (0, noPacket) t.hwk.rings (ringKey 0 4 (((t.core 0).handle 4).pos % ((t.core 0).handle 4).depth)) = (1, noPacket) ∧
    noPacket.pos = ((t.core 0).handle 4).pos := by decide +kernel

/-- Tiles in L.A and L.B, and slot 5 with an open chunk of 32. -/
def mxCore : Core := { busy with lA := [⟨1, [], [], false⟩], lB := [⟨1, [], [], false⟩], slots := [(5, { ({} : Slot) with kc := 32 })] }
def mxState (i : PInstr) : State := atHead mxCore .matrix i [] []
theorem witness_MatrixAndAccumulatorRows :
    let k := (mxState (.mx (.mma 5 false true) noTok)).core 0
    let j := (mxState (.mx (.prom 5) noTok)).core 0
    k.head .matrix = some (entryOf (.mx (.mma 5 false true) noTok) [] []) ∧ k.gate (entryOf (.mx (.mma 5 false true) noTok) [] []) = none ∧
    k.lA = ⟨1, [], [], false⟩ :: [] ∧ k.lB = ⟨1, [], [], false⟩ :: [] ∧ mxAccepts k.d12 1 1 = true ∧ k.d12 = false ∧
    (k.slot 5).kc + 32 < (entryOf (.mx (.mma 5 false false) noTok) [] []).cfg.chunk.toNat ∧ k.engineBusy = false ∧
    j.head .matrix = some (entryOf (.mx (.prom 5) noTok) [] []) ∧ j.gate (entryOf (.mx (.prom 5) noTok) [] []) = none ∧
    (j.slot 5).kc ≠ 0 ∧ (j.slot 6).kc = 0 := by decide
/-- A tile of FP32 does not go with one of FP16, and a core in D12-emulation that takes what it can. -/
theorem witness_MatrixAndAccumulatorRows_modes :
    let k := (mxState (.mx (.mma 5 true true) noTok)).core 0
    let d := (atHead { mxCore with launch := some ⟨1, 2, true, false, 0⟩ } .matrix (.mx (.mma 5 true true) noTok) [] []).core 0
    let y := (withCore { mxCore with slots := [(9, { ({} : Slot) with promo := some [(3, 7)] })] }).core 0
    mxAccepts k.d12 0 1 = false ∧ d.d12 = true ∧ mxAccepts d.d12 1 1 = true ∧ y.engineBusy = true ∧ slotOpen k 5 = true ∧
    slotOpen { y with slots := (5, { ({} : Slot) with kc := 32 }) :: y.slots } 5 = false := by decide
theorem witness_MatrixAndAccumulatorRows_promotion :
    let k := (withCore { busy with slots := [(5, { ({} : Slot) with promo := some [(3, 7)] })] }).core 0
    (k.slot 5).promo = some [(3, 7)] ∧ k.promWaits 5 = false := by decide
/-- A wide-48 tile at 0x2000 with rows 0xC0 apart. -/
def w48Tile : Word := (BitVec.ofNat 4 Fmt.w48 ++ 0xC0#16 ++ 0x2000#20).zeroExtend 64
theorem witness_MatrixAndAccumulatorRows_memory :
    let i : PInstr := .am (.save 5 3) noTok
    let k := (atHead busy .accmem i [] [(3, w48Tile)]).core 0
    let e := entryOf i [] [(3, w48Tile)]
    k.halt = false ∧ k.head .accmem = some e ∧ k.gate e = none ∧ (e.d 3).fmt = Fmt.w48 ∧ (e.d 3).okBounds = true ∧
    overlaps (e.d 3).ranges k.rings = false ∧ (e.d 3).tr = false ∧ (k.slot 5).kc = 0 := by decide

/-! ### Vector and outflow stations -/

/-- Descriptors: an FP32 tile at 0x1000 with rows 0x80 apart, BF16 at 0x4000, INT32 at 0x8000, a record at 0x7000. -/
def fp32Tile : Word := (0x0#4 ++ 0x80#16 ++ 0x1000#20).zeroExtend 64
def bf16Tile : Word := (0x1#4 ++ 0x40#16 ++ 0x4000#20).zeroExtend 64
def int32Tile : Word := (BitVec.ofNat 4 Fmt.int32 ++ 0x80#16 ++ 0x8000#20).zeroExtend 64
/-- Two FP32 values in row 0, and the record of an update with CNT 1 at 0x7000. -/
def numCore : Core :=
  { busy with pond := [(0x1003, 0x40), (0x1006, 0x80), (0x1007, 0x3F), (0x7002, 0x80), (0x7003, 0x3F), (0x7024, 1)] }
def vcTds : Store Word := [(1, fp32Tile), (2, bf16Tile), (3, int32Tile), (4, (0x0#4 ++ 0x80#16 ++ 0xA000#20).zeroExtend 64)]
def vcState (i : PInstr) : State := atHead numCore .vector i [(5, 0x7000)] vcTds
def vcEntry (i : PInstr) : QEntry := entryOf i [(5, 0x7000)] vcTds
/-- The entry is at the head and nothing holds it. -/
def vcHeads (i : PInstr) : Bool :=
  let k := (vcState i).core 0
  decide (k.halt = false ∧ k.head .vector = some (vcEntry i) ∧ k.gate (vcEntry i) = none)

theorem witness_VectorRows :
    (vcHeads (.vc (.ew .axpy (.pond 2) (.pond 1) (.pond 4) 5) noTok) &&
      decide (vcCheck numCore (vcEntry (.vc (.ew .axpy (.pond 2) (.pond 1) (.pond 4) 5) noTok)) false (.pond 2) [.pond 1, .pond 4] = none)) = true ∧
    (vcHeads (.vc (.un .recip (.pond 2) (.pond 1)) noTok) &&
      decide (vcCheck numCore (vcEntry (.vc (.un .recip (.pond 2) (.pond 1)) noTok)) false (.pond 2) [.pond 1] = none)) = true ∧
    vcHeads (.vc (.red .sum true (.pond 2) (.pond 1)) noTok) = true ∧
    vcHeads (.vc (.bc .mul true (.pond 2) (.pond 1) (.pond 4)) noTok) = true ∧
    (vcHeads (.vc (.cvt true (.pond 2) (.pond 1) 0) noTok) &&
      decide (vcCheck numCore (vcEntry (.vc (.cvt true (.pond 2) (.pond 1) 0) noTok)) true (.pond 2) [.pond 1] = none)) = true := by
  decide
/-- Operands from the Pond, a slot, L.V and a runnel are there, and places are free. -/
theorem witness_VectorRows_operands :
    let s := vcState (.vc (.ew .add (.pond 2) (.pond 1) (.pond 4) 0) noTok)
    let k : Core := { numCore with
      lV := [⟨1, [], [], false⟩]
      handles := [(6, { ({} : Handle) with state := .opened, consumer := true, stn := .vector, fmt := 1, depth := 2, ring := [.tile ⟨1, [], [], false⟩] }),
                  (7, { ({} : Handle) with state := .opened, stn := .vector, fmt := 1, credits := 1, depth := 2, peer := 1 })] }
    let e := vcEntry (.vc (.un .neg (.pond 2) (.pond 1)) noTok)
    (vcTook 0 s k e (.pond 1)).isSome = true ∧ (vcTook 0 s k e (.slot 3)).isSome = true ∧ (vcTook 0 s k e .lV).isSome = true ∧
    (vcTook 0 s k e (.handle 6)).isSome = true ∧ vcSrcOk k.d12 false 0 = true ∧ vcSrcOk k.d12 false Fmt.w48 = true ∧ vcSrcOk k.d12 false 1 = true ∧
    k.room .lO = true ∧ (sendReady k .vector 7 1).isNone = true ∧ slotOpen k 3 = true := by decide +kernel
theorem witness_VectorRows_rng :
    let e := vcEntry (.vc (.rng (.pond 3) 5) noTok)
    vcHeads (.vc (.rng (.pond 3) 5) noTok) = true ∧ (e.d 3).fmt = Fmt.int32 ∧ (e.d 3).okBounds = true ∧ (e.d 3).tr = false ∧
    (e.s 5).toNat < 2 ^ 55 ∧ overlaps (e.d 3).ranges numCore.rings = false := by decide
theorem witness_VectorRows_upd :
    let e := vcEntry (.vc (.upd .plain (.pond 2) (.pond 1) (.pond 4) 5) noTok)
    let h := Hyper.of false (numCore.bytes 0x7000 64)
    vcHeads (.vc (.upd .plain (.pond 2) (.pond 1) (.pond 4) 5) noTok) = true ∧
    updCheck numCore e .plain (.pond 2) (.pond 1) (.pond 4) 0x7000 h = none ∧ h.rem = false ∧ numCore.censusOn = false ∧ h.cnt = 1 := by
  decide
/-- Tiles in L.O, an Open producer end on a canal, and a contribution runnel of group 3. -/
def outCore : Core :=
  { busy with lO := [⟨1, [], [], false⟩], handles := [
      (4, { ({} : Handle) with state := .opened, stn := .outflow, fmt := 1, credits := 1, depth := 2, rid := 9, peer := 1 }),
      (5, { ({} : Handle) with state := .opened, kind := .contribution 3, stn := .outflow, fmt := Fmt.bs8, credits := 4, depth := 4 })] }
def outState (i : PInstr) : State :=
  { (atHead outCore .outflow i [(1, 0x2000), (2, 0x40)] [(2, bf16Tile), (1, fp32Tile)]) with
    rgs := [(0, { ({} : RGroup) with state := .active, gid := 3, s := 2, srcs := [⟨0, 9, 0, 2, 0⟩] })]
    hwk := { ({} : Hwk) with epochs := [(7, (true, 0))] } }
def outEntry (i : PInstr) : QEntry := entryOf i [(1, 0x2000), (2, 0x40)] [(2, bf16Tile), (1, fp32Tile)]
def outHeads (i : PInstr) : Bool :=
  let k := (outState i).core 0
  decide (k.halt = false ∧ k.head .outflow = some (outEntry i) ∧ k.gate (outEntry i) = none)
theorem witness_OutflowRows_store :
    let i : PInstr := .outf (.st (.pond 2) 1 2 0) noTok
    let j : PInstr := .outf (.stl (.pond 2) 1 2) noTok
    let e := outEntry i
    outHeads i = true ∧ ofCheck outCore e (.pond 2) none true false = none ∧ Fmt.isMx (e.d 2).fmt = false ∧
    (outState i).storeCheck 0 0 (storeRanges (e.d 2).fmt (e.s 1) (e.s 2) (e.s 0)) = none ∧
    outHeads j = true ∧ ofCheck outCore (outEntry j) (.pond 2) none true true = none ∧
    lineRule (e.d 2).fmt (e.s 1) (e.s 2) = true := by decide
theorem witness_OutflowRows_send :
    let i : PInstr := .outf (.snd .lO 4) noTok
    let h := outCore.handle 4
    outHeads i = true ∧ outCore.lO = ⟨1, [], [], false⟩ :: [] ∧ Fmt.isMx 1 = false ∧ h.state = .opened ∧ h.consumer = false ∧
    h.stn = .outflow ∧ h.kind = .canal ∧ h.fmt = 1 ∧ 0 < h.credits := by decide
theorem witness_OutflowRows_put :
    let i : PInstr := .outf (.put (.pond 2) 1 false) noTok
    outHeads i = true ∧ ofCheck outCore (outEntry i) (.pond 2) (some 1) false false = none := by decide
theorem witness_OutflowRows_gsnd :
    let i : PInstr := .outf (.gsnd 6 5 2) noTok
    let s := outState i
    outHeads i = true ∧ (outCore.handle 5).state = .opened ∧ (outCore.handle 5).kind = .contribution 3 ∧
    s.tagCurrent (s.coreTag 0) = true ∧ s.findRg 3 = some 0 ∧ (s.rg 0).sign1 = false ∧ outCore.censusOn = false ∧
    (outCore.slot 6).kc = 0 := by decide

/-- Ends that OF.SND may name: a fabric runnel and a gather end of group 3; and an epoch that is behind. -/
theorem witness_OutflowRows_ends :
    let h : Handle := { state := .opened, stn := .outflow, fmt := 1, credits := 1, depth := 2, rid := 9, peer := 1 }
    let s := outState (.outf (.snd .lO 4) noTok)
    ({ h with kind := .fabric } : Handle).kind = .fabric ∧ ({ h with kind := .gather 3 } : Handle).kind = .gather 3 ∧
    ofCheck outCore (outEntry (.outf (.snd .lO 4) noTok)) .lO none true false (some 4) = none ∧ s.tagCurrent (s.coreTag 0) = true ∧
    (ofTook outCore (outEntry (.outf (.snd .lO 4) noTok)) .lO).isSome = true ∧ (ofTook outCore (outEntry (.outf (.snd (.slot 2) 4) noTok)) (.slot 2)).isSome = true ∧
    ({ s with hwk := { s.hwk with epochs := [] } } : State).tagCurrent (({ s with hwk := { s.hwk with epochs := [] } } : State).coreTag 0) = false ∧
    lineRule 1 0x2040 0x40 = false := by decide +kernel

/-! ### Synchronisation -/

/-- The module with core 0 as given and one sync object: identifier 5 of partition 0, key 1. -/
def withObj (k : Core) (o : SynObj) : State :=
  { (withCore k) with syn := { ({} : Syn) with objs := [(1, some o)], nextId := 2, parts := [(0, { ({} : SynPart) with ids := [(5, 1)] })] }
                      hwk := { ({} : Hwk) with epochs := [(7, (true, 0))] } }
def syCore : Core := { busy with regs := [(1, 5), (2, 9), (3, 2)] }
def aFence : SynObj := { kind := .fence, owner := 0, value := 7, fabric := true, waiters := [⟨.core 3 .scalar, 0, 5, 8, false⟩, ⟨.core 4 .scalar, 0, 5, 12, false⟩] }
def aSem : SynObj := { kind := .sem, owner := 0, value := 1 }
def anEvent : SynObj := { kind := .event, owner := 0 }
def aWeir : SynObj := { kind := .weir, owner := 0, mask := [0, 1], waiters := [⟨.core 1 .scalar, 0, 5, 0, false⟩] }
theorem witness_FenceSemaphoreAndEventRows :
    Dispatching 0 (withObj syCore aFence) ∧ Names (withObj syCore aFence) 0 5 1 aFence ∧
    (withObj syCore aFence).partOf 0 = 0 ∧ (syCore.reg 1).toNat % 65536 = 5 ∧ (syCore.reg 2).toNat = 9 ∧
    fenceDist 7 9 = 2 ∧ 2 ^ 47 ≤ fenceDist 9 7 ∧ fenceDist 7 7 < 2 ^ 47 ∧
    Names (withObj syCore aSem) 0 5 1 aSem ∧ 0 < aSem.value ∧ aSem.value + 2 < 2 ^ 32 ∧ aSem.waiters.length ≤ 2 ∧
    Names (withObj syCore { aSem with value := 0 }) 0 5 1 { aSem with value := 0 } ∧
    Names (withObj syCore anEvent) 0 5 1 anEvent ∧ anEvent.set = false ∧ anEvent.auto = false ∧
    Names (withObj syCore { anEvent with set := true }) 0 5 1 { anEvent with set := true } := by
  unfold Dispatching Names; decide
/-- Events that reset themselves, and SY.FSIG and SY.EWAIT at the head of the vector station. -/
theorem witness_FenceSemaphoreAndEventRows_more :
    let a : SynObj := { anEvent with auto := true }
    let w : Waiter := ⟨.core 1 .scalar, 0, 5, 0, false⟩
    let i : PInstr := .sy .fsig noTok .vector false 0 2 3
    let q := atHead busy .vector i [(2, 5), (3, 9)] []
    Names (withObj syCore { a with waiters := [w] }) 0 5 1 { a with waiters := [w] } ∧ { a with waiters := [w] }.waiters = w :: [] ∧ a.waiters = [] ∧
    AtHead 0 .vector q (entryOf i [(2, 5), (3, 9)] []) ∧ ((entryOf i [(2, 5), (3, 9)] []).s 2).toNat % 65536 = 5 := by
  unfold Names AtHead; decide
theorem witness_WeirAndFabricSyncRows :
    let s := withObj syCore aWeir
    let w : SynObj := { aWeir with arrived := [1] }
    Names s 0 5 1 aWeir ∧ s.obj 1 = some aWeir ∧ aWeir.mask.contains 0 = true ∧ aWeir.releasing = false ∧
    aWeir.arrived.contains 0 = false ∧ aWeir.mask.all [0].contains = false ∧
    Names (withObj syCore w) 0 5 1 w ∧ (withObj syCore w).obj 1 = some w ∧ w.arrived.contains 0 = false ∧
    w.mask.all [1, 0].contains = true ∧ sget 0 { syCore with weirPhase := [(1, 1)] }.weirPhase 1 = b2n aWeir.sense + 1 ∧
    sget 0 { syCore with weirPhase := [(1, 2)] }.weirPhase 1 = 1 + 1 ∧ 1 ≠ b2n aWeir.sense := by
  unfold Names; decide
def grantState : State :=
  let s := withObj { syCore with syPend := some ⟨true, 4, none⟩ } { aWeir with releasing := true }
  { s with syn := { s.syn with grants := [(0, some ⟨.core 0 .scalar, 0, 1, 0⟩)], nextGrant := 1 } }
theorem witness_WeirAndFabricSyncRows_release :
    sget none grantState.syn.grants 0 = some ⟨.core 0 .scalar, 0, 1, 0⟩ ∧ grantState.frozen 0 = false ∧
    (grantState.core 0).halt = false ∧ (grantState.core 0).stop = none ∧ (grantState.core 0).syPend = some ⟨true, 4, none⟩ ∧
    (withObj syCore { aWeir with releasing := true }).syn.grants = [] := by decide
/-- Releases that reach an instruction at the head of a station and a command that waits on queue 3 of VF 1. -/
theorem witness_WeirAndFabricSyncRows_grants :
    let e : QEntry := { entryOf (.sy .ewait noTok .vector false 0 2 3) [(2, 5)] [] with stage := .running }
    let k := (withCore (busy.setQ .vector [e])).core 0
    let c : Cmd := {
      opc := 0x34, wait := false, sig := false, irq := false, cid := 1, wfence := 0, sfence := 0, wval := 0, sval := 0, args := []
      stage := .running, status := 0, r0 := 0, r1 := 0 }
    let s := base.setFn 1 { ({} : Fn) with queues := [(3, { ({} : Queue) with cur := some c })] }
    k.head .vector = some e ∧ k.stopped = false ∧ (s.queue 1 3).cur.isSome = true ∧ base.frozen 0 = false ∧
    grantState.syn.grants.all (fun g => match g.2 with | some g => g.obj != 2 || grantState.frozen g.part | none => true) = true ∧
    (withObj syCore { aWeir with releasing := true, held := [3] }).synAt 0 5 = some (1, { aWeir with releasing := true, held := [3] }) := by decide +kernel
def syncPkt : Packet := { noPacket with typ := 4, tag := 7, arg := 5 * 256, payload := [9, 0, 0, 0, 0, 0] }
def aFweir : SynObj := { kind := .fweir, owner := 0, number := 5, box := ⟨true, false, false, false⟩, mask := [0], creating := some (1, 0), passed := true }
theorem witness_WeirAndFabricSyncRows_fabric :
    syncPkt.arg % 16 = 0 ∧ syncPkt.arg / 256 % 65536 = 5 ∧ field syncPkt.payload 0 6 = 9 ∧
    (withObj syCore aFence).tagCurrent syncPkt.tag = true ∧ ((withObj syCore aFence).part 0).state ≠ .free ∧
    ((withObj syCore aFence).part 0).saved = none ∧ ((withObj syCore aFence).part 0).cid = syncPkt.tag % 65536 ∧ fenceLegal aFence.value 9 = true ∧ aFence.fabric = true := by decide
def fweirState : State := let s := withObj syCore aFweir; { s with tim := { s.tim with now := 1000000000, up := 1000000000 }, hwk := { s.hwk with pos := ⟨3, 0, 0, 0⟩ } }
theorem witness_WeirAndFabricSyncRows_fabric_weir :
    fweirState.findFweir 7 5 = some (0, 1, aFweir) ∧ fweirState.findFweir 7 6 = none ∧ aFweir.life = .live ∧ aFweir.upArr.contains syncPkt.src = false ∧
    fweirState.coord ≠ boxRoot aFweir.box fweirState.coord ∧ fweirState.synAt 0 5 = some (1, aFweir) ∧
    aFweir.creating.isSome = true ∧ aFweir.since + 1000000000 ≤ fweirState.tim.up ∧ { aFweir with since := 1 }.since + 1000000000 > fweirState.tim.up := by decide
/-- The root of a box, which counts the joins, is where the box begins; and a twin box has its root in District 0. -/
theorem witness_WeirAndFabricSyncRows_fabric_root :
    let r : State := { fweirState with hwk := { fweirState.hwk with pos := ⟨0, 0, 0, 0⟩ } }
    r.coord = boxRoot aFweir.box r.coord ∧ aFweir.box.tw = false ∧
    ((withObj syCore aFweir).findFweir 7 6) = none ∧ (withObj syCore aFweir).tagCurrent syncPkt.tag = true ∧
    cd ({ r with hwk := { r.hwk with pos := ⟨0, 0, 0, 1⟩ } } : State).coord = 1 := by decide
theorem witness_WeirAndFabricSyncRows_fabric_phase :
    ({ syncPkt with payload := [0] }.payload.getD 0 0).toNat % 2 = b2n aFweir.sense ∧ aFweir.passed = true := by decide

/-! ### Allocator, siphon, Aquifer -/

theorem witness_AllocatedBlocksAreFreeAndAligned :
    Ascending (base.sec 0).live ∧ ((base.sec 0).alloc 0x200001 .priv none).toOption.map (·.1) = some (some 64) := by
  unfold Ascending; decide
/-- The last place of the part that may be handed out: 119,193 granules here, of which 64 are taken. -/
theorem witness_AllocatedBlocksAreFreeAndAligned_room :
    let c := base.sec 0
    let g := c.usable / 32 * 32 - 64
    (base.sec 0).objects < 4096 ∧ g + 64 ≤ c.usable ∧ g % 32 = 0 ∧ (∀ b ∈ c.live, g + 64 ≤ b.base ∨ b.base + b.n ≤ g) ∧ Ascending c.live := by
  unfold Ascending; decide +kernel
theorem witness_BlocksStayAscending : BlocksAscending State.reset ∧ (∃ t, step State.reset = .next t) :=
  ⟨⟨by simp [State.reset], by simp [State.reset]⟩, _, rfl⟩
def alCore : Core := { busy with regs := [(1, 0x10000)] }
theorem witness_AllocationRows :
    let s := withCore alCore
    let z := withCore { busy with regs := [(1, 2 ^ 63)] }
    s.corePart 0 = some 0 ∧ ((s.sec 0).alloc ((s.core 0).reg 1).toNat .priv (s.coreCtx (s.core 0))).toOption.map (·.1) = some (some 64) ∧
    (s.core 0).reg 2 = 0 ∧
    (match (z.sec 0).alloc ((z.core 0).reg 1).toNat .priv (z.coreCtx (z.core 0)) with | .error e => decide (e = 0x0A) | _ => false) = true := by
  decide +kernel
theorem witness_AllocationRows_free :
    let s := withCore busy
    s.blockBase 0 0 = some (0, ⟨0, 64, .priv, some 0⟩) ∧ ((s.core 0).reg 1).toNat = 0 ∧ (0 : Nat) ≠ 2 ^ 64 - 1 ∧
    (s.setSec 0 { s.sec 0 with live := [⟨0, 64, .output, none⟩] }).blockBase 0 0 = some (0, ⟨0, 64, .output, none⟩) ∧
    (s.setSec 0 { s.sec 0 with live := [] }).blockBase 0 0 = none := by decide
def scrubState : State := base.setSec 0 { base.sec 0 with scrub := [(70, 1), (64, 2)] }
theorem witness_AllocationRows_scrub :
    lowestScrub (scrubState.sec 0).scrub = some (64, 2) ∧ scrubState.scrubWaits 0 64 2 = false ∧
    ({ scrubState with sluices := [(0, { okSluice with tags := [(0, ⟨false, lineIdx (65 * 65536), 0, 0, 0, [], false, .core, 0, false⟩)] })] }).scrubWaits 0 64 2 = true := by
  decide

/-- A descriptor of 128 bytes from DVA 0x1000 to Pond 0x2000 of core 0, and its 64 bytes at DVA 0x40. -/
def aWindow : WinDesc := { src := 0x1000, len := 128, dst := 0x2000, tok := 3, slice := false, waitf := false, fence := 0, fval := 0, mask := 1 }
def sipState (x : Sched) (waitf : Nat) : State :=
  let s := withObj busy { aFence with value := 0 }
  { s.setSec 0 { s.sec 0 with scheds := [(2, x)] } with
    resv := [(0x41, 0x10), (0x48, 0x80), (0x4D, 0x20), (0x50, 3)] ++ (if waitf = 1 then [(0x52, 1), (0x54, 5), (0x58, 9)] else []) ++ [(0x60, 1)] }
theorem witness_SiphonRows_descriptor :
    let x : Sched := { state := .running, list := 0x40, count := 2 }
    let s := sipState x 0
    s.secPart 0 = some 0 ∧ (s.sec 0).sched 2 = x ∧ s.coreRange 0 0 0x40 64 = true ∧ (s.readDva (.siphon 0 2) 0 0 [(0x40, 64)]).2 = .done 0 ∧
    WinDesc.parse (s.dvaBytes 0 0 0x40 64) = some aWindow ∧ s.windowBad 0 0 aWindow = false ∧
    s.windowBad 0 0 { aWindow with len := 100 } = true := by decide
theorem witness_SiphonRows_fence :
    let x : Sched := { state := .running, list := 0x40, count := 2 }
    let s := sipState x 1
    let d : WinDesc := { aWindow with waitf := true, fence := 5, fval := 9 }
    let s := { s with syn := { s.syn with parts := [(0, { s.synPart 0 with qHwait := 4 })] } }
    WinDesc.parse (s.dvaBytes 0 0 0x40 64) = some d ∧ s.windowBad 0 0 d = false ∧
    ((s.readDva (.siphon 0 2) 0 0 [(0x40, 64)]).1.synOp 0 5 .fwait 9 (.siphon 0 2)).2 = .waits := by decide
theorem witness_SiphonRows_delivery :
    let x : Sched := { state := .running, list := 0x40, count := 2, cur := some aWindow }
    let s := sipState x 0
    (s.sec 0).sched 2 = x ∧ (s.sec 0).sipNext = some 2 ∧ x.past = [] ∧
    ((s.setSec 0 { s.sec 0 with sipTurn := 3 }).readDva (.siphon 0 2) 0 0 [(0x1000, 128)]).2 = .done 0 ∧
    aWindow.len ≤ { x with moved := 128 }.moved := by decide
def sipGrant : State :=
  let s := sipState { state := .waiting, list := 0x40, count := 2, cur := some aWindow } 0
  { s with syn := { s.syn with grants := [(0, some ⟨.siphon 0 2, 0, 1, 0⟩)] } }
theorem witness_SiphonRows_reached :
    sipGrant.syn.grants = [(0, some ⟨.siphon 0 2, 0, 1, 0⟩)] ∧ sipGrant.frozen 0 = false ∧ ((sipGrant.sec 0).sched 2).state = .waiting := by
  decide

/-- A schedule whose read waits for the section's line, and the release of one whose fence has been abandoned. -/
theorem witness_SiphonRows_more :
    let x : Sched := { state := .running, list := 0x40, count := 2, cur := some aWindow, asked := true }
    let s := sipState x 0
    ((s.sec 0).sched 2).index < ((s.sec 0).sched 2).count ∧ (s.setSec 0 { s.sec 0 with live := [] }).coreRange 0 0 0x40 64 = false ∧
    ((s.setSec 0 { s.sec 0 with scheds := [] }).sec 0).sipNext ≠ some 2 := by decide
/-- A Sealed region of one page at line 512 of the expanders, whose frame 3 is 4,096 zeros, one line long; and a fetch of it. -/
def aqRegion : Region := { state := .sealed, base := aqBase, size := 65536, width := 8, pages := [(0, (512, 1))] }
def aFetch (n : Nat) : Fetch :=
  { sec := 0, part := 0, dva := aqBase, frames := (List.range n).map (fun i => (i, [])), bad := 0, fill := some (0, 3), tag := 0, discard := false }
def aqState (l : List Fetch) : State :=
  { base with aqf := { ({} : Aqf) with ports := 2, gib := 64, fetches := l, tagsOut := [(0, 0)] }
              parts := [(0, { base.part 0 with regions := [(0, aqRegion)] })] }
def okFrame : List Byte := encodeFrame 8 (List.replicate 4096 0)
def frameState (l : List Fetch) : State :=
  let s := aqState l
  let a := (s.aqf.putFrame 512 0 (aqBase + 3 * 4096) okFrame).putLocator 0 0 0 aqBase 512 ([0, 0, 0, 1] ++ List.replicate 12 0)
  { s with aqf := a }
def aSlot : CSlot := { part := 0, dva := aqBase, valid := true, filling := false, pinned := false, age := 3, hit := false }
def aqHit : State := let s := aqState []; s.setSec 0 { s.sec 0 with catchment := [(3, aSlot)] }
def fillState : State :=
  let s := aqState [aFetch 16]
  s.setSec 0 { s.sec 0 with catchment := [(3, { aSlot with valid := false, filling := true, pinned := true })] }
theorem witness_AquiferRows :
    let s := aqState []
    let h := aqHit
    s.secPart 0 = some 0 ∧ s.regionAt 0 aqBase = some (0, 0) ∧ s.findPage (s.catchSecs 0 0) 0 (pageOf aqBase) = none ∧
    s.aqf.fetch 0 0 (pageOf aqBase) = none ∧ h.findPage (h.catchSecs 0 0) 0 (pageOf aqBase) = some (0, 3) ∧
    ((h.noteLook (.port 0) 0 0 aqBase (some (0, 3))).readLines .core 0 0 [(h.sec 0).slotOff 3]).2 = .done 0 ∧
    (((h.noteLook (.port 0) 0 0 aqBase (some (0, 3))).readLines .core 0 0 [(h.sec 0).slotOff 3]).1.findPage [0] 0 aqBase).isSome = true ∧
    aSlot.valid = true ∧ aSlot.pinned = false ∧ aSlot.hit = false ∧ h.pageInUse 0 aqBase = false ∧ 0 + 1000000 ≤ s.tim.up := by decide
/-- A fetch in hand, whole, failed and in progress, and a port with no tag outstanding. -/
theorem witness_AquiferRows_inHand :
    let s := aqState [aFetch 16]
    (s.noteLook (.port 0) 0 0 aqBase none).aqf.fetch 0 0 aqBase = some (aFetch 16) ∧ (aFetch 16).complete = true ∧ (aFetch 3).complete = false ∧
    (aFetch 16).fill.isSome = true ∧ (∃ e ∈ s.aqf.tagsOut, e.1 / 512 = 0 ∧ e.2 + 1000000 ≤ s.tim.up) ∧ base.aqf.tagsOut = [] ∧ swf {} s.secs = true := by
  decide
theorem witness_AquiferRows_fill :
    (aFetch 16).complete = true ∧ (fillState.fillSlot 0 3 (aFetch 16).bytes).2 = .done 0 ∧
    (fillState.fillSlot 0 3 (aFetch 16).bytes).1.aqf = fillState.aqf ∧
    ((fillState.fillSlot 0 3 (aFetch 16).bytes).1.sec 0).cslot 3 = some { aSlot with valid := false, filling := true, pinned := true } := by decide
theorem witness_AquiferRows_frame :
    let s := frameState [aFetch 3]
    s.aqf.fetches = [aFetch 3] ∧ keyGet 3 (aFetch 3).frames = none ∧ (aFetch 3).frames.length < 15 ∧ (aFetch 3).dva = pageOf aqBase ∧
    (s.part 0).regions.find? (fun r => decide (r.2.base ≤ aqBase ∧ aqBase < r.2.base + r.2.size)) = some (0, aqRegion) ∧
    (match s.readFrame 0 0 0 3 with | .ok _ => true | .error _ => false) = true := by decide +kernel

/-! ### Sluices -/

def sluState (x : Sluice) : State := { base with sluices := [(0, x)], resv := [(0x80, 5)] }
def aReq : TagReq := { write := false, line := 1, part := 0, epoch := 0, off := 0, data := [], engine := false, cls := .core, since := 0 }
def aLine : WbLine := { line := 1, cipher := [1], mac := 9 }
def fullNode : Node := { major := 4, minors := [(1, 63)] }
def aData : List Byte := List.replicate 128 7
theorem witness_EveryWriteTakesAFreshCounter :
    swf {} (sluState okSluice).sluices = true ∧ (sluState okSluice).lineClass 0 (lineIdx 0x80) = .window ∧
    ((sluState okSluice).writeLine .core 0 0 0x80 [1]).2 = .done 0 ∧ ((sluState okSluice).writeLine .core 0 0 0x80 aData).2 = .done 0 ∧
    ((sluState { okSluice with nodes := [(0, fullNode)] }).writeLine .core 0 0 0x80 [1]).2 = .done 0 ∧
    ((sluState okSluice).rewriteGroup 0 3).2 = 0 := by decide +kernel
theorem witness_SluiceRequestRows :
    let s := sluState okSluice
    let x := s.slu 0
    s.sluAdmits 0 1 0 0 false = true ∧ s.sluAdmits 0 1 0 1 false = false ∧ s.sluAdmits 0 1 0 0 true = true ∧ x.ready = true ∧
    x.stopped = false ∧ s.reqWaits 0 aReq = false ∧ x.bad 1 = none ∧ x.busy 0 = false ∧ (s.sec 0).scrubbing (lineOff 0 1) = false ∧ x.held 1 = false ∧
    x.stuck = false ∧ x.suspects 0 0 = [] ∧ x.freeTag = some 0 ∧ ((sluState {}).slu 0).ready = false := by decide +kernel
/-- A sluice whose tree has no sound copy, and one whose group is being re-encrypted. -/
theorem witness_SluiceRequestRows_held :
    let s := sluState { okSluice with jobs := [{ group := 0, old := {}, next := 0, tag := 3, whole := none, holder := none }] }
    s.reqWaits 0 { aReq with write := true } = true ∧ (s.slu 0).busy 0 = true ∧ (s.slu 0).stopped = false ∧ ((sluState { okSluice with stopped := true }).slu 0).stopped = true ∧
    ((sluState okSluice).slu 0).ended.contains 0 = false ∧ ((sluState okSluice).slu 0).lost 1 = false := by decide
theorem witness_SluiceRequestRows_burst :
    let s := sluState { okSluice with tags := [(3, aReq)] }
    let b := sluState { okSluice with tags := [(3, aReq)], wbuf := [aLine] }
    (s.slu 0).tags = [(3, aReq)] ∧ aReq.engine = false ∧ aReq.write = false ∧ (s.slu 0).jobs = [] ∧ (s.slu 0).verifies 0 1 = true ∧
    (b.slu 0).verifies 0 1 = false ∧ ((b.dropTag 0 3).lineFault 0 1 0 .mac).2 = 0x05 ∧ aReq.since + 1000000 ≤ s.tim.up ∧
    (b.slu 0).wbuf = aLine :: [] ∧ (sluState { okSluice with tags := [(3, { aReq with epoch := 1 })] }).sluAdmits 0 1 0 1 false = false := by
  decide +kernel
theorem witness_SluiceRequestRows_write :
    (((sluState okSluice).slu 0).node 0 (1 / 64)).minor 1 < 63 ∧ ((sluState okSluice).commitLine .core 0 0 (lineOff 0 1) aData).2 = .done 0 := by
  decide +kernel
theorem witness_SluiceRequestRows_eye :
    sget 0 ({} : Eye).wins 7 % 2 = 0 ∧ eyeMargin {} 7 = 16 ∧ (eyeSweep 16 16 0 true).1 = 1 ∧ (eyeSweep 16 16 4 true).1 = 5 := by decide
def jobSluice : Sluice := { okSluice with
  jobs := [{ group := 0, old := { major := 1 }, next := 63, tag := 3, whole := none, holder := some { aReq with write := true } }]
  tags := [(3, { aReq with engine := true, line := 63 })] }
def evictSluice : Sluice := { okSluice with cache := [(nodeKey 0 5, ⟨true⟩)] }
theorem witness_SluiceEngineRows :
    let s := sluState { okSluice with nodes := [(0, fullNode)], prefetchDue := [(0, 6)] }
    let x := s.slu 0
    63 ≤ (x.node 0 (1 / 64)).minor (1 % 64) ∧ s.sluAdmits 0 1 0 0 true = true ∧ x.ready = true ∧ x.stopped = false ∧ Memory.wf s.resv ∧
    s.reqWaits 0 { aReq with write := true, data := aData } = false ∧ aData.length = 128 ∧ x.suspects 0 (1 / 64) = [] ∧ x.lost 1 = false ∧
    x.ended.contains (1 / 64) = false ∧ (x.node 0 (1 / 64)).major < 2 ^ 64 - 1 ∧ x.jobs.length + x.rekeys.length < 64 ∧ x.freeTag = some 0 ∧
    sget 0 x.prefetchDue 0 = 5 + 1 ∧ x.busy 3 = false ∧ x.suspects 0 3 = [] ∧ x.lost (3 * 64) = false ∧ (x.node 0 3).major < 2 ^ 64 - 1 := by
  decide +kernel
/-- A job whose tag gets its burst, a re-key in hand with no job, an entry that goes out dirty, with its parent's MINOR below 63 and at 63,
and an engine that is full. -/
theorem witness_SluiceEngineRows_jobs :
    let s := sluState jobSluice
    let e := evictSluice
    let z := Sluice.fetch 0 4 1 (5 / 64) e
    let w := { e with nodes := [(nodeKey 1 0, { major := 2, minors := [(5, 63)] })] }
    keyGet 3 (s.slu 0).tags = some { aReq with engine := true, line := 63 } ∧ ((s.slu 0).jobs.find? (fun j => j.tag == 3)).isSome = true ∧
    (s.slu 0).stopped = false ∧ (s.slu 0).jobs ≠ [] ∧ (s.slu 0).busy 0 = true ∧
    ({ okSluice with rekeys := [(1, 0)] } : Sluice).rekeys = (1, 0) :: [] ∧ okSluice.jobs = [] ∧ e.cached 0 5 = true ∧
    e.suspects 0 5 1 = [] ∧ keyGet (nodeKey 0 5) z.cache = some ⟨true⟩ ∧ (z.node 1 (5 / 64)).minor (5 % 64) < 63 ∧
    63 ≤ (w.node 1 (5 / 64)).minor (5 % 64) ∧ 64 ≤ ({ e with rekeys := List.replicate 64 (1, 0) }).jobs.length + 64 := by decide +kernel

/-! ### Links -/

def lnkState (n : Nat) (l : Link) : State := { base.setLink n l with chr := { base.chr with lcs := .production, vault := akVault }, hwk := { base.hwk with epochs := [(7, (true, 3))] } }
def trainable : Link := { ({} : Link) with cable := .activeOptical 500 }
theorem witness_PortEntersAState : swf {} (lnkState 42 { trainable with state := .up }).links = true := by decide
theorem witness_LinkCommandRows :
    base.mon.phase = .ready ∧ base.mon.fabric = true ∧ ¬ (State.reset.mon.phase = .ready ∧ State.reset.mon.fabric = true) ∧
    ((lnkState 0 { trainable with enabled := true }).link 0).state = .off ∧ ((lnkState 0 { trainable with enabled := true }).link 0).enabled = true ∧
    ((lnkState 47 { trainable with state := .up }).link 47).state = .up ∧ ((lnkState 1 { trainable with state := .keying }).link 1).state = .keying ∧
    ((lnkState 1 { trainable with state := .fenced }).link 1).state = .fenced ∧ (lnkState 1 { trainable with state := .fenced }).held 1 = false ∧
    ({ base with mon := { base.mon with fails := [.port 1] } } : State).held 1 = true := by decide
def goodPeer (s : State) : PeerEvidence :=
  { chainOk := true, key := [], sig := [], uid := 5, pub := [], nonce := [], lcs := 2, debug := false, digests := s.chr.digests, svns := [9, 9, 9, 9], port := 3, px := 1, py := 2, pz := 3, dist := 4 }
theorem witness_LinkTransitionRows :
    let s := lnkState 0 { trainable with state := .keying, accepted := true, attempts := 9 }
    let k := lnkState 0 { trainable with state := .keying }
    ((lnkState 0 { trainable with state := .up, target := some .off }).link 0).target = some .off ∧
    ((lnkState 0 { trainable with state := .training }).link 0).state = .training ∧ (k.link 0).accepted = false ∧
    k.chr.trngFailed = false ∧ k.deviceServes 2 Usage.sign = true ∧ k.chr.lcs ≠ .blank ∧ k.chr.lcs ≠ .endOfLife ∧ k.ephFree = some 6 ∧
    (s.link 0).state = .keying ∧ (s.link 0).accepted = true ∧ (s.link 0).akOld = false ∧ base.deviceServes 2 Usage.sign = false ∧
    ({ base with chr := { base.chr with vault := akVault } } : State).chr.lcs = .blank ∧
    9 ≤ (s.link 0).attempts ∧ (k.link 0).attempts < 9 ∧
    ((lnkState 0 { trainable with state := .retraining }).link 0).state = .retraining := by decide +kernel
/-- A port whose ephemeral pair stands in slots 6 and 7. -/
theorem witness_LinkTransitionRows_keys :
    let s := lnkState 0 { trainable with state := .keying, accepted := true, eph := some 6 }
    let t := s.setVslot 6 { ({} : VSlot) with valid := true, usage := Usage.ecdh }
    (t.link 0).eph = some 6 ∧ t.deviceServes 6 Usage.ecdh = true ∧ (s.link 0).eph.any (fun i => s.deviceServes i Usage.ecdh) = false ∧
    ({ trainable with akOld := true } : Link).akOld = true := by decide +kernel
def flit0 : Flit := { seq := 0, ack := 0, cvc := 0, sop := true, nak := false, idle := false, cred := 0, eq := 0, body := List.replicate 232 0 }
def upLink : Link := { trainable with state := .up }
def sent0 : Sent := ⟨7, flit0, 0, 0, false⟩
theorem witness_LinkTransitionRows_credits :
    trainable.keyed = false ∧ { trainable with keyed := true }.keyed = true ∧ trainable.replay = [] ∧
    ({ upLink with replay := [sent0] } : Link).replay = sent0 :: [] ∧ (∀ y ∈ [sent0], y.seq % 65536 ≠ 9) ∧
    8 + 7 < (List.replicate 17 0).length :=
  ⟨rfl, rfl, rfl, rfl, by simp [sent0], by decide⟩
/-- What the receiver of a port saw up to the end of a flit, the codewords of which came before: nothing more. -/
def noCodeword : FlitRx := { lanes := [], errs := [], vc := 0 }
/-- A port that has decoded the codewords of a flit, as its peer sealed it. -/
def rxLink (x : Flit) : Link := { upLink with rxFec := [(true, 2048, leNat (upLink.seal x x.seq))] }
/-- The control word does not depend on the body. -/
theorem flitWord_of (nak : Bool) (b : List Byte) (q : Nat) :
    flitWord { flit0 with nak := nak, seq := q, body := b } = q + 2 ^ 35 + if nak then 2 ^ 36 else 0 := by
  cases nak <;> simp [flitWord, place, b2n, flit0]
/-- It opens, whatever its body. -/
theorem sealed_opens (nak : Bool) (b : List Byte) (h : b.length = 232) (q : Nat) (hq : q = 0 ∨ q = 9) :
    upLink.openFlit (upLink.seal { flit0 with nak := nak, seq := q, body := b } q) = some ({ flit0 with nak := nak, seq := q, body := b }, q) := by
  obtain rfl | rfl := hq <;> cases nak <;> refine openFlit_seal upLink upLink _ _ rfl rfl h ?_ ?_ ?_ rfl ?_ <;>
    rw [flitWord_of] <;> first | decide | simp [flitOf, flit0, bits, bit]
/-- A port that has the codewords of a sealed flit takes the flit and finds no more bits. -/
theorem rx_takes (nak : Bool) (q : Nat) (hq : q = 0 ∨ q = 9) :
    ∃ v, takeBits 2048 (rxLink { flit0 with nak := nak, seq := q }).rxFec = some (true, v, []) ∧
      Link.openFlit { rxLink { flit0 with nak := nak, seq := q } with rxFec := [] } (leBytes 256 v) =
        some ({ flit0 with nak := nak, seq := q }, q) := by
  have hl : (upLink.seal { flit0 with nak := nak, seq := q } q).length = 256 := seal_length _ _ _ List.length_replicate
  refine ⟨_, takeBits_flit _ hl, ?_⟩
  have hb := leBytes_leNat (upLink.seal { flit0 with nak := nak, seq := q } q)
  rw [hl] at hb
  rw [hb]
  exact sealed_opens nak _ List.length_replicate q hq
def pkt0 : Packet := { typ := 1, vc := 0, tag := 7 + 65536 * 3, hops := 0, dst := 0, src := 0, dep := 0, sep := 0, birth := 244, flow := 0, pos := 0, cnt := 0, rsv27 := 0, arg := 0, payload := [1, 2] }
def lateState (l : Link) : State := let d := lnkState 0 l; { d with tim := { d.tim with now := 10000000, up := 10000000 } }
/-- A packet queued at a port that has sent nothing. -/
def ent0 (p : Packet) : TxEnt := ⟨0, p, ⟨p, 48, false⟩, true⟩
theorem witness_LinkFlitRows :
    ((lnkState 0 upLink).link 0) = upLink ∧ ((lnkState 0 trainable).link 0).state ≠ .up ∧ noCodeword.lanes = [] ∧
    takeBits 2048 upLink.rxFec = none ∧ takeBits 2048 { upLink with rxFec := [(false, 2048, 5)] }.rxFec = some (false, 5, []) ∧
    flit0.seq = upLink.rxNext % 65536 ∧ upLink.nakAt = none ∧ { upLink with nakAt := some (0, base.tim.up) }.nakAt = some (flit0.ack, base.tim.up) ∧
    (upLink.replayTimes.filter (fun t => decide (1000000 < t + 1000000))).length < 63 ∧
    63 ≤ ((List.replicate 63 999999).filter (fun t => decide (1000000 < t + 1000000))).length ∧
    { flit0 with seq := 9 }.seq ≠ upLink.rxNext % 65536 ∧ upLink.txq = [] ∧ upLink.resendAt = none ∧ upLink.txSeq + 2 < 2 ^ 62 ∧
    2 ^ 62 ≤ { upLink with txSeq := 2 ^ 62 - 2 }.txSeq + 2 ∧ 15 ≤ (List.replicate 15 999999).length ∧
    upLink.fecBits + 2048 < 5140 ∧ 5140 ≤ { upLink with fecBits := 4096 }.fecBits + 2048 := by decide +kernel
theorem witness_LinkFlitRows_sends :
    let s := lnkState 0 { upLink with txq := [ent0 pkt0], credits := [(0, 768)] }
    let m := lnkState 0 { upLink with txq := [ent0 { pkt0 with vc := 4 }], credits := [(4, 32)] }
    (s.link 0).txq = [⟨0, pkt0, ⟨pkt0, 48, false⟩, true⟩] ∧ s.pktStale pkt0 = false ∧ s.pktAged pkt0 = false ∧ (s.link 0).maySend pkt0 = true ∧
    pkt0.vc < 4 ∧ pkt0.payload.length ≤ 200 ∧ (s.link 0).ownerOf pkt0 = 0 ∧ ((s.link 0).slotAt (s.link 0).slotNext).2 = false ∧
    m.pktStale { pkt0 with vc := 4 } = false ∧ (m.link 0).maySend { pkt0 with vc := 4 } = true ∧ (m.link 0).prioWait = 0 := by decide +kernel
theorem witness_LinkFlitRows_moves :
    let s := lnkState 0 { upLink with txq := [ent0 pkt0], credits := [(0, 768)] }
    let d := (lateState { trainable with state := .retraining, leftUpAt := 1, inFlight := [(3, ent0 pkt0)] }).setLink 1 upLink
    sget 0 upLink.credits pkt0.vc = 0 ∧ upLink.leftUpAt = 0 ∧ (d.link 0).leftUpAt ≠ 0 ∧ (d.link 0).leftUpAt + 10000000 ≤ d.tim.up + 1 ∧
    (d.link 0).inFlight = [(3, ent0 pkt0)] ∧ (d.link 0).txq = [] ∧ (dirPorts (portDir 0)).any (fun m => m != 0 && (d.link m).takes) = true ∧
    (dirPorts (portDir 0)).any (fun m => m != 0 && (s.link m).takes) = false ∧
    upLink.tapAt = none ∧ { upLink with tapAt := some 999999 }.tapAt = some 999999 ∧ base.tim.up < 999999 + 1000000 := by decide +kernel
/-- The codeword of zeros needs no symbol put right. -/
theorem witness_LinkFlitRows_codeword :
    rsDecode (gatherLanes false 0 (dealLanes (List.replicate 544 0))) = some (List.replicate 544 0, 0) := by
  have h : gatherLanes false 0 (dealLanes (List.replicate 544 0)) = List.replicate 544 0 := by decide +kernel
  rw [h, rsDecode_zeros]
/-- Sixteen symbols of which the first fifteen roots are roots. -/
def badWord : List Nat := [1, 792, 769, 477, 965, 180, 5, 833, 936, 650, 38, 594, 684, 266, 944, 688]
theorem badWord_syndromes : rsSyndromes badWord =
    [0, 0, 0, 0, 0, 0, 0, 0, 0, 0, 0, 0, 0, 0, 0, 542, 841, 916, 500, 659, 568, 671, 796, 243, 338, 157, 449, 516, 46, 889] := by
  decide +kernel
/-- Sixteen errors in a codeword are too many. -/
theorem witness_LinkFlitRows_uncorrectable :
    rsDecode (gatherLanes false 0 (dealLanes (List.replicate 528 0 ++ badWord))) = none := by
  have h : gatherLanes false 0 (dealLanes (List.replicate 528 0 ++ badWord)) = List.replicate 528 0 ++ badWord := by decide +kernel
  rw [h]
  refine rsDecode_none 528 badWord ?_ ?_ <;> rw [badWord_syndromes]
  · rfl
  · decide +kernel
/-- A flit that nobody sealed under the port's key: too short to hold a tag. -/
theorem rx_fails : upLink.openFlit [] = none := by
  simp [Link.openFlit, upLink, trainable, leNat, bit, slice, gcmOpen, beBytes]

/-! ### Runnels, headworks, routes -/

def openF (role kind : Bool) : RopenF := { q := 3, role, stn := if role then 1 else 5, sa := 1, sb := 2, td := 0, depth := 2, kind }
def openCore : Core := { busy with regs := [(1, 9), (2, 1)] }
def openReq : OpenReq := { rid := 9, prodCore := 1, prodQ := 4, consCore := 0, fmt := 0, pc := 16, seq := 3 }
theorem witness_RunnelOpenAndCloseRows :
    let s := withCore openCore
    let k := s.core 0
    Dispatching 0 s ∧ ropenStn false (openF false false).stn.toNat = some .outflow ∧ ropenStn true (openF true true).stn.toNat = some .intake ∧
    (k.handle 3).state = .unbound ∧ (({ openCore with handles := [(3, { state := .pending })] } : Core).handle 3).state ≠ .unbound ∧
    s.ridBound 0 9 false = false ∧ s.ridBound 0 9 true = false ∧
    ({ withCore { openCore with handles := [(7, { state := .opened, rid := 9 })] } with free := 0 } : State).ridBound 0 9 false = true ∧ s.coreOf 0 1 = true ∧
    (k.reg 1).toNat % 65536 = 9 ∧ (k.reg 2).toNat = 1 ∧ k.badEndFmt (Desc.of (k.td 0)).fmt = false ∧ (openF true false).depth.toNat = 2 ∧
    0 + 2 * Fmt.tileBytes 0 ≤ pondBytes ∧ overlaps [(0, 0 + 2 * (Fmt.tileBytes 0 + 0))] k.rings = false ∧
    takeFirst (fun r : OpenReq => decide (r.rid = 9)) k.reqs = none ∧
    takeFirst (fun r : OpenReq => decide (r.rid = 9)) [openReq] = some (openReq, []) ∧ bit 1 63 = false ∧
    s.secHeld (coreSec 0) + 2 * tileTokens 0 ≤ secTokens ∧ secTokens < secTokens + 2 * tileTokens 0 ∧
    takeFirst (fun r : FabReq => decide (r.sec = 0 ∧ r.cid = 7 ∧ r.rid = 9)) [] = none ∧
    takeFirst (fun r : FabReq => decide (r.sec = 0 ∧ r.cid = 7 ∧ r.rid = 9)) [⟨0, 7, 9, 1, 0⟩] = some (⟨0, 7, 9, 1, 0⟩, []) ∧
    openReq.prodCore = 1 ∧ ({ openReq with prodCore := 2 }).prodCore ≠ 1 := by
  unfold Dispatching; decide
def closeState (h : Handle) (u : Stn) : State := atHead { busy with handles := [(3, h)] } u (.rclose noTok 3) [] []
theorem witness_RunnelOpenAndCloseRows_close :
    let p : Handle := { state := .pending, rid := 9, stn := .outflow }
    let o : Handle := { state := .opened, rid := 9, stn := .outflow, peer := 1, peerQ := 4 }
    AtHead 0 .outflow (closeState p .outflow) (entryOf (.rclose noTok 3) [] []) ∧
    AtHead 0 .intake (closeState { o with consumer := true } .intake) (entryOf (.rclose noTok 3) [] []) ∧
    (((closeState p .outflow).core 0).handle 3).state = .pending ∧ (((closeState o .outflow).core 0).handle 3).kind = .canal ∧
    (((closeState { o with consumer := true, ring := [.endMark] } .intake).core 0).handle 3).ring = .endMark :: [] := by
  unfold AtHead; decide
theorem witness_RunnelOpenAndCloseRows_fabric :
    let o : Handle := { state := .opened, kind := .fabric, rid := 9, stn := .outflow, peer := 1, depth := 2 }
    let s := { closeState o .outflow with hwk := { base.hwk with epochs := [(7, (true, 3))] } }
    let m := closeState { o with consumer := true, stn := .intake, mark := some 0 } .intake
    s.tagCurrent (s.tagOf (s.part 0).cid) = true ∧ ((s.core 0).handle 3).kind = .fabric ∧
    m.fabricNext 0 3 ((m.core 0).handle 3) = some .endMark ∧
    (closeState { o with consumer := true, stn := .intake } .intake).fabricNext 0 3 { o with consumer := true, stn := .intake } = none ∧
    AtHead 0 .intake m (entryOf (.rclose noTok 3) [] []) := by
  unfold AtHead; decide
/-- Ends bound to a group: an open of a source and of the gather, and a close before and after the engine has taken what was sent. -/
theorem witness_RunnelOpenAndCloseRows_group :
    let f := { openF false true with stn := 5 }
    let g : RGroup := { ({} : RGroup) with state := .active, gid := 6, s := 1, srcs := [⟨0, 9, 0, 16, 0⟩], owner := some 0, tenancy := 7 }
    let s := (withCore { openCore with regs := [(1, 9), (2, BitVec.ofNat 64 (2 ^ 63 + 6))] }).setRg 2 g
    let h : Handle := { state := .opened, kind := .contribution 6, rid := 9, stn := .outflow, depth := 4 }
    let c := (closeState h .outflow).setRg 2 g
    let full := (closeState { h with ring := [.endMark] } .outflow).setRg 2 g
    Dispatching 0 s ∧ f.kind = true ∧ f.role = false ∧ ropenStn f.role f.stn.toNat = some .outflow ∧
    ((s.core 0).reg f.sb).toNat % 2 ^ 14 = 6 ∧ bits ((s.core 0).reg f.sb).toNat 14 48 = 0 ∧ bit ((s.core 0).reg f.sb).toNat 63 = true ∧
    s.findRg 6 = some 2 ∧ s.findRg 7 = none ∧ ((s.core 0).handle 3).state = .unbound ∧
    (s.rg 2).srcs.any (fun m => m.part = 0) = true ∧ (s.rg 2).srcOf 0 0 9 ≠ none ∧ (s.rg 2).owner = some (s.partOf 0) ∧
    s.secHeld (coreSec 0) + 4 * tileTokens 0 ≤ secTokens ∧
    AtHead 0 .outflow c (entryOf (.rclose noTok 3) [] []) ∧ ((c.core 0).handle 3).ring = [] ∧ (closeState h .outflow).findRg 6 = none ∧
    AtHead 0 .outflow full (entryOf (.rclose noTok 3) [] []) ∧ ((full.core 0).handle 3).ring ≠ [] ∧ full.findRg 6 ≠ none ∧
    (((closeState { h with kind := .gather 6 } .outflow).core 0).handle 3).kind = .gather 6 := by
  unfold Dispatching AtHead; decide +kernel
def canalState (l : List CanalMsg) (h : Handle) : State :=
  { withCore { busy with handles := [(3, h)] } with canal := [.credit 0 8 1 1 1] ++ l }
theorem witness_CanalMessageRows :
    let c : Handle := { state := .pending, rid := 9, consumer := true, stn := .intake, peer := 1 }
    let p : Handle := { state := .pending, rid := 9, stn := .outflow }
    let o : Handle := { c with state := .opened }
    ({ base with canal := [.openReq 0 openReq] } : State).canal = .openReq 0 openReq :: [] ∧ openReq.rid = 9 ∧
    ((canalState [] c).core 0).awaits 9 = some 3 ∧ (((canalState [] c).core 0).handle 3).peer = openReq.prodCore ∧
    (base.core 0).awaits 9 = none ∧
    (∀ m ∈ [CanalMsg.credit 0 8 1 1 1], ∀ x y z w, m ≠ .openAck 0 9 x y z w) ∧
    (canalState [.openAck 0 9 0 3 5 2] p).canal = [.credit 0 8 1 1 1] ++ .openAck 0 9 0 3 5 2 :: [] ∧
    (((canalState [.openAck 0 9 0 3 5 2] p).core 0).handle 3).state = .pending ∧
    (canalState [.item 0 9 0 3 .endMark] o).canal = [.credit 0 8 1 1 1] ++ .item 0 9 0 3 .endMark :: [] ∧
    (((canalState [.item 0 9 0 3 .endMark] o).core 0).handle 3).state = .opened ∧ Fmt.isMx o.fmt = false ∧ Fmt.isMx 0x9 = true ∧
    (∀ m ∈ [CanalMsg.credit 0 8 1 1 1], ∀ y z w, m ≠ .credit 0 9 y z w) ∧
    (∀ m ∈ [CanalMsg.credit 0 8 1 1 1], ∀ y z w, m ≠ .item 0 9 y z w) ∧ (∀ m ∈ [CanalMsg.credit 0 8 1 1 1], ∀ y z, m ≠ .closeAck 0 9 y z) ∧
    (canalState [.credit 0 9 0 3 1] { p with state := .opened }).canal = [.credit 0 8 1 1 1] ++ .credit 0 9 0 3 1 :: [] ∧
    (((canalState [.closeAck 0 9 0 3] { p with state := .closing }).core 0).handle 3).state = .closing := by
  refine ⟨rfl, rfl, by decide, by decide, by decide, by simp, rfl, by decide, rfl, by decide, by decide, by decide, by simp, by simp, by simp, rfl, by decide⟩
/-- Core 0 stands on a good bed; the bed of core 16 × 255 is in no good section of an unstarted module. -/
theorem witness_CanalMessageRows_fenced :
    ({ base with canal := [] } : State).passes openReq.consCore = true ∧ (State.reset).passes openReq.consCore = false ∧
    ({ busy with handles := [(4, { state := .pending, rid := 9 })] } : Core).handle openReq.prodQ = { state := .pending, rid := 9 } ∧
    (busy.handle openReq.prodQ).state ≠ .pending := by decide
def hwkState : State :=
  { lnkState 0 { trainable with state := .up } with hwk := { base.hwk with epochs := [(7, (true, 3))], pos := ⟨1, 2, 3, 0⟩ } }
def goodPkt : Packet := { noPacket with typ := 1, tag := 7 + 65536 * 3, hops := 9, flow := 5, payload := List.replicate 32 0, birth := 244 }
theorem witness_PacketRows :
    (hwkState.link 0).state = .up ∧ pktMalformed { goodPkt with rsv27 := 1 } = true ∧ pktMalformed goodPkt = false ∧
    hwkState.pwr.sleep ≠ .diapause ∧ hwkState.pktStale goodPkt = false ∧ hwkState.pktStale { goodPkt with tag := 7 } = true ∧
    hwkState.pktAged goodPkt = false ∧ hwkState.pktAged { goodPkt with birth := 2 ^ 32 - 5000 } = true ∧
    hwkState.isMine (1 + 32 + 768) = true ∧ hwkState.isMine 0 = false ∧ goodPkt.typ ≠ 4 ∧
    ({ hwkState with pwr := { hwkState.pwr with sleep := .diapause } } : State).sleepPasses goodPkt = false ∧
    hwkState.syncDup { goodPkt with typ := 4 } = false ∧ hwkState.syncDup { goodPkt with typ := 4, pos := 2 ^ 31 } = true ∧
    hwkState.hop ⟨{ goodPkt with src := 801 }, 48, false⟩ = .go 1 false ∧ hwkState.hop ⟨{ goodPkt with src := 801, dst := 802 }, 48, false⟩ = .go 0 false ∧
    hwkState.hop ⟨{ goodPkt with src := 801, dst := 801 }, 48, false⟩ = .here ∧
    (hwkState.forward ⟨goodPkt, 48, false⟩ 1 false) = none ∧ (hwkState.forward ⟨goodPkt, 48, false⟩ 0 false).isSome = true := by decide +kernel
/-- A packet that has been sent along X on its detour and finds the rest of the ring closed both ways. -/
theorem witness_PacketRows_stuck :
    let gap (x : Nat) : Nat × Pos := (coordOf ⟨x, 2, 4, 0⟩, deadPos ⟨x, 2, 4, 0⟩)
    let s : State := { hwkState with hwk := { hwkState.hwk with pos := ⟨1, 2, 4, 0⟩, table := [gap 0, gap 2] } }
    s.hop ⟨{ goodPkt with src := 801, dst := coordOf ⟨8, 2, 4, 0⟩ }, 48, false⟩ = .stuck := by decide +kernel
def withBuf (p : Packet) (n : Nat) : State := { hwkState with hwk := { hwkState.hwk with bufs := [⟨p, n, false⟩] } }
/-- Packets at the front of the buffers: one that waits for its pair's earlier one, one for this module, partial sums with and without
tokens; one awake and one asleep; the endpoints of one handed over. -/
theorem witness_PacketRows_egress :
    let sync : Packet := { goodPkt with typ := 4, pos := 2 }
    let mine := { goodPkt with dst := 801 }
    let red := { mine with typ := 2, flow := 42, pos := 3, cnt := 1, arg := 0, src := 802 }
    let full : RGroup :=
      { ({} : RGroup) with state := .active, gid := 6, xr := true, s := 1, srcs := [⟨0, 1, 0, 16, 0⟩], partials := [⟨0, 3, 1, true, 1, 5, [], 760⟩] }
    (withBuf goodPkt 48).hwk.bufs[0]? = some ⟨goodPkt, 48, false⟩ ∧ hwkState.hwk.bufs[0]? = none ∧ (withBuf sync 0).syncEarly sync = true ∧
    hwkState.syncAhead sync = 2 ∧ (withBuf goodPkt 48).syncEarly goodPkt = false ∧ hwkState.isMine mine.dst = true ∧
    (withBuf red 0).redupRoom red = true ∧ ((withBuf red 0).setRg 2 { full with partials := [] }).redupRoom red = true ∧
    ((withBuf red 0).setRg 2 full).redupRoom red = false ∧ hwkState.hwk.role = .active ∧
    ({ hwkState with hwk := { hwkState.hwk with role := .spare } } : State).hwk.role ≠ .active ∧ goodPkt.src ≠ hwkState.coord ∧
    ({ hwkState with hwk := { hwkState.hwk with unacked := [⟨goodPkt, 48, 1⟩] } } : State).hwk.unacked[0]? = some ⟨goodPkt, 48, 1⟩ := by decide +kernel
theorem witness_DimensionOrderRouting :
    hwkState.hwk.table = [] ∧ hwkState.hwk.pos.x < 16 ∧ hwkState.hwk.pos.y < 16 ∧ hwkState.hwk.pos.z ≤ 16 ∧ hwkState.hwk.pos.d < 2 ∧
    801 / 4096 % 2 = 0 ∧ 801 / 256 % 16 = hwkState.hwk.pos.z ∧ (⟨goodPkt, 28, false⟩ : Buffered).inDim = some 2 := by decide
def fabState (h : Handle) : State := { withCore { busy with handles := [(3, h)] } with hwk := hwkState.hwk }
theorem witness_FabricAndRouteRows :
    let h : Handle := { state := .opened, kind := .fabric, rid := 5, consumer := true, stn := .intake, depth := 2 }
    (fabState h).secFrozen 0 = false ∧ (fabState h).findFabric 0 5 7 true = some (0, 3) ∧ goodPkt.dep = 0 ∧ goodPkt.flow = 5 ∧
    goodPkt.tag % 65536 = 7 ∧ (((fabState h).core 0).handle 3).state = .opened ∧
    goodPkt.payload ≠ [] ∧ (goodPkt.pos + 2 ^ 32 - 0) % 2 ^ 32 < 2 ^ 31 ∧
    (sget (0, noPacket) (fabState h).hwk.rings (ringKey 0 3 (goodPkt.pos % 2))).1 ≠ 1 ∧
    (fabState { h with state := .pending, consumer := false }).findFabric 0 5 7 false = some (0, 3) ∧
    ({ goodPkt with payload := [], arg := 1 + 256 * 3, src := 4 } : Packet).arg / 256 % 256 = 3 ∧
    (fabState { h with rid := 6 }).findFabric 0 5 7 true = none ∧
    (sget (false, 0) hwkState.hwk.epochs 7).1 = true ∧ (4 + 16 - (sget (false, 0) hwkState.hwk.epochs 7).2) % 16 = 1 ∧
    (sget (false, 0) hwkState.hwk.epochs 8).1 = false := by decide
/-- The spare whose twin fails, a producer's request withdrawn, and a table of assembly on which no ways form a cycle. -/
theorem witness_FabricAndRouteRows_more :
    let h : Handle := { state := .opened, kind := .fabric, rid := 5, consumer := true, stn := .intake, depth := 2 }
    let frozen : State := { fabState h with parts := [(0, { base.part 0 with state := .preempted, saved := some (base.image 0) })] }
    let held : State := { fabState h with hwk := { hwkState.hwk with fopens := [⟨0, 7, 5, 4, 0⟩] } }
    frozen.secFrozen 0 = frozen.frozen 0 ∧
    takeFirst (fun r : FabReq => decide (r.sec = 0 ∧ r.cid = 7 ∧ r.rid = 5 ∧ r.peer = 4 + 65536 * 0)) held.hwk.fopens = some (⟨0, 7, 5, 4, 0⟩, []) ∧
    ({ goodPkt with payload := [], arg := 3, src := 4 } : Packet).arg % 256 = 3 ∧
    hwkState.hwk.pos ≠ ⟨5, 5, 5, 0⟩ ∧ hwkState.hwk.failed = [] ∧
    ({ hwkState with hwk := { hwkState.hwk with failed := [⟨1, 2, 4, 0⟩] } } : State).hwk.failed = [⟨1, 2, 4, 0⟩] := by decide
def deferState : State :=
  { base with chr := { base.chr with deferred := [(7, 0)] }, parts := [(0, { ({} : Part) with state := .draining, sections := 1, cid := 7 })] }
theorem witness_FabricAndRouteRows_deferred :
    deferState.chr.deferred = [(7, 0)] ∧ (deferState.part 0).state = .draining ∧ deferState.mayAdvance 7 = true ∧
    ({ deferState with chr := { deferState.chr with lastAdvance := [(7, 1000001)] } } : State).mayAdvance 7 = false := by decide
def masterState : State := { hwkState with hwk := { hwkState.hwk with master := true, computing := true } }
theorem witness_FabricAndRouteRows_route :
    masterState.hwk.master = true ∧ masterState.hwk.computing = true ∧ (⟨5, 5, 5, 0⟩ : Pos) ≠ masterState.twinPos ∧ masterState.hwk.inbox = [] ∧ hwkState.hwk.master = false ∧
    ({ hwkState with hwk := { hwkState.hwk with masterAt := some ⟨0, 0, 0, 0⟩ } } : State).hwk.masterAt = some ⟨0, 0, 0, 0⟩ ∧
    (1 + 65536 - ((masterState.hwk.shadow.map (·.version)).getD masterState.hwk.version)) % 65536 = 1 ∧
    ({ hwkState with hwk := { hwkState.hwk with shadow := some ⟨1, 5, []⟩ } } : State).hwk.shadow = some ⟨1, 5, []⟩ ∧
    (⟨1, 5, []⟩ : Shadow).time ≤ hwkState.tim.now ∧ hwkState.tim.now < (⟨1, 2 ^ 60, []⟩ : Shadow).time ∧
    hwkState.isMine 801 = true ∧ hwkState.isMine 5 = false ∧ (⟨1, 2, 3, 0⟩ : Pos) = hwkState.hwk.pos ∧
    ({ hwkState with hwk := { hwkState.hwk with role := .spare } } : State).hwk.role = .spare := by decide

/-! ### Reduction groups -/

def aSum (n e : Nat) (v : Int) : TSum := ⟨n, e, List.replicate 1024 v⟩
theorem witness_ReductionSumsAreOrderFree :
    (aSum 1 5 3).vals.length = 1024 ∧ (aSum 1 5 3).cnt ≠ 0 ∧ (aSum 2 5 4).vals.length = 1024 ∧ (aSum 2 5 4).cnt ≠ 0 ∧ (aSum 1 6 4).e ≠ (aSum 1 5 3).e := by
  exact ⟨List.length_replicate, Nat.one_ne_zero, List.length_replicate, by decide, by decide⟩
/-- At the limit of 10 R285: 81,919 contributions of 127 and one more. -/
theorem witness_ReductionSumsAreOrderFree_limit :
    (∀ v ∈ (aSum 81919 5 (81919 * 127)).vals, v.natAbs ≤ (aSum 81919 5 (81919 * 127)).cnt * 127) ∧
    (∀ v ∈ (aSum 1 5 127).vals, v.natAbs ≤ (aSum 1 5 127).cnt * 127) ∧
    (aSum 81919 5 (81919 * 127)).cnt + (aSum 1 5 127).cnt ≤ 81920 ∧
    (aSum 81919 5 (81919 * 127)).add (aSum 1 5 127) =
      some ⟨81920, 5, List.zipWith (· + ·) (aSum 81919 5 (81919 * 127)).vals (aSum 1 5 127).vals⟩ := by
  refine ⟨?_, ?_, by decide, rfl⟩ <;> intro v h <;> rw [List.eq_of_mem_replicate h] <;> decide
theorem witness_PartialSumPayloads :
    (List.replicate 1024 (127 : Int)).length = 1024 ∧ 1 * 127 < 2 ^ 31 ∧ (∀ v ∈ List.replicate 1024 (127 : Int), -(127 * (1 : Nat) : Int) ≤ v ∧ v ≤ 127 * (1 : Nat)) ∧
    (∀ v ∈ List.replicate 1024 (-1 : Int), v = 1 ∨ v = -1) := by
  refine ⟨List.length_replicate, by decide, ?_, ?_⟩ <;> intro v h <;> rw [List.eq_of_mem_replicate h] <;> decide
def aGroup : RGroup :=
  { ({} : RGroup) with state := .active, gid := 6, xr := true, s := 1, srcs := [⟨0, 1, 0, 16, 0⟩], owner := some 0, tenancy := 7, expect := 3, resDva := 0 }
def groupState (g : RGroup) : State := ({ base with hwk := hwkState.hwk }.setRg 2 g)
def redPkt (step : Nat) : Packet := { goodPkt with typ := 2, src := 2 + 32 + 768, flow := 42, pos := 3, cnt := 1, arg := step * 65536, payload := List.replicate 1024 1 }
/-- An input of a tile that waits at the X ring, on a scale. -/
def inX (up : Bool) (tile e : Nat) : Partial := ⟨0, tile, 1, up, 1, e, [], if up then 4 else 0⟩
/-- Shards of two tiles: module x = 1 is the start of the X ring for tile 0, and stands between start and sink for tile 4. -/
def ringGroup (streams : Store Nat) (l : List Partial) : RGroup := { aGroup with s := 2, streams, partials := l }
theorem witness_ReductionStreamsAscend :
    let g := ringGroup [(3, 3)] [inX false 4 5]
    let a := groupState (ringGroup [] [inX false 0 5])
    let b := groupState g
    let c := ringGroup [(3, 3)] [inX false 4 5, inX true 4 6]
    2 < g.tiles ∧ g.plus 2 = true ∧ sget 0 g.streams (2 * 1 + b2n true) = 2 + 1 ∧ g.nextTile b.coord 1 true = some 4 ∧
    (a.rg 2).nextTile a.coord 1 true = some 0 ∧ (a.rg 2).slot 1 true = some (inX false 0 5) ∧ (inX false 0 5).tile = 0 ∧
    ringPos 1 a.coord = ringStart (ringPos 1 ((a.rg 2).ownerOf a.coord 0)) true ∧
    (b.rg 2).slot 1 true = some (inX false 4 5) ∧ ringPos 1 b.coord ≠ ringStart (ringPos 1 ((b.rg 2).ownerOf b.coord 4)) true ∧
    ringPos 1 b.coord ≠ ringPos 1 ((b.rg 2).ownerOf b.coord 4) ∧ (b.rg 2).input 4 1 = none ∧ c.input 4 1 = some (inX true 4 6) ∧
    (inX false 4 5).sum.add (inX true 4 6).sum = none ∧ (inX false 4 5).sum.add (inX true 4 5).sum = some ⟨2, 5, []⟩ := by decide +kernel
theorem witness_ReductionGroupRows :
    let s := groupState aGroup
    let j := groupState { aGroup with state := .joining }
    s.findRg 6 = some 2 ∧ j.findRg 6 = some 2 ∧ (j.rg 2).state = .joining ∧ 0 = (j.part 0).startStep 6 ∧
    5 = ({ base.part 0 with steps := [(6, 5)] } : Part).startStep 6 ∧
    ({ j with tim := { j.tim with up := 1000000000 } } : State).tim.up ≥ (j.rg 2).since + 1000000000 ∧
    (redPkt 0).flow / 7 = 6 ∧ s.tagCurrent (redPkt 0).tag = true ∧ s.tagCurrent { redPkt 0 with tag := 7 }.tag = false ∧
    (s.rg 2).stageOn (redStage s.coord (redPkt 0).src) = true ∧ (redPkt 0).pos < (s.rg 2).tiles ∧ (s.rg 2).seen.contains (0, 3, 1) = false ∧
    (s.rg 2).heldBy 1 ((s.rg 2).plus 3) + redTokens (bits (redPkt 0).arg 8 2) ≤ 760 ∧
    760 < ({ aGroup with partials := [⟨0, 5, 1, true, 1, 5, [], 760⟩] } : RGroup).heldBy 1 ((s.rg 2).plus 3) + redTokens 0 ∧
    (bits (redPkt 1).arg 16 16 + 65536 - (s.rg 2).step % 65536) % 65536 = 1 ∧
    32768 ≤ (bits (redPkt 65535).arg 16 16 + 65536 - (s.rg 2).step % 65536) % 65536 ∧
    s.writesShard = true ∧ ((groupState { aGroup with sums := [(0, (3, [1]))] }).rg 2).sums.length = 1 ∧ (s.rg 2).open_ = true ∧
    s.controls (s.rg 2) = false ∧ masterState.controls (s.rg 2) = true ∧ (s.rg 2).owner = some 0 ∧
    (s.rg 2).srcs.any (fun m => m.part = 0) = true ∧ (s.rg 2).taken.contains 0 = false ∧ (s.rg 2).gatherDup (redPkt 0) = false ∧
    ({ aGroup with gatherDone := 1 } : RGroup).gatherDup (redPkt 0) = true ∧ (s.gatherStore 2 (redPkt 0)).2 = true := by decide +kernel
theorem witness_ReductionGroupRows_write :
    let s := groupState aGroup
    (State.writeShard 0 ((s.rg 2).resDva + 4096) [[1]] s).isSome = true ∧
    (s.writeDva .core 0 0 (headerBytes 3 3 0 0 false)).isSome = true := by decide +kernel

/-- A copy of a partial sum already taken, reports that agree and differ, a commit that is due, a step with a result, a contributor of
another module, and a shard that nobody owns. -/
theorem witness_ReductionGroupRows_steps :
    let s := groupState aGroup
    let m := ({ masterState with parts := base.parts } : State).setRg 2 aGroup
    let d := m.setRg 2 { aGroup with commitDue := true, reported := true }
    ({ aGroup with seen := [(0, 3, 1)] } : RGroup).seen.contains (0, 3, 1) = true ∧ m.findRg 6 = some 2 ∧ (m.rg 2).open_ = true ∧
    m.controls (m.rg 2) = true ∧ 3 = (m.rg 2).expect - (m.rg 2).lostCnt ∧ 2 ≠ (m.rg 2).expect - (m.rg 2).lostCnt ∧
    (d.rg 2).commitDue = true ∧ (d.rg 2).reported = true ∧ (m.rg 2).commitDue = false ∧ (s.rg 2).owner ≠ none ∧ (s.rg 2).reported = false ∧
    ((groupState { aGroup with reported := true }).rg 2).reported = true ∧ ((groupState { aGroup with sums := [(0, (3, [1]))] }).rg 2).s = 1 ∧
    ((groupState { aGroup with state := .none }).rg 2).open_ = false ∧ ({ aGroup with taken := [0] } : RGroup).taken.contains 0 = true ∧
    ({ aGroup with outs := [0] } : RGroup).outs.contains 0 = true ∧ (s.rg 2).step = 0 := by decide +kernel

/-! ### Queues -/

/-- A command with an opcode and its argument bytes from packet offset 24 on. -/
def aCmd (opc : Nat) (args : List Byte) : Cmd :=
  { opc, wait := false, sig := false, irq := false, cid := 1, wfence := 0, sfence := 0, wval := 0, sval := 0, args := args ++ List.replicate (40 - args.length) 0,
    stage := .ready, status := 0, r0 := 0, r1 := 0 }
def aQueue : Queue := { state := .running, sqBase := 0x10000, cqBase := 0x20000, sqLog := 4, cqLog := 4 }
/-- A module with a function whose queue q holds a command; context 0 is open, with PASID 5. -/
def onQueue (s : State) (f q : Nat) (c : Option Cmd) : State :=
  s.setFn f { ({} : Fn) with tdi := .run, ctxs := [(0, { state := .opened, pasid := 5 })],
                             queues := [(q, { aQueue with ctx := if q = 0 then none else some 0, cur := c })] }
def cmdState (f q opc : Nat) (args : List Byte) : State := onQueue base f q (some (aCmd opc args))
def syRun : State := let s := onQueue base 1 3 none
  s.setQueue 1 3 { s.queue 1 3 with tail := 5, head := 2, cqTail := 3 }
def nopPacket : List Byte := [0x01, 0, 9, 0] ++ List.replicate 60 0
theorem witness_QueueMechanicsRows :
    syRun.served 1 3 = true ∧ syRun.mon.phase = .ready ∧ (syRun.queue 1 3).state = .running ∧ (syRun.queue 1 3).waiting ≤ (15 + 16 - 2) % 16 ∧
    15 < (syRun.queue 1 3).sqLen ∧ (syRun.queue 1 3).sqLen ≤ 16 ∧ (3 + 16 - (syRun.queue 1 3).cqHead) % 16 ≤ (3 + 16 - 0) % 16 ∧ (syRun.queue 1 3).held = [] ∧
    syRun.pwr.sleep ≠ .diapause ∧ syRun.pwr.sleep ≠ .waking ∧ (syRun.queue 1 3).destroying = false ∧
    (({ aQueue with destroying := true } : Queue)).destroying = true ∧ (syRun.queue 1 3).cur = none ∧ (syRun.queue 1 3).waiting ≠ 0 ∧ (syRun.queue 1 3).cqFull = false ∧
    (decodePacket 1 3 nopPacket).2 = 0 ∧ (decodePacket 1 3 nopPacket).1.wait = false ∧ (decodePacket 1 3 (List.replicate 64 0)).2 ≠ 0 ∧
    ((onQueue base 1 3 (some { aCmd 1 [] with stage := .done })).queue 1 3).cur = some { aCmd 1 [] with stage := .done } := by decide +kernel
/-- A command that waits on a fence that has been signalled, one that does not, and a completion that signals one; a new command of a module
that is not Ready; a STEP_MARK that completes. -/
theorem witness_QueueMechanicsRows_more :
    let w : List Byte := [0x01, 0x01, 9, 0] ++ List.replicate 4 0 ++ leBytes 8 0 ++ List.replicate 48 0
    let one := syRun.setQueue 1 3 { syRun.queue 1 3 with tail := 2, head := 2, cqTail := 0 }
    let off : State := { one with mon := { one.mon with phase := .fatal } }
    let done := { aCmd 0x63 [] with stage := .done }
    let s := onQueue base 1 3 (some done)
    (decodePacket 1 3 w).1.wait = true ∧ syRun.frozen 0 = false ∧ (off.queue 1 3).waiting = 0 ∧ (3 + 16 - (off.queue 1 3).tail) % 16 = 1 ∧
    off.mon.phase ≠ .ready ∧ off.served 1 3 = true ∧ 16 ≤ (syRun.queue 1 3).sqLen ∧ (1 + 16 - (syRun.queue 1 3).head) % 16 = 15 ∧
    (s.queue 1 3).cur = some done ∧ done.opc = 0x63 ∧ done.status = 0 ∧ s.twinHoldStart.isSome = true := by decide +kernel
def stuckState : State :=
  { withCore { busy with waits := [(0, .token 3 5)], halt := false } with tim := { base.tim with up := 20000000 } }
theorem witness_QueueMechanicsRows_deadlock :
    (stuckState.part 0).state = .active ∧ (stuckState.synPart 0).en = true ∧ snapsOf (stuckState.unitStates 0) ≠ [] ∧
    (∀ u ∈ stuckState.unitStates 0, u ≠ .runs) ∧ (stuckState.synPart 0).progressAt + 1000 * (stuckState.synPart 0).window ≤ stuckState.tim.up := by
  decide +kernel
def forceClose : State := cmdState 1 0 0x03 [0, 1]
theorem witness_QueueZeroRows :
    InHand 0x01 0 3 (cmdState 0 3 0x01 []) (aCmd 0x01 []) ∧ InHandVf 0x02 0 0 (cmdState 1 0 0x02 [6, 0, 0, 0]) (aCmd 0x02 [6, 0, 0, 0]) ∧
    ((cmdState 1 0 0x02 [6, 0, 0, 0]).ctx 1 1).state = .free ∧ ((cmdState 1 0 0x02 [6, 0, 0, 0]).ctx 1 0).state ≠ .free ∧
    ((cmdState 1 0 0x02 [6, 0, 0, 0]).ctx 1 0).pasid ≠ (aCmd 0x02 [6, 0, 0, 0]).arg 24 4 ∧
    InHandVf 0x03 0 0 forceClose (aCmd 0x03 [0, 1]) ∧ (forceClose.ctx 1 0).state = .opened ∧ (forceClose.part 0).cocBusy = false ∧
    (aCmd 0x03 [0, 1]).arg 25 1 = 1 ∧ forceClose.ownsNothing 1 0 0 = false ∧
    ({ forceClose with secs := [] } : State).ownsNothing 1 0 0 = true ∧
    InHand 0x04 1 0 (cmdState 1 0 0x04 ([63, 0, 4, 15, 63])) (aCmd 0x04 [63, 0, 4, 15, 63]) ∧
    ((cmdState 1 0 0x04 [63, 0, 4, 15, 63]).queue 1 63).state = .absent ∧
    InHand 0x05 1 0 ((cmdState 1 0 0x05 [3]).setQueue 1 3 aQueue) (aCmd 0x05 [3]) ∧ aQueue.busy = false ∧ ({ aQueue with cur := some { aCmd 1 [] with stage := .done } } : Queue).busy = true ∧
    ((((cmdState 1 0 0x05 [3]).setQueue 1 3 { aQueue with destroying := true }).cancelAll 1 3).1.queue 1 3).held = [] ∧
    ((((cmdState 1 0 0x05 [3]).setQueue 1 3 { aQueue with destroying := true, held := [base.cpl 1 3 0 0] }).cancelAll 1 3).1.queue 1 3).held ≠ [] ∧
    InHand 0x06 1 0 ((cmdState 1 0 0x06 [3, 1]).setQueue 1 3 { aQueue with state := .halted }) (aCmd 0x06 [3, 1]) := by
  unfold InHandVf InHand; decide +kernel
/-- Refusals: PF0 outside Ready, a Stopped partition, units that are stopped, a context of a PASID already open, a queue that is not
there, and a queue whose context dies. -/
theorem witness_QueueZeroRows_refusals :
    let off : State := let s := cmdState 0 3 0x01 []; { s with mon := { s.mon with phase := .fatal } }
    let st (x : Part) (f q opc : Nat) (l : List Byte) : State := onQueue { base with parts := [(0, x)] } f q (some (aCmd opc l))
    let dead := st { base.part 0 with state := .stopped } 1 0 0x01 []
    let held := st { base.part 0 with saved := some (base.image 0) } 1 3 0x10 []
    let res := st { base.part 0 with state := .stopped } 1 0 0x06 [3, 1]
    InHand 0x01 0 3 off (aCmd 0x01 []) ∧ off.mon.phase ≠ .ready ∧ InHand 0x01 1 0 dead (aCmd 0x01 []) ∧ (dead.part 0).state = .stopped ∧
    InHand 0x10 1 3 held (aCmd 0x10 []) ∧ (held.part 0).state ≠ .stopped ∧ held.stopped 0 = true ∧ (held.part 0).cocBusy = false ∧
    InHand 0x10 0 3 (cmdState 0 3 0x10 []) (aCmd 0x10 []) ∧ InHand 0x70 1 0 (cmdState 1 0 0x70 []) (aCmd 0x70 []) ∧
    ((cmdState 1 0 0x02 [5, 0, 0, 0]).ctx 1 0).pasid = (aCmd 0x02 [5, 0, 0, 0]).arg 24 4 ∧ InHand 0x06 1 0 res (aCmd 0x06 [3, 1]) ∧
    (aCmd 0x06 [3, 1]).arg 25 1 = 1 ∧ (res.queue 1 3).state = .absent ∧
    (((cmdState 1 0 0x06 [3, 1]).setQueue 1 3 { aQueue with state := .halted, ctx := some 1 }).ctxOpen 1 3) = false ∧
    (((cmdState 1 0 0x06 [3, 1]).setQueue 1 3 { aQueue with state := .halted, ctx := some 0 }).ctxOpen 1 3) = true := by
  unfold InHand; decide +kernel
/-- A death that must wait for its launch, and one whose TDI is in ERROR. -/
theorem witness_QueueZeroRows_deaths :
    let d (s : State) : State := let t := onQueue s 1 3 none; t.setCtx 1 0 { state := .dying, pasid := 5, closing := true }
    let runs := d (withCore { busy with launch := some ⟨1, 3, false, false, 0⟩ })
    (runs.ctx 1 0).state = .dying ∧ (∃ q ∈ runs.ctxQueues 1 0, ∃ e ∈ runs.launchCores 1 q, e.2.halt = false) ∧ ((d base).ctx 1 0).closing = true ∧
    (((d base).setFn 1 { (d base).fn 1 with tdi := .error }).fn 1).tdi = .error ∧ (d base).mon.phase ≠ .fatal := by decide +kernel
def dyingState : State := let s := onQueue base 1 0 none; s.setCtx 1 0 { state := .dying, pasid := 5 }
theorem witness_QueueZeroRows_death :
    (dyingState.ctx 1 0).state = .dying ∧ (dyingState.part 0).cocBusy = false ∧ dyingState.ctxQueues 1 0 = [] ∧ dyingState.ctxScheds 0 0 = [] ∧
    (dyingState.fn 1).tdi = .run ∧ (dyingState.part 0).state ≠ .draining ∧ (dyingState.queue 1 0).cur = none ∧ (((dyingState.releaseCtx 1 0 0).1.setCtx 1 0 {}).queue 1 0).cur = none ∧
    (((dyingState.releaseCtx 1 0 0).1.setCtx 1 0 {}).fn 1).tdi = .run := by decide +kernel

/-! ### Idind commands on memory and objects -/

def aMap : Mapping := { addr := 0x9000, len := 0x100000, rd := true, wr := true, ctx := some 0 }
/-- A module with a command of the VF of partition 0 on queue 3, bound to context 0, with one mapping. -/
def vfState (s : State) (opc : Nat) (args : List Byte) : State :=
  let t := onQueue s 1 3 (some (aCmd opc args))
  t.setFn 1 { t.fn 1 with maps := [(0, some aMap)] }
def allocArgs : List Byte := leBytes 8 0x20000 ++ [0]
def mapArgs : List Byte := leBytes 8 0x4000 ++ leBytes 8 0x2000 ++ [3]
def copyArgs (n : Nat) : List Byte := leBytes 8 0 ++ leBytes 8 0x10 ++ leBytes 8 0x1000 ++ leBytes 8 n
/-- A bitmap that names core 0 at DVA 0x1000, 64 bytes of registers at 0x2000, an image at 0x3000. -/
def bitBase : State :=
  { (withCore { ({} : Core) with halt := true, ilen := 64 }) with resv := sset 0 (sset 0 [] 0x1000 1) 0x3001 9 }
def loadArgs : List Byte := leBytes 8 0x3000 ++ leBytes 8 0x1000 ++ leBytes 4 64
def launchArgs : List Byte := leBytes 8 0x1000 ++ leBytes 4 8 ++ leBytes 4 0 ++ leBytes 8 0x2000
theorem witness_HostMemoryRows :
    InHandVf 0x10 0 3 (vfState base 0x10 allocArgs) (aCmd 0x10 allocArgs) ∧ (vfState base 0x10 allocArgs).secOf 0 ((aCmd 0x10 allocArgs).arg 32 1) = some 0 ∧
    (((vfState base 0x10 allocArgs).sec 0).alloc ((aCmd 0x10 allocArgs).arg 24 8) .priv (some 0)).toOption.map (·.1) = some (some 64) ∧
    InHandVf 0x11 0 3 (vfState base 0x11 (leBytes 8 0)) (aCmd 0x11 (leBytes 8 0)) ∧ (aCmd 0x11 (leBytes 8 0)).arg 24 8 ≠ 2 ^ 64 - 1 ∧
    InHandVf 0x12 0 3 (vfState base 0x12 mapArgs) (aCmd 0x12 mapArgs) ∧ ((vfState base 0x12 mapArgs).queue 1 3).ctx = some 0 ∧
    (aCmd 0x12 mapArgs).arg 24 8 % 4096 = 0 ∧ (aCmd 0x12 mapArgs).arg 32 8 = 0x2000 ∧ ((vfState base 0x12 mapArgs).fn 1).map 1 = none ∧
    ((vfState base 0x12 mapArgs).fn 1).map 0 ≠ none ∧
    InHandVf 0x13 0 3 (vfState base 0x13 [0, 0]) (aCmd 0x13 [0, 0]) ∧ ((vfState base 0x13 [0, 0]).fn 1).map 0 = some aMap ∧
    InHandVf 0x22 0 3 (vfState base 0x22 [3]) (aCmd 0x22 [3]) ∧ (vfState base 0x22 [3]).launchCores 1 3 = [] ∧
    (vfState (withCore { busy with launch := some ⟨1, 3, false, false, 0⟩ }) 0x22 [3]).launchCores 1 3 ≠ [] := by
  unfold InHandVf InHand; decide +kernel
theorem witness_HostMemoryRows_copy :
    let s := vfState base 0x14 (copyArgs 256)
    let c := aCmd 0x14 (copyArgs 256)
    InHandVf 0x14 0 3 s c ∧ c.arg 48 8 = 256 ∧ (s.copyCheck 1 3 0 c true).toOption.isSome = true ∧ (s.copyCheck 1 3 0 c false).toOption.isSome = true ∧
    (s.writeDva .host 0 0x1000 (List.replicate 256 7)).map (·.2) = some 0 ∧ (s.writeDva .host 0 0x1000 []).map (·.2) = some 0 ∧
    (s.readDva (.host 1 3) 0 ((s.partSecs 0).headD 0) [(0x1000, 256)]).2 = .done 0 := by
  unfold InHandVf InHand; decide +kernel
/-- A copy of nothing, one whose mapping does not reach, and a copy that the host aborts. -/
theorem witness_HostMemoryRows_copies :
    let s := vfState base 0x15 (copyArgs 256)
    let big := aCmd 0x15 (copyArgs (2 ^ 32))
    InHandVf 0x15 0 3 s (aCmd 0x15 (copyArgs 256)) ∧ (aCmd 0x15 (copyArgs 256)).begun = false ∧ ({ aCmd 0x15 (copyArgs 256) with begun := true }).begun = true ∧
    (aCmd 0x15 (copyArgs 0)).arg 48 8 = 0 ∧ s.copyCheck 1 3 0 big false = .error Status.bounds ∧ s.mapping 1 3 0 = some aMap ∧
    copyParts 0x1000 256 (some (64, 65)) = [(0, 0), (128, 128)] ∧ (aCmd 0x12 (leBytes 8 1 ++ leBytes 8 0x1000)).arg 24 8 % 4096 ≠ 0 := by
  unfold InHandVf InHand; decide +kernel
theorem witness_HostMemoryRows_load :
    let s := vfState bitBase 0x20 loadArgs
    let c := aCmd 0x20 loadArgs
    InHandVf 0x20 0 3 s c ∧ c.arg 40 4 = 64 ∧ (s.cmdBytes 0 0x3000 64).isSome = true ∧ (s.cmdBytes 0 0x1000 320).map bitmapCores = some [0] ∧
    s.coreOf 0 0 = true ∧ (s.core 0).halt = true ∧ (s.readDva (.host 1 3) 0 ((s.partSecs 0).headD 0) [(0x1000, 320), (0x3000, 64)]).2 = .done 0 := by
  unfold InHandVf InHand; decide +kernel
theorem witness_HostMemoryRows_launch :
    let s := vfState bitBase 0x21 launchArgs
    let c := aCmd 0x21 launchArgs
    InHandVf 0x21 0 3 s c ∧ c.arg 32 4 = 8 ∧ (s.cmdBytes 0 0x1000 320).map bitmapCores = some [0] ∧ (s.cmdBytes 0 0x2000 64).isSome = true ∧
    s.coreOf 0 0 = true ∧ 8 < (s.core 0).ilen ∧ (s.core 0).halt = true ∧ s.entryOf 0 = none ∧
    (s.readDva (.host 1 3) 0 ((s.partSecs 0).headD 0) [(0x1000, 320), (0x2000, 64)]).2 = .done 0 := by
  unfold InHandVf InHand; decide +kernel
def quotaBase : State :=
  { base with syn := { ({} : Syn) with objs := [(1, some aFence)], nextId := 2, parts := [(0, { ({} : SynPart) with ids := [(5, 1)], qFence := 4, qSem := 4, qHwait := 4 })] } }
def createArgs (vid kind v : Nat) : List Byte := leBytes 2 vid ++ [BitVec.ofNat 8 kind] ++ List.replicate 5 0 ++ leBytes 8 v
def sigArgs (v : Nat) : List Byte := leBytes 2 5 ++ List.replicate 6 0 ++ leBytes 8 v
theorem witness_HostObjectRows_sync :
    InHandVf 0x30 0 3 (vfState quotaBase 0x30 (createArgs 6 1 9)) (aCmd 0x30 (createArgs 6 1 9)) ∧ (aCmd 0x30 (createArgs 6 1 9)).arg 26 1 = 1 ∧
    (aCmd 0x30 (createArgs 6 1 9)).arg 24 2 = 6 ∧ sget 0 (quotaBase.synPart 0).ids 6 = 0 ∧ quotaBase.synUse 0 .sem < (quotaBase.synPart 0).qSem ∧
    (base.synPart 0).qFence ≤ base.synUse 0 .fence ∧
    InHandVf 0x31 0 3 (vfState quotaBase 0x31 [5, 0]) (aCmd 0x31 [5, 0]) ∧ (vfState quotaBase 0x31 [5, 0]).synFind 0 5 = some (1, aFence) ∧
    InHandVf 0x32 0 3 (vfState quotaBase 0x32 [5, 0, 0, 0, 9, 0]) (aCmd 0x32 [5, 0, 0, 0, 9, 0]) ∧ Names quotaBase 0 5 1 aFence ∧
    (aCmd 0x32 [5, 0, 0, 0, 9, 0]).arg 28 2 = 9 ∧ InHandVf 0x33 0 3 (vfState quotaBase 0x33 (sigArgs 9)) (aCmd 0x33 (sigArgs 9)) ∧
    hostBad .fence false 9 = false ∧ hostOp .fence false 9 = some .fsig ∧
    (((vfState quotaBase 0x33 (sigArgs 9)).synOp 0 5 .fsig 9 (.host 1 3)).2 = .done 0) ∧
    (((vfState quotaBase 0x34 (sigArgs 9)).synOp 0 5 .fwait 9 (.host 1 3)).2 = .waits) ∧
    (((vfState quotaBase 0x34 (sigArgs 7)).synOp 0 5 .fwait 7 (.host 1 3)).2 = .done 0) ∧
    InHandVf 0x34 0 3 (vfState quotaBase 0x34 (sigArgs 9)) (aCmd 0x34 (sigArgs 9)) := by
  unfold InHandVf InHand Names; decide +kernel
theorem witness_HostObjectRows_export :
    (aCmd 0x32 [5, 0, 0, 0, 9, 0]).arg 24 2 = 5 ∧ (aCmd 0x32 [5, 0, 0, 0, 9, 0]).arg 26 1 = 0 ∧ sget 0 (quotaBase.idsOf 0) 9 = 0 ∧
    (aCmd 0x32 [5, 0, 1, 0, 9, 0]).arg 26 1 = 1 ∧ sget 0 (quotaBase.idsOf 1) 9 = 0 ∧ quotaBase.sameCompact 0 1 = false := by decide +kernel
/-- A weir of core 0 and a remote event, created from a record at DVA 0x1000; and one that names a core of nobody's. -/
theorem witness_HostObjectRows_records :
    let args (kind : Nat) : List Byte := leBytes 2 6 ++ [BitVec.ofNat 8 kind] ++ List.replicate 13 0 ++ leBytes 8 0x1000
    let b := { quotaBase with resv := [(0x1000, 1)], syn := { quotaBase.syn with parts := [(0, { quotaBase.synPart 0 with qWeir := 1, qFweir := 1, qRemote := 1 })] } }
    let s := vfState b 0x30 (args 4)
    InHandVf 0x30 0 3 s (aCmd 0x30 (args 4)) ∧ (aCmd 0x30 (args 4)).arg 26 1 = 4 ∧ (s.cmdBytes 0 0x1000 320).map bitmapCores = some [0] ∧
    s.coreOf 0 0 = true ∧ s.synUse 0 .weir < (s.synPart 0).qWeir ∧ (s.readDva (.host 1 3) 0 0 [(0x1000, 320)]).2 = .done 0 ∧
    (s.cmdBytes 0 0x1000 8).map leNat = some 1 ∧ s.coreOf 0 256 = false := by
  unfold InHandVf InHand; decide +kernel
def sipArgs : List Byte := [2, 0, 2, 0, 0, 0, 0, 0] ++ leBytes 8 0x40
theorem witness_HostObjectRows_siphon :
    let s := vfState base 0x40 sipArgs
    let c := aCmd 0x40 sipArgs
    InHandVf 0x40 0 3 s c ∧ s.secOf 0 (c.arg 25 1) = some 0 ∧ c.arg 24 1 < schedCount ∧ c.arg 26 2 = 2 ∧ s.hostRange 0 0x40 128 ≠ .none ∧
    s.coreRange 0 0 0x40 128 = true ∧ ((s.sec 0).sched 2).state = .idle ∧ InHandVf 0x41 0 3 (vfState base 0x41 [2, 0]) (aCmd 0x41 [2, 0]) := by
  unfold InHandVf InHand; decide +kernel
def aqArgs : List Byte := [3, 2, 0, 0, 0, 0, 0, 0] ++ leBytes 8 (aqBase + 2 ^ 21) ++ leBytes 8 131072
def hostRegion (r : Region) : State :=
  { base with parts := [(0, { base.part 0 with regions := [(3, r)] })], aqf := { base.aqf with linesUsed := 4, gib := 2 } }
def loading : Region := { state := .loading, base := aqBase + 2 ^ 21, size := 65536, width := 2, ctx := some 0, pages := [] }
def aqwArgs : List Byte := [3, 0, 0, 0, 0, 0, 0, 0] ++ leBytes 8 0x100
theorem witness_HostObjectRows_aquifer :
    let s := vfState { base with aqf := { base.aqf with gib := 2 } } 0x48 aqArgs
    let c := aCmd 0x48 aqArgs
    InHandVf 0x48 0 3 s c ∧ c.arg 24 1 < maxRegions ∧ c.arg 25 1 = 2 ∧ c.arg 32 8 % 2 ^ 21 = 0 ∧ c.arg 40 8 = 131072 ∧ aqBase ≤ c.arg 32 8 ∧
    c.arg 32 8 + 131072 ≤ aqEnd ∧ s.regionClash 0 3 (c.arg 32 8) 131072 = false ∧ (s.region 0 3).state = .none ∧
    s.aqPlace (locatorLines 131072) = some 0 ∧ InHandVf 0x4A 0 3 (vfState (hostRegion loading) 0x4A [3]) (aCmd 0x4A [3]) ∧
    (loading.size / 65536 ≤ ({ loading with pages := [(0, (0, 0))] } : Region).pages.length) ∧
    InHandVf 0x4B 0 3 (vfState (hostRegion { loading with state := .sealed }) 0x4B [3]) (aCmd 0x4B [3]) ∧
    (vfState (hostRegion { loading with state := .sealed }) 0x4B [3]).regionInUse 0 = false := by
  unfold InHandVf InHand; decide +kernel
theorem witness_HostObjectRows_aqWrite :
    let s := vfState (hostRegion loading) 0x49 aqwArgs
    let c := aCmd 0x49 aqwArgs
    InHandVf 0x49 0 3 s c ∧ s.mapping 1 3 (c.arg 26 2) = some aMap ∧ c.arg 32 8 + 65536 ≤ aMap.len ∧ (s.region 0 3) = loading ∧
    c.arg 28 4 * 65536 < loading.size ∧ keyGet 0 loading.pages = none ∧ (s.putPage 0 3 0 []).isSome = true ∧ s.aqf.gen 0 loading.base < 2 ^ 32 - 1 := by
  unfold InHandVf InHand; decide +kernel
def rgRecord : List Byte :=
  leBytes 2 6 ++ [1, 0] ++ leBytes 4 1 ++ leBytes 2 7 ++ [0xFF, 0] ++ leBytes 2 5 ++ leBytes 2 6 ++ leBytes 8 0 ++ leBytes 4 1 ++ [1] ++ List.replicate 35 0 ++
    (leBytes 2 0 ++ leBytes 2 1 ++ leBytes 4 0 ++ leBytes 4 16 ++ [0, 0, 0, 0]) ++ (leBytes 4 0 ++ leBytes 4 16 ++ leBytes 8 0x10000)
def rgBase : State := { base with parts := [(0, { base.part 0 with rgres := 4 })], resv := sputs 0 [] 0x1000 rgRecord }
def rgArgs : List Byte := leBytes 8 0x1000 ++ leBytes 4 96
theorem witness_HostObjectRows_group :
    let s := vfState rgBase 0x50 rgArgs
    let c := aCmd 0x50 rgArgs
    let r := rgRecord
    InHandVf 0x50 0 3 s c ∧ s.cmdBytes 0 0x1000 96 = some r ∧ field r 24 4 = 1 ∧ field r 28 1 = 1 ∧ (∀ b ∈ slice r 29 35, b = 0) ∧ field r 2 1 < 16 ∧
    field r 3 1 ≤ 1 ∧ (∀ b ∈ chunks 16 1 (slice r 64 16), field b 13 3 = 0) ∧ field r 0 2 ≤ 9361 ∧ field r 4 4 = 1 ∧
    mapOk 16 (parseSrcs 1 (slice r 64 16)) = true ∧
    (∀ m ∈ parseSrcs 1 (slice r 64 16), s.coreOf m.part m.core = true ∧ s.inTenancy 7 m.part = true) ∧ field r 10 1 = 0xFF ∧ field r 8 2 = (s.part 0).cid ∧
    s.inTenancy 7 (field r 11 1) = true ∧ s.compactGroupBad 0xFF 0 0 (parseSegs 1 (r.drop 80)) = false ∧ s.findRg 6 = none ∧ s.rgRoom 0 = true ∧
    (List.range 64).find? (fun e => (s.rg e).state = .none) = some 0 ∧ (s.readDva (.host 1 3) 0 ((s.partSecs 0).headD 0) [(0x1000, 96)]).2 = .done 0 ∧
    InHandVf 0x51 0 3 (vfState (groupState aGroup) 0x51 [6, 0]) (aCmd 0x51 [6, 0]) := by
  unfold InHandVf InHand; decide +kernel

/-! ### Partitions, cocoons, the ledger -/

/-- A module in Production with a command of PF0 on queue 0. -/
def pfState (s : State) (opc : Nat) (args : List Byte) : State :=
  let t := onQueue s 0 0 (some (aCmd opc args))
  { t with chr := { t.chr with lcs := .production } }
def createPart : List Byte := [1, 0, 2, 0, 0, 4, 8, 0, 9, 0, 0xFF]
def twoSecs (x : Part) : State :=
  { base with secs := [(0, base.sec 0), (1, { ({} : Sec) with good := 0xFFFF })]
              sluices := [(0, okSluice), (1, okSluice), (2, { okSluice with assigned := false }), (3, { okSluice with assigned := false })]
              parts := [(0, x)] }
theorem witness_PartitionRows_create :
    let s := pfState (twoSecs (base.part 0)) 0x70 createPart
    let c := aCmd 0x70 createPart
    let r : PartReq := { mask := c.arg 26 2, pooled := bit (c.arg 28 1) 0, d12 := bit (c.arg 28 1) 1, census := bit (c.arg 28 1) 2,
                         rg := c.arg 29 1, cc := c.arg 30 2, cid := c.arg 32 2, member := none }
    InHandPf 0x70 1 0 s c ∧ s.chr.lcs = .production ∧ s.chr.drainsForDebug = false ∧ s.chr.drainsForEnd = false ∧ s.mon.compute = true ∧
    s.pwr.sleep = .running ∧ c.arg 34 1 = 0xFF ∧ s.createCheck 1 r = none ∧ (s.memberSecs r).toOption.isSome = true ∧
    s.createCheck 0 r = some Status.state := by
  unfold InHandPf InHand; decide +kernel
theorem witness_PartitionRows :
    let x := base.part 0
    InHandPf 0x71 0 0 (pfState base 0x71 [0]) (aCmd 0x71 [0]) ∧ x.state = .active ∧ x.cocBusy = false ∧ base.inGroup 0 = false ∧
    InHandPf 0x72 0 0 (pfState base 0x72 [0]) (aCmd 0x72 [0]) ∧
    InHandPf 0x73 0 0 (pfState (twoSecs { x with state := .preempted }) 0x73 [0]) (aCmd 0x73 [0]) ∧
    InHandPf 0x74 0 0 (pfState base 0x74 [0, 3, 2]) (aCmd 0x74 [0, 3, 2]) ∧ bit ((aCmd 0x74 [0, 3, 2]).arg 26 1) 1 = true ∧
    InHandPf 0x75 9 0 (pfState base 0x75 [9]) (aCmd 0x75 [9]) ∧ (base.part 9).state = .free ∧ base.queuesIdle 1 = true ∧
    (cmdState 1 3 0x10 []).queuesIdle 1 = false := by
  unfold InHandPf InHand; decide +kernel
def drained : State := twoSecs { base.part 0 with state := .draining, epochDone := true }
theorem witness_PartitionRows_drain :
    (drained.part 0).state = .draining ∧ (drained.part 0).epochDone = true ∧ (drained.part 0).scrubbed = 0 ∧ drained.ctxsFree 1 = true ∧
    (∀ e ∈ drained.partCores 0, e.2.halt = true) ∧ (drained.partSecs 0) = [0] ∧ (drained.slu 0).tags = [] ∧ (drained.slu 1).rekeys = [] ∧
    (onQueue drained 1 0 none).ctxsFree 1 = false ∧
    ((twoSecs { base.part 0 with state := .draining, scrubbed := 5, drainCmd := some 0 }).part 0).drainCmd = some 0 := by decide
/-- A module on whose ledgers the audits find nothing, with a partition of one section. -/
theorem witness_PartitionRows_audit :
    (∀ p < 10, base.runnelsOk p = true) ∧ (∀ n < 10, (base.sec n).allocOk = true ∧ (base.sec n).catchOk = true ∧ base.sluicesOk n = true) ∧
    base.aqf.tagsOk = true ∧ base.poolsOk = true ∧ base.redStoreOk = true ∧ base.synOk = true ∧ (base.partSecs 0) = [0] := by decide +kernel
def fullState : State :=
  let s := withObj { busy with mxProms := 3, regs := [(4, 5)] } { aSem with waiters := [⟨.siphon 0 2, 0, 0, 1, false⟩] }
  { s.setSec 0 { s.sec 0 with scheds := [(2, { state := .waiting })] } with canal := [.credit 0 8 1 1 1, .credit 3 8 1 1 1] }
theorem witness_FreezeAndThawRestore :
    fullState.frozen 0 = false ∧ swf {} fullState.cores = true ∧ swf {} fullState.secs = true ∧ swf {} fullState.parts = true ∧
    swf {} fullState.syn.parts = true ∧ swf (0, noPacket) fullState.hwk.rings = true ∧
    (∀ e ∈ fullState.syn.objs, ∀ o, e.2 = some o → o.owner = 0 → o.life = .live) ∧
    (∀ e ∈ fullState.syn.objs, ∀ o, e.2 = some o → ∀ w ∈ o.waiters, w.parked = false) := by
  refine ⟨by decide, by decide +kernel, by decide, by decide, by decide, by decide, ?_, ?_⟩ <;> simp [fullState, withObj, aSem, State.setSec]
def prepArgs : List Byte := [0, 0xFF, 0, 0] ++ leBytes 4 1 ++ leBytes 8 0x1000 ++ leBytes 8 0x10000
/-- A window of which a range at 0x2000 is to be saved; its object table at 0x10000 names the block at 0, of 224 MiB. -/
def cocBase : State :=
  { base with secs := [(0, { ({} : Sec) with good := 0xFFFF, catchC := 4, live := [⟨0, 4000, .priv, some 0⟩] })]
              resv := [(0x1001, 0x20), (0x1009, 0x10)] }
def aReqC : CocReq := { full := false, wrap := 0xFF, handle := 0, ranges := [(0x2000, 0x1000)], place := 0x10000, tbytes := 0x1000, fn := 1, q := 3, objs := [0] }
def prepared : Part := { cocBase.part 0 with coc := .prepared, cocReq := some aReqC, ticket := 1, ticketAt := 5 }
def cocWith (x : Part) : State := { cocBase with parts := [(0, x)] }
theorem witness_CocoonRows :
    let s := vfState cocBase 0x60 prepArgs
    let c := aCmd 0x60 prepArgs
    InHandVf 0x60 0 3 s c ∧ c.arg 28 4 = 1 ∧ (s.cmdBytes 0 0x1000 16).map (parseRanges 1) = some [(0x2000, 0x1000)] ∧
    s.cocCheck 0 (s.mapping 1 3 0) aReqC = none ∧ (s.part 0).cocBusy = false ∧ (s.readDva (.host 1 3) 0 0 [(0x1000, 16)]).2 = .done 0 ∧
    InHandVf 0x61 0 3 (vfState (cocWith prepared) 0x61 [1, 0]) (aCmd 0x61 [1, 0]) ∧ (aCmd 0x61 [1, 0]).arg 24 2 = prepared.ticket ∧
    (cocWith prepared).tim.up < prepared.ticketAt + 1000000000 ∧ (aCmd 0x61 [2, 0]).arg 24 2 ≠ prepared.ticket := by
  unfold InHandVf InHand; decide +kernel
def stoppedCoc : State := let s := cocWith { prepared with coc := .stopped }; s.freeze 0
def restoreArgs (nsh : Nat) : List Byte := [1, BitVec.ofNat 8 nsh, 0, 0, 0, 0, 0, 0] ++ leBytes 8 0x4000 ++ leBytes 8 0x1000
/-- A mapping that a full image of one section fits into. -/
def wideMap : Mapping := { addr := 0x9000, len := 2 ^ 30, rd := true, wr := true, ctx := some 0 }
def withMap (s : State) : State := s.setFn 1 { s.fn 1 with maps := [(0, some wideMap)] }
/-- A partition that may be restored: no live object of its own. -/
def restorable : State := { (cocWith (cocBase.part 0)) with secs := [(0, { ({} : Sec) with good := 0xFFFF, catchC := 4, live := [⟨0, 4000, .output, none⟩] })] }
def restoreState (nsh : Nat) : State := withMap (vfState restorable 0x62 (restoreArgs nsh))
def anImage : Saved := restorable.image 0
def aHeader : List Byte :=
  leBytes 4 0x434F4357 ++ leBytes 2 1 ++ [1, 0, 1, 0] ++ leBytes 2 7 ++ [0xFF, 0] ++ leBytes 2 4 ++ List.replicate 32 0 ++ digestBytes 0 ++ digestBytes (sha384 [])
def unsigned : CocRead := { header := aHeader, ranges := [], sched := anImage, tensor := [], mac := [] }
def aRead : CocRead := { unsigned with mac := imageMac 0 (imageBytes 0 unsigned 1) }
theorem witness_CocoonRows_stages :
    (stoppedCoc.part 0).cocReq = some aReqC ∧ (stoppedCoc.part 0).saved.isSome = true ∧ (stoppedCoc.part 0).coc = .stopped ∧ aReqC.full = false ∧
    ((vfState (cocWith { prepared with coc := .emptying }) 0x61 []).mapping 1 3 aReqC.handle) = some aMap ∧
    ({ prepared with images := [(0, cocBase.image 0)] } : Part).images.getLast? = some (0, cocBase.image 0) ∧
    ((cocWith prepared).part 0).coc = .prepared ∧ ((cocWith { prepared with coc := .restoring }).part 0).coc = .restoring := by decide +kernel
/-- A stopped schedule cocoon whose partition has lost its section: its image takes no object. -/
def stoppedBare : State := (cocWith { prepared with coc := .stopped, sections := 0, cocReq := some { aReqC with objs := [] } }).freeze 0
theorem witness_CocoonRows_stop :
    ∃ img, (stoppedBare.part 0).saved = some img ∧ (stoppedBare.part 0).coc = .stopped ∧ stoppedBare.join.held.contains 0 = false ∧
      putRuns (schedRuns 0 [] (stoppedBare.cocHeader 0 { aReqC with objs := [] } 0) img) stoppedBare = some (stoppedBare, 0) :=
  ⟨_, rfl, by decide +kernel, rfl, rfl⟩
/-- A stopped full cocoon: its mapping is there, and its one range can be read. -/
def stoppedFull : State :=
  (withMap (vfState (cocWith { prepared with coc := .stopped, cocReq := some { aReqC with full := true, objs := [] } }) 0x61 [])).freeze 0
theorem witness_CocoonRows_stop_full :
    stoppedFull.mapping 1 3 0 = some wideMap ∧ (stoppedFull.part 0).coc = .stopped ∧ stoppedFull.join.held.contains 0 = false ∧
    (stoppedFull.readDva (.host 1 3) 0 ((stoppedFull.partSecs 0).headD 0) [(0x2000, 0x1000)]).2 = .done 0 := by decide +kernel
/-- A full restore with one share record, and one of the model's with none, whose CK is 0, that passes every check. -/
theorem witness_CocoonRows_restore :
    InHand 0x62 1 3 (restoreState 1) (aCmd 0x62 (restoreArgs 1)) ∧ ((restoreState 1).part 0).state ≠ .stopped ∧ (restoreState 1).stopped 0 = false ∧
    ((restoreState 1).part 0).cocBusy = false ∧ ((restoreState 1).cmdBytes 0 0x1000 144).isSome = true ∧
    (restoreState 1).mapping 1 3 0 = some wideMap ∧ 0x4000 + imageLen true 1 0 ≤ wideMap.len ∧
    ((restoreState 1).readDva (.host 1 3) 0 0 [(0x1000, 144)]).2 = .done 0 := by
  unfold InHand; decide +kernel
theorem witness_CocoonRows_restore_passes : (restoreState 0).restoreCheck 0 1 3 true aRead [] [] = none := by
  have hk : (restoreState 0).restoreCk 0 [] = 0 := rfl
  have hl : ((restoreState 0).partSecs 0).length = 1 := by decide +kernel
  have hm : (aRead.mac == imageMac 0 (imageBytes 0 aRead 1)) = true := by
    rw [show aRead.mac = imageMac 0 (imageBytes 0 unsigned 1) from rfl, show imageBytes 0 aRead 1 = imageBytes 0 unsigned 1 from rfl]
    exact beq_self_eq_true _
  simp only [State.restoreCheck, hk, hl, hm]
  decide +kernel
/-- The three commands while a cocoon goes on, and while the partition's units are stopped otherwise. -/
theorem witness_CocoonRows_busy :
    let b := vfState (cocWith { prepared with coc := .stopped, saved := some (base.image 0) }) 0x60 prepArgs
    let h := vfState (cocWith { cocBase.part 0 with saved := some (base.image 0) }) 0x60 prepArgs
    InHand 0x60 1 3 b (aCmd 0x60 prepArgs) ∧ (b.part 0).state ≠ .stopped ∧ b.stopped 0 = true ∧ (b.part 0).cocBusy = true ∧
    InHand 0x60 1 3 h (aCmd 0x60 prepArgs) ∧ h.stopped 0 = true ∧ (h.part 0).cocBusy = false := by
  unfold InHand; decide +kernel
def markArgs : List Byte := leBytes 2 6 ++ [0, 0] ++ leBytes 4 4 ++ leBytes 8 0x1000 ++ leBytes 4 9
def markBase : State := { (groupState { aGroup with results := [⟨9, 3, 3, 0⟩] }) with hwk := hwkState.hwk }
def readArgs : List Byte := [0, 0, 0, 0, 0, 0, 0, 0] ++ leBytes 8 0x20 ++ leBytes 4 8 ++ leBytes 4 5
def anEntry (k : Nat) : LedgerEntry := { step := k, status := 0, d12 := false, sign1 := false, gid := 6, cnt := 3, expected := 3, ldig := 0 }
theorem witness_LedgerAndTwinRows :
    let s := vfState markBase 0x63 markArgs
    let c := aCmd 0x63 markArgs
    InHandVf 0x63 0 3 s c ∧ (s.cmdBytes 0 0x1000 4).isSome = true ∧ s.stepResult 7 6 9 = some (false, ⟨9, 3, 3, 0⟩) ∧ s.join.phase ≠ .replaying ∧
    (s.readDva (.host 1 3) 0 0 [(0x1000, 4)]).2 = .done 0 ∧ (s.part 0).ledger.getLast? = none ∧
    InHandVf 0x64 0 3 (vfState (cocWith { base.part 0 with ledger := [anEntry 7, anEntry 8] }) 0x64 readArgs) (aCmd 0x64 readArgs) ∧
    (vfState base 0x64 readArgs).mapping 1 3 0 = some aMap ∧ (aCmd 0x64 readArgs).arg 32 8 + 64 * 5 ≤ aMap.len ∧ (anEntry 7).step ≤ 8 ∧
    InHandVf 0x65 0 3 (vfState base 0x65 [1]) (aCmd 0x65 [1]) := by
  unfold InHandVf InHand; decide +kernel
def spareState (ph : JoinPhase) : State := { base with join := { base.join with phase := ph }, tim := { base.tim with up := 2 ^ 40 } }
theorem witness_LedgerAndTwinRows_spare :
    (spareState .preparing).join.phase = .preparing ∧ ([] : List (Nat × Nat)).foldl sparePart (.ok (spareState .preparing)) = .ok (spareState .preparing) ∧
    (spareState .preparing).join.created = false ∧ (spareState .preparing).join.ready = false ∧ (spareState .preparing).regionsReady [] = true ∧
    (spareState .preparing).join.prepAt + 60000000000 ≤ (spareState .preparing).tim.up ∧ (spareState .receiving).join.held = [] ∧
    (spareState .receiving).join.groups = [] ∧ putRuns [] (spareState .receiving) = some (spareState .receiving, 0) ∧
    base.join.phase = .notSpare ∧ base.hwk.inbox = [] := ⟨rfl, rfl, rfl, rfl, rfl, by decide, rfl, rfl, rfl, rfl, rfl⟩

/-- An entry unlike the one expected, a twin's entry, a mirrored entry that a packet brings, and a transfer that leads to Replaying. -/
theorem witness_LedgerAndTwinRows_twin :
    let e := anEntry 9
    let x : Part := { base.part 0 with mirror := [e], expectL := [{ e with ldig := 1 }] }
    let p : Packet := { noPacket with typ := 6, payload := leBytes 32 0 ++ LedgerEntry.bytes e }
    x.mirror.find? (fun y => y.step = 9) = some e ∧ x.unlike e = true ∧ ({ x with expectL := [] } : Part).unlike e = false ∧ p.typ = 6 ∧
    ({ base with hwk := { base.hwk with inbox := [] ++ p :: [] } } : State).hwk.inbox = [] ++ p :: [] ∧
    (spareState .receiving).join.held.foldl State.holdEnd (spareState .receiving) = spareState .receiving ∧
    putRuns ({} : Transfer).lines (spareState .receiving) = some (spareState .receiving, 0) ∧
    ({} : Transfer).keys.any (fun e => (kwUnwrap ((spareState .receiving).twinKek false) e.2.2.2).isNone) = false := by
  exact ⟨by decide, by decide, by decide, rfl, rfl, rfl, rfl, rfl⟩

/-! ### Interfaces, the mailbox -/

def tdiState (x : Fn) (lock : Bool) : State :=
  { base.setFn 1 x with syn := { ({} : Syn) with parts := [(0, { ({} : SynPart) with lock })] }, chr := { base.chr with lcs := .production, vault := akVault } }
theorem witness_InterfaceAndResetRows :
    let u := tdiState { ({} : Fn) with tdi := .unlocked } true
    (u.fn 1).tdi = .unlocked ∧ (u.part (1 - 1)).state ≠ .free ∧ (u.synPart (1 - 1)).lock = true ∧ ¬ (base.synPart 0).lock = true ∧
    ((tdiState { ({} : Fn) with tdi := .locked } true).fn 1).tdi = .locked ∧ ((tdiState { ({} : Fn) with tdi := .run } true).fn 1).tdi = .run ∧
    ((tdiState { ({} : Fn) with tdi := .error } true).fn 1).tdi = .error ∧ (u.part 0).state = .active ∧ (u.vslot (tenantSlot (1 - 1) 18)).valid = false ∧
    u.chr.drainsForDebug = false ∧ u.attestStatus = 0 ∧ ((u.setVslot (tenantSlot 0 18) { valid := true }).vslot (tenantSlot (1 - 1) 18)).valid = true ∧
    u.mon.phase = .ready ∧ ({ u with mon := { u.mon with phase := .safeListen } } : State).mon.phase = .safeListen := by decide
theorem witness_InterfaceAndResetRows_fail :
    ((((tdiState { ({} : Fn) with tdi := .run } true).dropIde 1).leaveRun 1 false).part (1 - 1)).state ≠ .free := by decide
theorem witness_RemaskKeepsEveryKey : swf {} base.chr.vault = true ∧ swf {} base.sluices = true ∧ swf {} base.links = true := by decide
/-- A module with a request in the mailbox of function f: opcode, tag 7, and the bytes after the header. -/
def mboxState (f opc : Nat) (body : List Byte) : State :=
  let head := leBytes 1 opc ++ [0] ++ leBytes 2 (8 + body.length) ++ leBytes 4 7
  { base.setFn f { ({} : Fn) with mbox := { busy := true, req := msgWords (head ++ body) } } with chr := { base.chr with lcs := .production, vault := akVault } }
def keyBody : List Byte := [3, 0x10, 1, 0, 0, 0, 0, 0] ++ List.replicate 136 1
def aRecord : List Byte :=
  leBytes 4 0x54504357 ++ leBytes 2 1 ++ leBytes 2 9 ++ [1, 0, 0, 0] ++ leBytes 4 1 ++ leBytes 8 5 ++ List.replicate 40 0 ++
    ([0, 1] ++ List.replicate 190 0) ++ List.replicate 96 0
def aPolicy : List Byte := leBytes 4 0x464E4D57 ++ leBytes 4 1 ++ List.replicate 296 0
def aToken : List Byte := List.replicate 5 0 ++ [2] ++ List.replicate 346 0
def tokenState0 (d : Digest) : State :=
  let s := mboxState 0 0x21 aToken
  { s with chr := { s.chr with challenges := [(2, some (d, 5))] } }
theorem witness_MailboxRows_turn : (mboxState 1 0x05 [18]).chr.mboxTurn = 0 ∧ (mboxState 0 0x20 [5]).chr.mboxTurn = 0 ∧
    ((mboxState 0 0x20 [5]).fn 0).mbox.busy = true ∧ (mboxState 0 0x20 [5]).chr.tokenFn ≠ some 0 := by decide +kernel
theorem witness_MailboxRows :
    (mboxState 1 0x01 []).attestStatus = 0 ∧ Asked 0x01 1 8 (mboxState 1 0x01 []) ∧ Asked 0x02 1 56 (mboxState 1 0x02 (List.replicate 48 0)) ∧
    Asked 0x03 1 152 (mboxState 1 0x03 keyBody) ∧ ((mboxState 1 0x03 keyBody).fn 1).mbox.body = keyBody ∧ field keyBody 0 1 < 19 ∧ field keyBody 2 1 ≤ 1 ∧
    field keyBody 3 5 = 0 ∧ ((mboxState 1 0x03 keyBody).part 0).state = .active ∧ ((mboxState 1 0x03 keyBody).vslot (tenantSlot 0 3)).valid = false ∧
    field keyBody 1 1 = Usage.wrap ∧ Asked 0x04 1 9 (mboxState 1 0x04 [18]) ∧ Asked 0x05 1 9 (mboxState 1 0x05 [18]) ∧
    (({ mbox := { busy := true } } : Fn).mbox.busy = true) ∧ mboxOpcs.contains ((mboxState 1 0x05 [18]).fn 1).mbox.opc = true := by
  unfold Asked; decide +kernel
theorem witness_MailboxRows_device :
    Asked 0x10 0 (72 + 288 * 1) (mboxState 0 0x10 aRecord) ∧ ((mboxState 0 0x10 aRecord).fn 0).mbox.body = aRecord ∧ recordOk aRecord = true ∧
    sget 0 (mboxState 0 0x10 aRecord).chr.seqSeen (field aRecord 6 2) < (parseCompact aRecord).seq ∧
    sget none (mboxState 0 0x10 aRecord).chr.compacts (field aRecord 6 2) = none ∧
    Asked 0x11 0 10 (mboxState 0 0x11 [9, 0]) ∧ (mboxState 0 0x11 [9, 0]).bound 9 = false ∧
    Asked 0x12 0 312 (mboxState 0 0x12 aPolicy) ∧ field aPolicy 0 4 = 0x464E4D57 ∧ field aPolicy 4 4 = 1 ∧ (mboxState 0 0x12 aPolicy).chr.policy.length < 7 ∧
    Asked 0x20 0 9 (mboxState 0 0x20 [5]) ∧ Asked 0x21 0 360 (tokenState0 0) ∧ field aToken 5 1 = 2 ∧
    sget none (tokenState0 0).chr.challenges 2 = some (0, 5) ∧ slice aToken 16 48 = digestBytes 0 ∧ slice aToken 16 48 ≠ digestBytes 1 ∧
    (tokenState0 0).tim.up ≤ 5 + 60000000000 := by
  unfold Asked; decide +kernel

/-! ### Power, supply, sleep -/

/-- Predicted power of each point, in mW. -/
def preds : List Nat := [1000, 1200, 1400, 1600, 1800, 2000, 2200, 2400, 2700, 2950, 3100, 3300].map (· * 1000)
def pwrState (x : Pwr) : State := { base with pwr := x }
theorem witness_PowerRows :
    base.powered = true ∧ State.reset.powered = false ∧ (base.pwr.point ≤ 11) ∧ 1000 * ({ base.pwr with limit := 1500 } : Pwr).limit < preds.getD ({ base.pwr with point := 8 } : Pwr).point 0 ∧ base.alive = true ∧
    sget 0 (pwrState { base.pwr with bedPoint := [(0, 3)] }).pwr.bedPoint 0 < (pwrState { base.pwr with bedPoint := [(0, 3)] }).bedTarget 0 + 1 ∧
    base.bedTarget 1 + 1 ≤ sget 0 (pwrState { base.pwr with bedPoint := [(1, 9)] }).pwr.bedPoint 1 ∧
    (pwrState { base.pwr with stretched := [(159, true)] }).pwr.stretched = [(159, true)] ∧ base.pwr.eN = 0 ∧
    ({ base.pwr with exitSince := [(16, some 0)], hot := [16] } : Pwr).cooled 3 base.tim.up = [16] ∧ sget none base.pwr.exitSince 0 = none ∧ sget 0 base.pwr.junction 47 < 118 ∧
    118 ≤ sget 0 (pwrState { base.pwr with junction := [(47, 118)] }).pwr.junction 47 ∧ base.mon.switch = true ∧ base.mon.tripped = false ∧
    base.pwr.boostOn = false ∧ ({ base.pwr with reasons := 64 } : Pwr).why 6 = true ∧ ({ base.pwr with reasons := 4 } : Pwr).why 2 = true := by decide
theorem witness_PowerRows_risen :
    base.pwr.risen.contains 0 = false ∧ ({ base.pwr with risen := [3] } : Pwr).risen.contains 3 = true := by decide
theorem witness_SupplyAndSleepRows :
    let off := State.reset.powerOff
    base.mon.switch = true ∧ base.mon.overvolt = false ∧ off.mon.switch = false ∧ 480 ≤ off.pwr.input ∧ off.pwr.input ≤ 580 ∧
    ({ off with mon := { off.mon with overvolt := true, en := true } } : State).mon.overvolt = true ∧ 449 < base.pwr.warn ∧ base.pwr.warn ≤ 450 ∧
    base.pwr.why 6 = false ∧ base.mon.tripped = false ∧ base.mon.phase = .ready ∧ base.pwr.warn ≤ base.pwr.input ∧ base.alive = true ∧ isOperator .pf0 = true ∧ base.reach .pf0 = true ∧ base.served2 = true ∧
    (1800 : Nat) ≤ (0x0708 : Word).toNat % 4096 ∧ (3400 : Nat) < (0x0D49 : Word).toNat % 4096 ∧ (0x1708 : Word).toNat.testBit 12 = true ∧
    300 < (pwrState { base.pwr with inlet := 301 }).pwr.inlet ∧ base.pwr.inlet ≤ 300 ∧ base.pwr.lock = false ∧
    440 ≤ (BitVec.ofNat 64 (440 + 512 * 420)).toNat % 512 ∧ (BitVec.ofNat 64 (440 + 512 * 420)).toNat / 512 % 512 = 420 ∧ base.pwr.sleep = .running ∧
    base.maySleep false = false ∧ ({ base with parts := [] } : State).maySleep false = true ∧
    ({ State.reset with mon := { State.reset.mon with hostUp := true, switch := true } } : State).served2 = false := by decide

/-- An order of the route master in Monarch's inbox, and none; an entry with and without a WAKE in it; a wake that is due. -/
theorem witness_SupplyAndSleepRows_orders :
    let p : Packet := { noPacket with typ := 6, arg := 4, src := 0 }
    let s : State := { base with hwk := { hwkState.hwk with inbox := [p], masterAt := some ⟨0, 0, 0, 0⟩ } }
    (s.hwk.inbox.find? (fun p => p.typ == 6 && p.arg == 4 && s.fromMaster p)) = some p ∧
    (base.hwk.inbox.find? (fun p => p.typ == 6 && p.arg == 4 && base.fromMaster p)) = none ∧ base.hwk.master = false ∧ masterState.hwk.master = true ∧
    (pwrState { base.pwr with sleep := .entering }).pwr.wakeAfter = false ∧
    (pwrState { base.pwr with sleep := .waking, wakeAt := 1000000 }).pwr.wakeAt ≤ base.tim.up ∧
    base.tim.up < (pwrState { base.pwr with sleep := .waking, wakeAt := 1000001 }).pwr.wakeAt := by decide

/-! ### Time and start-up -/

/-- A module in a phase of its start. -/
def starting (p : Phase) : State := { State.reset with mon := { State.reset.mon with phase := p } }
def okCopy (d : Nat) : FwCopy := ⟨true, 0, BitVec.ofNat _ d⟩
def badCopy : FwCopy := ⟨false, 0, 0⟩
def timed (x : Tim) : State := { base with tim := x }
theorem witness_TimeRows :
    base.pending = [] ∧ ((base.setLink 47 { state := .up }).link 47).state = .up ∧ base.tim.master = false ∧ isTwinPort 42 = true ∧
    base.hwk.masterAt = none ∧ (base.upstream 0 = true) ∧ (base.upstream 42 = false) ∧
    base.tim.taken = false ∧ (timed { taken := true }).tim.taken = true ∧ isOperator .pf0 = true ∧ base.reach .pf0 = true ∧
    (timed { master := true }).tim.master = true ∧ base.served2 = true ∧ base.allFree = false ∧
    ({ base with parts := [] } : State).allFree = true ∧ base.tim.setPending = none ∧
    (timed { setPending := some (1, true, 5), now := 4 }).tim.now < 5 ∧ (timed { ppsIn := true, master := true }).tim.ppsIn = true ∧
    base.tim.ptpEn = false ∧ (timed { ptpEn := true }).tim.ptpEn = true ∧ (timed { ptpEn := true }).tim.transports ≠ 0 ∧ (timed { ptpL2 := false }).tim.transports = 0 ∧ base.alive = true ∧ base.tim.ppsOut = true ∧
    base.mon.switch = true ∧ (timed { now := 1000000001 }).tim.now % 1000000000 ≤ 1 ∧ 999999999 ≤ (timed { now := 999999999 }).tim.now % 1000000000 ∧
    (⟨5, 0, 0⟩ : PtpReq).domain = base.tim.ptpDomain ∧ bit (timed { ptpEn := true }).tim.transports 0 = true ∧ bit (timed { ptpL2 := false }).tim.transports 0 = false ∧
    (timed { ppsHigh := true, now := 1100000000 }).tim.ppsW * 1000000 ≤ 1100000000 % 1000000000 ∧ (1048576 : Nat) / 2048 % 512 = 0 ∧
    (206593 : Nat) / 2048 % 512 = 100 := by decide
theorem witness_TimeRows_winner : ∃ c, base.winner [⟨⟨0, 0, 0, 0⟩, true, 0, false, true⟩] = some c ∧ c.self = true := ⟨_, rfl, rfl⟩
theorem witness_StartUpRows_secret : (starting .otp).chr.otp.secret.isSome = true := by
  simp [starting, State.reset, Otp.secret, Otp.production, bankSecret_rsBank]
theorem witness_StartUpRows :
    State.reset.alive = true ∧ State.reset.mon.phase = .rom ∧ strapsSound 0x4000 = true ∧
    (starting .otp).chr.otp.faulty = false ∧ (starting .otp).chr.otp.marked 1 = true ∧
    ({ (starting .otp).chr.otp with lcs := [0, BitVec.allOnes 64, 0] } : Otp).faulty = true ∧
    (starting .firmware).mon.imgA = [] ∧ (starting .firmware).mon.imgB = [] ∧
    copyPasses ((starting .firmware).chr.otp.svnmin.getD 1 0) (okCopy 1) = true ∧
    copyPasses ((starting .firmware).chr.otp.svnmin.getD 1 0) badCopy = false ∧
    ({ (starting .identity) with chr := { (starting .identity).chr with lcs := .production } } : State).chr.lcs = .production ∧ (starting .identity).chr.lcs = .blank ∧
    (starting .memTest).pwr.why Why.thermalHard = false ∧ ({ base.pwr with reasons := 16 } : Pwr).why 4 = true ∧
    (starting .logicTest).mon.fails = [] ∧ (starting .logicTest).mon.fenceList = [] ∧ (starting .keys).chr.trngFailed = false ∧
    ((starting .keys).vslot 4).valid = false ∧
    ({ starting .keys with chr := { (starting .keys).chr with vault := [(4, { ({} : VSlot) with valid := true })] } } : State).vslot 4 =
      { ({} : VSlot) with valid := true } ∧
    (starting .rails).starting = true ∧ (starting .memTest).mon.en = true ∧ State.reset.powerOff.mon.switch = false ∧
    State.reset.powerOff.mon.overvolt = false := by decide +kernel

/-- What lets a reset cause act: a switch that may close, a trip with every sensor cool, a Fatal and a Ready module; and a closed section and
an unclosed one at the sluices' keys; the sluice keys and the Aquifer's end before READY. -/
theorem witness_StartUpRows_more :
    let off := State.reset.powerOff
    let cool : State := { base with mon := { base.mon with tripped := true } }
    off.mon.en = true ∧ off.mon.switch = false ∧ off.mon.overvolt = false ∧ 480 ≤ off.pwr.input ∧ off.pwr.input ≤ 580 ∧ base.mon.tripped = false ∧
    cool.mon.tripped = true ∧ (∀ i, i < 48 → sget 0 cool.pwr.junction i < 90) ∧ base.alive = true ∧ base.mon.phase = .ready ∧
    (starting .keys).mon.aqfDone = false ∧ ({ starting .keys with mon := { (starting .keys).mon with aqfDone := true } } : State).mon.aqfDone = true ∧
    ((starting .keys).sec 0).fenced = false ∧ (((starting .keys).setSec 0 { ({} : Sec) with fenced := true }).sec 0).fenced = true ∧
    ({ starting .rails with mon := { (starting .rails).mon with rails := true } } : State).mon.rails = true := by
  decide +kernel
/-! ### Records, register paths, registers -/

/-- A record against partition 0. -/
def rec1 : Rec := Rec.mk' Status.lineEcc Sev.corrected Blk.slu 3
def withRec (r : Rec) (x : Ras) : State := { base with ras := { x with inbox := [r] } }
theorem witness_RecordAndMonarchRows :
    base.ras.inbox = [] ∧ (withRec rec1 {}).ras.inbox = [rec1] ∧ ({} : Ras).mergeSlot rec1 = none ∧
    ({ ({} : Ras) with slots := [(0, some { rec1 with seq := 0 })] } : Ras).mergeSlot rec1 = some (0, { rec1 with seq := 0 }) ∧
    rec1.sev ≠ Sev.partFatal ∧ rec1.sev ≠ Sev.devFatal ∧ swf {} base.fns = true ∧ (base.part 0).state = .active ∧ base.mon.phase = .ready ∧
    State.reset.starting = true ∧ base.ras.flashQ = [] ∧ base.bedGood 0 15 = true ∧ base.bedGood 9 0 = false ∧ monWrites .smbus = true ∧
    base.reach .smbus = true ∧ base.starting = false ∧ base.mon.tripped = false ∧ State.reset.mon.phase ≠ .fatal ∧
    sget 0 (pwrState { base.pwr with junction := [(47, 90)] }).pwr.junction 47 = 90 ∧ base.mon.fwBusy = false ∧
    base.mon.staging.length + 512 ≤ 3145728 ∧ (okCopy 1).sigOk = true ∧ base.chr.otp.svnmin.getD 2 0 ≤ (okCopy 1).svn ∧
    base.mon.fwPending = none ∧ (∀ i, i < 48 → sget 0 base.pwr.junction i < 90) ∧
    ((sget [] (base.sec 0).errTimes 15 ++ [base.tim.up]).filter (fun t => decide (base.tim.up < t + 86400000000000))).length < 3 ∧
    3 ≤ (([1, 2] ++ [base.tim.up]).filter (fun t => decide (base.tim.up < t + 86400000000000))).length := by decide
theorem witness_RegisterAccessRows :
    base.alive = true ∧ base.mon.smOff ≠ 0x3C00000 ∧ ({ base with mon := { base.mon with smOff := 0x3C00000 } } : State).mon.smOff = 0x3C00000 ∧
    base.writeAt .smbus 0x400000 0 = none ∧ base.writeAt .eth 0x300000 0 = none ∧
    (base.writeAt .eth 0x300010 0).isSome = true ∧ base.reach (.vf 1) = true ∧ base.mayWrite .eth .timCfg = true ∧
    base.mayWrite .pf0 .timNow = true ∧ base.mayWrite (.vf 10) (.chrReq 1023) = true ∧ base.mayWrite .pf0 .idnAqsqb = true ∧
    base.mayWrite .smbus .monCmd = true ∧ base.mayWrite .pf0 .pwrCap = true ∧ base.mayWrite .pf0 (.lnkCtrl 47) = true ∧
    State.reset.reach .pf0 = false ∧ winAt 0x500000 = none ∧ winAt 0x4000000 = none := by decide
theorem witness_RegisterAccessRows_fields :
    base.reach .pf0 = true ∧ base.reach (.vf 10) = true ∧ base.mon.phase ≠ .safeListen ∧ (base.fn 10).aqEn = false ∧
    (base.queue 10 0).state = .absent ∧ (0x4044 : Word).toNat.testBit 14 = true ∧ (0x4044 : Word).toNat % 16 = 4 ∧
    (0x4044 : Word).toNat / 16 % 16 = 4 ∧ (0x4043 : Word).toNat % 16 < 4 ∧ (base.synPart 0).lock = false ∧ swf {} base.syn.parts = true ∧
    ({ base with syn := { base.syn with parts := [(9, { ({} : SynPart) with lock := true })] } } : State).synPart 9 =
      { ({} : SynPart) with lock := true } ∧ 16384 < (16385 : Word).toNat % 32768 ∧ (∀ i, i < 10 → (State.reset.synPart i).qFence = 0) ∧
    64 < (65 : Word).toNat % 128 ∧ (0x20000 : Word).toNat.testBit 17 = true ∧ base.sees (.vf 1) (.sec 0) (.secCenstag 0 255) = true ∧
    base.sees .pf0 (.sec 0) (.secCenstag 0 255) = false := by decide
theorem witness_RegisterAccessRows_fields_destroy :
    let x : Fn := { ({} : Fn) with aqEn := true, queues := [(0, { ({} : Queue) with state := .running, sqLog := 4, cqLog := 4, tail := 2 })] }
    let s := base.setFn 1 x
    (s.fn 1).aqEn = true ∧ (s.queue 1 0).state ≠ .absent ∧ (s.queue 1 0).busy = false ∧ (0x44 : Word).toNat.testBit 14 = false ∧
    ((s.cancelAll 1 0).1.queue 1 0).held = [] := by decide +kernel
theorem witness_CounterReadRows :
    base.sees .pf0 (.sec 9) (.secMxcnt 2559) = true ∧ base.sees (.vf 1) (.sec 0) (.secCensus 0 255 61) = true ∧
    base.sees .pf0 (.slu 19) (.sluEye 19 31) = true ∧ base.sees .pf0 (.sip 9) (.sipStall 9) = true ∧ base.sees .pf0 .aqf (.aqfCatch 9) = true ∧
    base.sees .pf0 (.lnk 47) (.hwkDrop 47) = true ∧ base.sees .pf0 .rg (.hwkRgtok 63) = true ∧ base.sees (.vf 1) .syn (.synStagst 0) = true ∧
    base.secOf 0 0 = some 0 ∧ base.sees (.vf 1) .idn (.idnPerf 0) = true ∧ base.sees .eth .pwr (.pwrThr 1) = true ∧
    State.reset.sees .pf0 (.sec 0) (.secMxcnt 0) = false := by decide

/-! ### The whole machine -/

theorem witness_PezalRoundTrip : (PInstr.br .beq 1 2 8).wf = true ∧ decodePezal 0x044A000000000240 ≠ none := by decide
theorem witness_CommandsLeaveTheQueue : exec .ppsInLoss base = .next base := rfl
theorem witness_WellFormedCommandsComplete : (Instr.lnkEnable 47).wf = true ∧ (Instr.lnkEnable 48).wf = false := by decide
theorem witness_StoresStayCanonical : Canonical base ∧ step base = .next base.tick := ⟨by unfold Canonical; decide, rfl⟩
theorem witness_RegisterZero : (7 : Reg) ≠ 0 ∧ swf 0 busy.regs = true := by decide
theorem witness_UndefinedOffsetsReadAsZero : winAt 0x100020 = some (.mon, 0x20) ∧ regIn .mon 0x20 = none ∧ winAt 0x500000 = none := by decide

/-! ### Words written out from the layouts of 03 -/

/-- 03 R75, R81: SUB s3, s1, s2: class 0, OP 0x02, SD 3, SA 1, SB 2. -/
theorem test_decode_sub : decodePezal 0x0086110000000000 = some (.alu .sub 3 1 2) := by decide
/-- 03's worked CT.ADDI s5, s0, 0x240. -/
theorem test_decode_addi : decodePezal 0x044A000000000240 = some (.imm .addi 5 0 0x240) := by decide
/-- BLT s1, s2, -8: OP 0x22. -/
theorem test_decode_blt : decodePezal (BitVec.ofNat 64 (0x22 * 2 ^ 54 + 1 * 2 ^ 49 + 2 * 2 ^ 44 + 0xFFFFFFF8)) = some (.br .blt 1 2 0xFFFFFFF8) := by decide
/-- CT.ROPEN of q4 as consumer on the intake station (03 R80): Q 4, ROLE 1, STN 1, SA 5, SB 6, TD 3, DEPTH 8. -/
theorem test_decode_ropen : decodePezal (BitVec.ofNat 64 (0x38 * 2 ^ 54 + 4 * 2 ^ 49 + 1 * 2 ^ 48 + 1 * 2 ^ 45 + 5 * 2 ^ 40 + 6 * 2 ^ 35 +
    3 * 2 ^ 31 + 8 * 2 ^ 26)) = some (.ropen ⟨4, true, 1, 5, 6, 3, 8, false⟩) := by decide
/-- IN.LDT t2 into L.B (03 R77, R87): class 1, OP 0x01, TD 2 at [38:35], DST 0b01 at [34:33]. -/
theorem test_decode_ldt : decodePezal (BitVec.ofNat 64 (1 * 2 ^ 60 + 0x01 * 2 ^ 54 + 2 * 2 ^ 35 + 1 * 2 ^ 33)) = some (.inn (.ldt 2 .lB) noTok) := by
  decide
/-- 03's worked MX.MMA. -/
theorem test_decode_mma : decodePezal 0x2065749C00000000 = some (.mx (.mma 3 true false) ⟨some 2, some (7, 9)⟩) := by decide
/-- AM.ZERO of slot 5 (03 R89): class 3, OP 0x03. -/
theorem test_decode_zero : decodePezal (BitVec.ofNat 64 (3 * 2 ^ 60 + 0x03 * 2 ^ 54 + 5 * 2 ^ 35)) = some (.am (.zero 5) noTok) := by decide
/-- 03's worked SY.FSIG on the outflow station. -/
theorem test_decode_fsig : decodePezal 0x6041365008600000 = some (.sy .fsig ⟨none, some (3, 12)⟩ .outflow false 0 4 6) := by decide
/-- A class that is reserved, an operation that is, a reserved bit, and the word of zeros (03 R73). -/
theorem test_decode_illegal :
    decodePezal 0x9000000000000000 = none ∧ decodePezal 0x07C0000000000000 = none ∧ decodePezal 0x044A000100000240 = none ∧ decodePezal 0 = none := by
  decide
/-- 05's example of Philox: SEED, STREAM and POS of 0. -/
theorem test_philox : philox 0 0 0 = ⟨0x6627E8D5, 0xE169C58D, 0xBC57AC4C, 0x9B00DBD8⟩ := by decide

/-! ### Ill-formed terms -/

/-- Each check of Instr.wf refuses a unit that the device does not have (00 R6). -/
theorem test_illformed_units :
    (Instr.coreHalt 2560).wf = false ∧ (Instr.freedBlockScrub 10).wf = false ∧ (Instr.writeBufferDrain 20).wf = false ∧
    (Instr.lnkEnable 48).wf = false ∧ (Instr.chrGo 11).wf = false ∧ (Instr.deadlock 10).wf = false ∧ (Instr.nopCmd 0 64).wf = false ∧
    (Instr.lockInterface 0).wf = false ∧ (Instr.pwrSleepDropsRead (.vf 11)).wf = false ∧ (Instr.droop 160).wf = false := by decide
/-- Each check of PInstr.wf refuses a field that the instruction does not use (03 R73). -/
theorem test_illformed_fields :
    (PInstr.imm .slli 1 2 64).wf = false ∧ (PInstr.ropen ⟨4, false, 1, 5, 6, 3, 8, false⟩).wf = false ∧
    (PInstr.sy .fsig noTok .outflow true 0 4 6).wf = false ∧ (PInstr.sy .fsig noTok .scalar false 1 4 6).wf = false ∧
    (PInstr.sy .weir noTok .scalar true 0 4 6).wf = false ∧ (PInstr.free false 1 2).wf = false ∧
    (PInstr.vc (.ew .add (.pond 0) (.pond 1) (.pond 2) 5) noTok).wf = false := by decide
/-- A command on a unit that the device does not have stops the model by name. -/
theorem test_no_such_unit : exec (.lnkEnable 48) base = .fault (.noSuchUnit "link port") := rfl

end
end

section
/-! SUPPORT. What stops the model (00 R6): every command is one on a unit of the device, or one on the device as a whole, and only a unit
that is missing stops it. -/

namespace Sys2Proof.Machine

/-- An outcome is a next state, or, where `ok` does not hold, the stop at a unit that the device does not have. -/
def CompletesIf (ok : Bool) (o : Out) : Prop :=
  (∃ t, o = .next t) ∨ (ok = false ∧ ∃ what, o = .fault (.noSuchUnit what))

theorem CompletesIf.next {ok : Bool} {o : Out} (h : CompletesIf ok o) (hok : ok = true) : ∃ t, o = .next t := by
  obtain hnext | ⟨hbad, -⟩ := h
  · exact hnext
  · rw [hok] at hbad
    cases hbad
theorem CompletesIf.next_or_stop {ok : Bool} {o : Out} (h : CompletesIf ok o) :
    (∃ t, o = .next t) ∨ ∃ what, o = .fault (.noSuchUnit what) :=
  h.imp_right And.right
/-- A command with more operands to be checked is well-formed in fewer cases, and completes in those. -/
theorem CompletesIf.and_left {a : Bool} {o : Out} (h : CompletesIf a o) (b : Bool) : CompletesIf (a && b) o :=
  h.imp_right (fun ⟨ha, hstop⟩ => ⟨by rw [ha, Bool.false_and], hstop⟩)
theorem CompletesIf.and_right {b : Bool} {o : Out} (h : CompletesIf b o) (a : Bool) : CompletesIf (a && b) o :=
  h.imp_right (fun ⟨hb, hstop⟩ => ⟨by rw [hb, Bool.and_false], hstop⟩)

theorem completesIf_next (ok : Bool) (t : State) : CompletesIf ok (.next t) := .inl ⟨t, rfl⟩
/-- A command on unit n of `count` completes where its check says that the unit exists. -/
theorem completesIf_onUnit {ok : Bool} {what : String} {count n : Nat} (t : State) (h : ok = true → n < count) :
    CompletesIf ok (onUnit what count n t) := by
  by_cases hn : n < count
  · exact .inl ⟨t, onUnit_of_lt what count n t hn⟩
  · refine .inr ⟨Bool.eq_false_iff.2 (fun hok => hn (h hok)), what, ?_⟩
    simp [onUnit, hn]
theorem completesIf_onCore (c : Nat) (t : State) : CompletesIf (coreOk c) (onCore c t) := completesIf_onUnit t of_decide_eq_true
theorem completesIf_onSec (n : Nat) (t : State) : CompletesIf (secOk n) (onSec n t) := completesIf_onUnit t of_decide_eq_true
theorem completesIf_onSlu (n : Nat) (t : State) : CompletesIf (sluOk n) (onSlu n t) := completesIf_onUnit t of_decide_eq_true
theorem completesIf_onLink (n : Nat) (t : State) : CompletesIf (portOk n) (onLink n t) := completesIf_onUnit t of_decide_eq_true
theorem completesIf_onPart (p : Nat) (t : State) : CompletesIf (partOk p) (onPart p t) := completesIf_onUnit t of_decide_eq_true
theorem completesIf_onFn (f : Nat) (t : State) : CompletesIf (fnOk f) (onFn f t) := completesIf_onUnit t of_decide_eq_true
/-- A virtual function is a function of the device. -/
theorem completesIf_onFn_vf (f : Nat) (t : State) : CompletesIf (vfOk f) (onFn f t) :=
  completesIf_onUnit t (fun h => (of_decide_eq_true h).2)
/-- A SY row runs on the scalar unit or at the head of a station, of one core in both. -/
theorem completesIf_syAt (op : SyOp) (c : Nat) (a : SyAt) (s : State) : CompletesIf (coreOk c) (syAt op c a s) := by
  cases a with
  | scalar nf sd sa sb => exact completesIf_onCore c _
  | queued u => exact completesIf_onCore c _

/-- Every command completes where it is well-formed, and otherwise completes or stops at the unit that is missing: a row of a core, a
section, a sluice, a port, a partition, a function, a bed or a sensor by the wrapper of its unit, any other row at once. -/
theorem exec_completesIf (c : Instr) (s : State) : CompletesIf c.wf (exec c s) := by
  cases c with
  | instructionDispatch | ctAdd | ctSub | ctAnd | ctOr | ctXor | ctSll | ctSrl | ctSra | ctSlt | ctSltu | ctMin | ctMax | ctMul
  | ctMulhu | ctDivu | ctRemu | ctAddi | ctAndi | ctOri | ctXori | ctSlli | ctSrli | ctSrai | ctLui | ctLds | ctSts | ctBeq | ctBne
  | ctBlt | ctBge | ctBltu | ctBgeu | ctJmp | ctCall | ctRet | ctTkw | ctTset | ctTbase | ctTget | ctCcfg | ctRopen | ctNop | ctHalt
  | ctBrk | ctTrap | alAlloc | alFree | cpId | cpCap | cpCfg | cpMode | stationRetire | coreHalt | promotionComplete | ctRclose
  | inLdt | inLdd | inRcv | mxMma | mxProm | amSave | amRest | amZero | amMove | vcEw | vcUn | vcRed | vcBc | vcCvt | vcUpd | vcRng
  | ofSt | ofStl | ofSnd | ofPut | ofGsnd =>
    exact completesIf_onCore _ _
  | syFsig | syFwait | sySacq | syStry | sySrel | syEset | syErst | syEwait | syWeir | syWarr | syWwait =>
    exact completesIf_syAt _ _ _ _
  | secMxcntRead | secVccntRead | secVcwatchRead =>
    exact (completesIf_onCore _ _).and_right _
  | siphonDescriptor | siphonGroupDelivery | siphonDescriptorComplete | siphonFenceReached | freedBlockScrub | aquiferRead
  | aquiferFrameArrival | catchmentFill =>
    exact completesIf_onSec _ _
  | runtimeBedFence =>
    exact (completesIf_onSec _ _).and_left _
  | secCenstagClr | secCensusRead | sipStallRead | aqfCatchRead | idnPerfRead =>
    exact (completesIf_onSec _ _).and_right _
  | readEyeWindow | stackBurstArrival | reencryptionComplete | metadataEviction | counterPrefetch | writeBufferDrain | groupRewrite
  | sluiceTagTimeout =>
    exact completesIf_onSlu _ _
  | sluiceRead | sluiceWrite | groupReencryption =>
    exact (completesIf_onSlu _ _).and_left _
  | sluCounterRead | sluEyeRead =>
    exact (completesIf_onSlu _ _).and_right _
  | lnkEnable | lnkDisable | lnkRetrain | lnkFence | lnkUnfence | portDrainComplete | equalisationAndFecLock | linkKeying
  | keysInstalled | trainingTimeout | enableRetry | lossOfSignal | noFlitTimeout | flitReceive | flitTransmit | flowMoveTimeout
  | txTapStep | linkMargin | packetArrival | timeExchange | cablePresent | laneLossOfLock =>
    exact completesIf_onLink _ _
  | lnkCntRead | hwkDropRead =>
    exact (completesIf_onLink _ _).and_right _
  | fabricWeirJoinTimeout | fabricWeirMemberFailure | weirReleaseComplete | deadlock | cocStopEnd | cocImageComplete | cocTicketExpiry
  | cocRestoreComplete | ledgerMirror | drainScrub | drainComplete =>
    exact completesIf_onPart _ _
  | synQuotaWrite | synStagWrite | synCntRead | synStagstRead =>
    exact (completesIf_onPart _ _).and_right _
  | deathSequenceDone | chrGo | chrDoneClear | idnAqctlWrite | getCerts | getReport | keyInstall | keyDestroy | slotInfo | compactLoad
  | compactRetire | policyLoad | challenge | token =>
    exact completesIf_onFn _ _
  | cqhDoorbell | commandFetch | commandCompletion | nopCmd | qCreate | qDestroy | qResume | ctxOpen | ctxClose | memAlloc | memFree
  | mapCmd | unmap | copyIn | copyOut | loadImage | launch | stopCmd | synCreate | synDestroy | synExport | synSignal | synWait
  | sipStart | sipStop | aqCreate | aqWrite | aqSeal | aqRelease | rgCreate | rgClose | cocPrepare | cocTake | cocRestore | stepMark
  | ledgerRead | twinPolicy | partCreate | partDrain | partPreempt | partResume | partMode | partStatus =>
    exact (completesIf_onFn _ _).and_left _
  | sqtDoorbell =>
    exact ((completesIf_onFn _ _).and_left _).and_left _
  | lockInterface | stopInterface | ideFail | ideKmKeyProg | functionLevelReset | startInterface | spdmGetMeasurements =>
    exact completesIf_onFn_vf _ _
  | vbedSettled | droop | droopStretchEnd | junctionSensorSample | thermalTrip | stackTempSample | throttleHoldExpiry =>
    exact completesIf_onUnit _ of_decide_eq_true
  | hwkRgCounterRead =>
    exact (completesIf_onUnit _ of_decide_eq_true).and_right _
  | _ =>
    exact completesIf_next _ _

end Sys2Proof.Machine
end

section
open Sys2Proof Sys2Proof.Machine

/-- Settles O56: every command completes or stops as its unit does (exec_completesIf). -/
theorem wellFormedCommandsComplete : Obligations.WellFormedCommandsComplete := by
  unfold Obligations.WellFormedCommandsComplete
  exact ⟨fun c s hc => (exec_completesIf c s).next hc, fun c s => (exec_completesIf c s).next_or_stop⟩
end

section
/-! SUPPORT. Reads and writes of BAR0 (00 R10-R14): what an access gives where a register lies, and where none does. -/

namespace Sys2Proof.Machine

/-- Register r lies at an offset of BAR0, in block window w. -/
def LiesAt (off : Nat) (w : Win) (r : CsrName) : Prop := ∃ o, winAt off = some (w, o) ∧ regIn w o = some r

theorem State.readAt_of_liesAt {off : Nat} {w : Win} {r : CsrName} (h : LiesAt off w r) (path : Path) (s : State) :
    s.readAt path off = if s.sees path w r then (BitVec.ofNat 64 (s.readCsr (pathFn path) r).1, (s.readCsr (pathFn path) r).2) else (0, s) := by
  obtain ⟨o, hw, hr⟩ := h
  simp only [State.readAt, hw, hr]
theorem State.writeAt_of_liesAt {off : Nat} {w : Win} {r : CsrName} (h : LiesAt off w r) (path : Path) (v : Word) (s : State) :
    s.writeAt path off v = if s.mayWrite path r then some (s.writeCsr path v r) else none := by
  obtain ⟨o, hw, hr⟩ := h
  simp only [State.writeAt, hw, hr]

/-- An offset in no block window reads as zero, and a write there finds no register. -/
theorem State.readAt_of_winAt_none {off : Nat} (h : winAt off = none) (path : Path) (s : State) : s.readAt path off = (0, s) := by
  simp only [State.readAt, h]
theorem State.writeAt_of_winAt_none {off : Nat} (h : winAt off = none) (path : Path) (v : Word) (s : State) : s.writeAt path off v = none := by
  simp only [State.writeAt, h]
/-- So does an offset of a window at which its register map defines none (00 R11). -/
theorem State.readAt_of_regIn_none {off o : Nat} {w : Win} (hw : winAt off = some (w, o)) (hr : regIn w o = none) (path : Path) (s : State) :
    s.readAt path off = (0, s) := by
  simp only [State.readAt, hw, hr]
theorem State.writeAt_of_regIn_none {off o : Nat} {w : Win} (hw : winAt off = some (w, o)) (hr : regIn w o = none) (path : Path) (v : Word)
    (s : State) : s.writeAt path off v = none := by
  simp only [State.writeAt, hw, hr]

/-- A write that finds no register it may write changes nothing. -/
theorem exec_registerWrite_of_none {path : Path} {off : Nat} {v : Word} {s : State} (h : s.writeAt path off v = none) :
    exec (.registerWrite path off v) s = .next s := by
  show Host.Outcome.next ((s.writeAt path off v).getD s) = .next s
  rw [h, Option.getD_none]

end Sys2Proof.Machine
end

section
open Sys2Proof Sys2Proof.Machine

/-- Settles O60: a read and a write both look the register up first, in its window and then in the window's map. -/
theorem undefinedOffsetsReadAsZero : Obligations.UndefinedOffsetsReadAsZero := by
  unfold Obligations.UndefinedOffsetsReadAsZero
  intro path off s
  constructor
  · intro w o hw hr
    exact ⟨State.readAt_of_regIn_none hw hr path s, fun v => exec_registerWrite_of_none (State.writeAt_of_regIn_none hw hr path v s)⟩
  · intro hw v
    exact exec_registerWrite_of_none (State.writeAt_of_winAt_none hw path v s)
end

section
/-! SUPPORT. Where the counter registers lie (00 R9, R11): each read command names the offset of its register. -/

namespace Sys2Proof.Machine

/-! ### Arrays of registers -/

theorem arr_entry (base stride n i : Nat) (f : Nat → CsrName) (hi : i < n) (hs : 0 < stride) :
    arr (base + i * stride) base stride n f = some (f i) := by
  have hdiv : (base + i * stride - base) / stride = i := by rw [Nat.add_sub_cancel_left, Nat.mul_div_cancel _ hs]
  have hmod : (base + i * stride - base) % stride = 0 := by rw [Nat.add_sub_cancel_left, Nat.mul_mod_left]
  rw [arr, hdiv, hmod, if_pos ⟨Nat.le_add_right _ _, rfl, hi⟩]
/-- An offset before an array, between two of its registers, or past its end. -/
theorem arr_none (o base stride n : Nat) (f : Nat → CsrName) (h : o < base ∨ (o - base) % stride ≠ 0 ∨ n ≤ (o - base) / stride) :
    arr o base stride n f = none := by
  rw [arr, if_neg]
  rintro ⟨hbase, hmod, hdiv⟩
  omega

/-! ### Windows -/

theorem winAt_sec (n o : Nat) (hn : n < 10) (ho : o < 0x100000) : winAt (secOff n o) = some (.sec n, o) := by
  have hdiv : (0x1000000 + n * 0x100000 + o - 0x1000000) / 0x100000 = n := by omega
  have hmod : (0x1000000 + n * 0x100000 + o) % 0x100000 = o := by omega
  simp (disch := omega) only [secOff, winAt, if_neg, if_pos, hdiv, hmod]
theorem winAt_slu (n o : Nat) (hn : n < 20) (ho : o < 0x40000) : winAt (sluOff n o) = some (.slu n, o) := by
  have hdiv : (0x2000000 + n * 0x40000 + o - 0x2000000) / 0x40000 = n := by omega
  have hmod : (0x2000000 + n * 0x40000 + o) % 0x40000 = o := by omega
  simp (disch := omega) only [sluOff, winAt, if_neg, if_pos, hdiv, hmod]
theorem winAt_sip (n o : Nat) (hn : n < 10) (ho : o < 0x10000) : winAt (0x2800000 + n * 0x10000 + o) = some (.sip n, o) := by
  have hdiv : (0x2800000 + n * 0x10000 + o - 0x2800000) / 0x10000 = n := by omega
  have hmod : (0x2800000 + n * 0x10000 + o) % 0x10000 = o := by omega
  simp (disch := omega) only [winAt, if_neg, if_pos, hdiv, hmod]
theorem winAt_lnk (n o : Nat) (hn : n < 48) (ho : o < 0x10000) : winAt (lnkOff n o) = some (.lnk n, o) := by
  have hdiv : (0x3000000 + n * 0x10000 + o - 0x3000000) / 0x10000 = n := by omega
  have hmod : (0x3000000 + n * 0x10000 + o) % 0x10000 = o := by omega
  simp (disch := omega) only [lnkOff, winAt, if_neg, if_pos, hdiv, hmod]
theorem winAt_aqf (o : Nat) (ho : o < 0x100000) : winAt (0x2900000 + o) = some (.aqf, o) := by
  simp (disch := omega) only [winAt, if_neg, if_pos, Nat.add_sub_cancel_left]
theorem winAt_rg (e o : Nat) (he : e < 64) (ho : o < 0x40) : winAt (rgOff e o) = some (.rg, o + e * 0x40) := by
  have hsub : 0x3310000 + e * 0x40 + o - 0x3310000 = o + e * 0x40 := by omega
  simp (disch := omega) only [rgOff, winAt, if_neg, if_pos, hsub]
theorem winAt_syn (p o : Nat) (hp : p < 10) (ho : o < 0x1000) : winAt (synOff p o) = some (.syn, p * 0x1000 + o) := by
  have hsub : 0x3800000 + p * 0x1000 + o - 0x3800000 = p * 0x1000 + o := by omega
  simp (disch := omega) only [synOff, winAt, if_neg, if_pos, hsub]
/-- A register of core c lies in the window of its section, eight bytes after that of the core before it. -/
theorem winAt_coreOff (base c : Nat) (hc : c < 2560) (hb : base + 0x800 ≤ 0x100000) :
    winAt (coreOff base c) = some (.sec (c / 256), base + c % 256 * 8) := by
  rw [show coreOff base c = secOff (c / 256) (base + c % 256 * 8) from Nat.add_assoc _ _ _]
  exact winAt_sec _ _ (by omega) (by omega)

/-! ### Registers -/

theorem liesAt_secMxcnt (c : Nat) (hc : c < 2560) : LiesAt (coreOff 0x41000 c) (.sec (c / 256)) (.secMxcnt c) := by
  refine ⟨_, winAt_coreOff _ c hc (by decide), ?_⟩
  simp (disch := omega) only [regIn, firstSome, arr_none, arr_entry, Nat.div_add_mod]
theorem liesAt_secVccnt (c : Nat) (hc : c < 2560) : LiesAt (coreOff 0x42000 c) (.sec (c / 256)) (.secVccnt c) := by
  refine ⟨_, winAt_coreOff _ c hc (by decide), ?_⟩
  simp (disch := omega) only [regIn, firstSome, arr_none, arr_entry, Nat.div_add_mod]
theorem liesAt_secVcwatch (c : Nat) (hc : c < 2560) : LiesAt (coreOff 0x43000 c) (.sec (c / 256)) (.secVcwatch c) := by
  refine ⟨_, winAt_coreOff _ c hc (by decide), ?_⟩
  simp (disch := omega) only [regIn, firstSome, arr_none, arr_entry, Nat.div_add_mod]
theorem liesAt_secCensus (n e w : Nat) (hn : n < 10) (he : e < 256) (hw : w < 62) :
    LiesAt (secOff n (0x50000 + e * 0x200 + w * 8)) (.sec n) (.secCensus n e w) := by
  refine ⟨_, winAt_sec n _ hn (by omega), ?_⟩
  have hin : 0x50000 ≤ 0x50000 + e * 0x200 + w * 8 ∧ 0x50000 + e * 0x200 + w * 8 < 0x70000 ∧ (0x50000 + e * 0x200 + w * 8) % 8 = 0 := by omega
  have hword : (0x50000 + e * 0x200 + w * 8 - 0x50000) % 0x200 / 8 = w := by omega
  have hentry : (0x50000 + e * 0x200 + w * 8 - 0x50000) / 0x200 = e := by omega
  simp (disch := omega) only [regIn, firstSome, arr_none, if_pos hin, hword, hentry, if_pos hw]

theorem liesAt_sluCtrstat (n : Nat) (hn : n < 20) : LiesAt (sluOff n 8) (.slu n) (.sluCtrstat n) := ⟨8, winAt_slu n 8 hn (by decide), rfl⟩
theorem liesAt_sluMaint (n : Nat) (hn : n < 20) : LiesAt (sluOff n 0x10) (.slu n) (.sluMaint n) := ⟨0x10, winAt_slu n 0x10 hn (by decide), rfl⟩
theorem liesAt_sluErr (n : Nat) (hn : n < 20) : LiesAt (sluOff n 0x20) (.slu n) (.sluErr n) := ⟨0x20, winAt_slu n 0x20 hn (by decide), rfl⟩
theorem liesAt_sluEye (n ch : Nat) (hn : n < 20) (hch : ch < 32) : LiesAt (sluOff n (0x30000 + ch * 8)) (.slu n) (.sluEye n ch) := by
  refine ⟨_, winAt_slu n _ hn (by omega), ?_⟩
  simp (disch := omega) only [regIn, firstSome, if_neg, arr_none, arr_entry]

theorem liesAt_sipStall (n : Nat) (hn : n < 10) : LiesAt (0x2800000 + n * 0x10000 + 0x100) (.sip n) (.sipStall n) :=
  ⟨0x100, winAt_sip n 0x100 hn (by decide), rfl⟩
theorem liesAt_aqfCatch (n : Nat) (hn : n < 10) : LiesAt (0x2900000 + n * 8) .aqf (.aqfCatch n) := by
  refine ⟨_, winAt_aqf _ (by omega), ?_⟩
  rw [regIn, ← Nat.zero_add (n * 8)]
  exact arr_entry 0 8 10 n .aqfCatch hn (by decide)

theorem liesAt_lnkCnt (n : Nat) (hn : n < 48) : LiesAt (lnkOff n 0x10) (.lnk n) (.lnkCnt n) := ⟨0x10, winAt_lnk n 0x10 hn (by decide), rfl⟩
theorem liesAt_hwkDrop (n : Nat) (hn : n < 48) : LiesAt (lnkOff n 0x18) (.lnk n) (.hwkDrop n) := ⟨0x18, winAt_lnk n 0x18 hn (by decide), rfl⟩

theorem liesAt_hwkRgcnt (e : Nat) (he : e < 64) : LiesAt (rgOff e 0x10) .rg (.hwkRgcnt e) := by
  refine ⟨_, winAt_rg e 0x10 he (by decide), ?_⟩
  simp (disch := omega) only [regIn, firstSome, arr_none, arr_entry]
theorem liesAt_hwkRgtok (e : Nat) (he : e < 64) : LiesAt (rgOff e 0x18) .rg (.hwkRgtok e) := by
  refine ⟨_, winAt_rg e 0x18 he (by decide), ?_⟩
  simp (disch := omega) only [regIn, firstSome, arr_none, arr_entry]

theorem liesAt_synStagst (p : Nat) (hp : p < 10) : LiesAt (synOff p 0x28) .syn (.synStagst p) := by
  refine ⟨_, winAt_syn p 0x28 hp (by decide), ?_⟩
  have hdiv : (p * 0x1000 + 0x28) / 0x1000 = p := by omega
  have hmod : (p * 0x1000 + 0x28) % 0x1000 = 0x28 := by omega
  simp only [regIn, hdiv, hmod, if_pos hp]
  rfl
theorem liesAt_synCnt (p : Nat) (hp : p < 10) : LiesAt (synOff p 0x30) .syn (.synCnt p) := by
  refine ⟨_, winAt_syn p 0x30 hp (by decide), ?_⟩
  have hdiv : (p * 0x1000 + 0x30) / 0x1000 = p := by omega
  have hmod : (p * 0x1000 + 0x30) % 0x1000 = 0x30 := by omega
  simp only [regIn, hdiv, hmod, if_pos hp]
  rfl

theorem liesAt_idnPerf (o : Nat) (ho : o < 10) : LiesAt (0x2000 + o * 8) .idn (.idnPerf o) := by
  refine ⟨0x2000 + o * 8, by simp (disch := omega) only [winAt, if_pos], ?_⟩
  simp (disch := omega) only [regIn, firstSome, if_neg, arr_none, arr_entry]
theorem liesAt_pwrThr0 : LiesAt 0x400010 .pwr (.pwrThr 0) := ⟨0x10, rfl, rfl⟩
theorem liesAt_pwrThr1 : LiesAt 0x400018 .pwr (.pwrThr 1) := ⟨0x18, rfl, rfl⟩
theorem liesAt_pwrSleep : LiesAt 0x400030 .pwr .pwrSleep := ⟨0x30, rfl, rfl⟩

end Sys2Proof.Machine
end

section
/-! SUPPORT. What a read command answers (00 R13; assumption 3): the value of the register at its offset, with what the read clears. -/

namespace Sys2Proof.Machine
open Sys2Proof.Claims

/-- A command that reads the offset of a register answers the register's value and clears what a read of it clears, where the path sees
it; where the path does not, zero, and nothing is cleared (00 R11; 12 R335). -/
theorem reads_of_liesAt {c : Instr} {s t : State} {path : Path} {off v : Nat} {w : Win} {r : CsrName} (h : LiesAt off w r)
    (hc : exec c s = .next (readOp path off s)) (hv : (s.readCsr (pathFn path) r).1 = v) (ht : (s.readCsr (pathFn path) r).2 = t) :
    Reads c s path w r v t := by
  rw [Reads, hc, readOp, State.readAt_of_liesAt h, ← hv, ← ht]
  constructor
  · intro hsees
    rw [if_pos hsees]
  · intro hblind
    rw [if_neg (ne_true_of_eq_false hblind)]

/-- A value placed at a bit is that multiple of the bit's weight. -/
theorem place_eq_mul (lo v : Nat) : place lo v = 2 ^ lo * v := Nat.mul_comm _ _

/-- A VF's ordinal names a section of its partition, and IDN_PERF counts what PF0 reads for that section. -/
theorem State.readCsr_idnPerf_vf {s : State} {p o n : Nat} (h : s.secOf p o = some n) :
    s.readCsr (p + 1) (.idnPerf o) = s.readCsr 0 (.idnPerf n) := by
  simp [State.readCsr, fnPart, h]

end Sys2Proof.Machine
end

section
open Sys2Proof Sys2Proof.Machine Sys2Proof.Claims

/-- Settles O52: each read command reads the offset at which its register lies (reads_of_liesAt), and the register's value is the sum of its
counts, each held to its width and placed at its bit. -/
theorem counterReadRows : Obligations.CounterReadRows := by
  unfold Obligations.CounterReadRows
  intro cap
  refine ⟨?cores, ?census, ?sluices, ?siphons, ?ports, ?groups, ?partitions, ?perf, ?power⟩
  case cores =>
    intro path c s hc k n e
    refine ⟨reads_of_liesAt (liesAt_secMxcnt c hc) (onCore_of_lt c _ hc) ?_ rfl,
      reads_of_liesAt (liesAt_secVccnt c hc) (onCore_of_lt c _ hc) ?_ rfl,
      reads_of_liesAt (liesAt_secVcwatch c hc) (onCore_of_lt c _ hc) ?_ rfl⟩ <;>
    simp only [State.readCsr, rcShow, place_eq_mul, cap, k, e, Nat.reducePow, Nat.reduceSub]
  case census =>
    intro path n e w s hn he hw x
    refine reads_of_liesAt (liesAt_secCensus n e w hn he hw) ((onSec_of_lt n _ hn).trans ?_) rfl rfl
    rw [if_pos ⟨he, hw⟩]
  case sluices =>
    intro path n s hn x u
    refine ⟨reads_of_liesAt (liesAt_sluCtrstat n hn) (onSlu_of_lt n _ hn) ?_ rfl,
      reads_of_liesAt (liesAt_sluMaint n hn) (onSlu_of_lt n _ hn) ?_ rfl,
      reads_of_liesAt (liesAt_sluErr n hn) (onSlu_of_lt n _ hn) ?_ rfl, ?eyes⟩
    case eyes =>
      intro ch hch e
      refine reads_of_liesAt (liesAt_sluEye n ch hn hch) ((onSlu_of_lt n _ hn).trans ?_) ?_ rfl
      · rw [if_pos hch]
      · simp only [State.readCsr, place_eq_mul, cap, e, x, Nat.reducePow, Nat.reduceSub]
    all_goals simp only [State.readCsr, rcShow, place_eq_mul, cap, u, x, Nat.reducePow, Nat.reduceSub]
  case siphons =>
    intro path n s hn c a b d g h
    refine ⟨reads_of_liesAt (liesAt_sipStall n hn) (onSec_of_lt n _ hn) ?_ rfl,
      reads_of_liesAt (liesAt_aqfCatch n hn) (onSec_of_lt n _ hn) ?_ rfl⟩ <;>
    simp only [State.readCsr, rcShow, place_eq_mul, cap, a, b, d, g, h, c, Nat.reducePow, Nat.reduceSub]
  case ports =>
    intro path n s hn l
    refine ⟨reads_of_liesAt (liesAt_lnkCnt n hn) (onLink_of_lt n _ hn) ?_ rfl,
      reads_of_liesAt (liesAt_hwkDrop n hn) (onLink_of_lt n _ hn) ?_ rfl⟩ <;>
    simp only [State.readCsr, rcShow, place_eq_mul, cap, l, Nat.reducePow, Nat.reduceSub]
  case groups =>
    intro path e s he g a b
    refine ⟨reads_of_liesAt (liesAt_hwkRgcnt e he) (onUnit_of_lt _ _ e _ he) ?_ rfl,
      reads_of_liesAt (liesAt_hwkRgtok e he) (onUnit_of_lt _ _ e _ he) ?_ rfl⟩ <;>
    simp only [State.readCsr, rcShow, place_eq_mul, cap, a, b, g, Nat.reducePow, Nat.reduceSub]
  case partitions =>
    intro path p s hp x
    refine ⟨reads_of_liesAt (liesAt_synStagst p hp) (onPart_of_lt p _ hp) rfl rfl,
      reads_of_liesAt (liesAt_synCnt p hp) (onPart_of_lt p _ hp) ?_ rfl⟩
    simp only [State.readCsr, place_eq_mul, cap, x, Nat.reducePow, Nat.reduceSub]
  case perf =>
    intro n s hn c a b d v t
    have hv : (s.readCsr 0 (.idnPerf n)).1 = v := by
      simp only [State.readCsr, fnPart, if_true, rcShow, place_eq_mul, cap, a, b, d, c, v, Nat.reducePow, Nat.reduceSub]
    refine ⟨reads_of_liesAt (liesAt_idnPerf n hn) (onSec_of_lt n _ hn) hv rfl, fun p o _ ho hsec => ?_⟩
    have hread : s.readCsr (pathFn (.vf (p + 1))) (.idnPerf o) = s.readCsr 0 (.idnPerf n) := State.readCsr_idnPerf_vf hsec
    exact reads_of_liesAt (liesAt_idnPerf o ho) (onSec_of_lt o _ ho) (hread ▸ hv) (hread ▸ rfl)
  case power =>
    intro path s th ms rest t0 t1
    refine ⟨reads_of_liesAt liesAt_pwrThr0 rfl ?thr0 rfl, reads_of_liesAt liesAt_pwrThr1 rfl ?thr1 rfl, ?noRegister,
      reads_of_liesAt liesAt_pwrSleep rfl ?sleep rfl⟩
    case thr0 => simp only [State.readCsr, rcShow, place_eq_mul, cap, th, ms, Nat.reducePow, Nat.reduceSub, if_true]
    case thr1 => simp only [State.readCsr, rcShow, place_eq_mul, cap, th, ms, Nat.reducePow, Nat.reduceSub, one_ne_zero, if_false]
    case sleep => simp only [State.readCsr, State.csr, place_eq_mul, cap, Nat.reducePow, Nat.reduceSub]
    case noRegister =>
      intro n e k
      refine ⟨fun hn hk => (onSlu_of_lt n _ hn).trans ?_, fun hn hk => (onSlu_of_lt n _ hn).trans ?_, fun hn hk => (onSec_of_lt n _ hn).trans ?_,
        fun hn hk => (onUnit_of_lt _ _ n _ hn).trans ?_, fun hk => ?_⟩
      · rw [if_neg (by omega), if_neg (by omega), if_neg (by omega)]
      · rw [if_neg (by omega)]
      · rw [if_neg (by omega)]
      · rw [if_neg (by omega), if_neg (by omega)]
      · show Host.Outcome.next (if k = 0 then _ else if k = 1 then _ else s) = .next s
        rw [if_neg (by omega), if_neg (by omega)]
end

section
/-! SUPPORT. IDN_AQCTL where it takes EN away from a function whose queue 0 is Absent (12 R336, R340), and a state outside the canonical form
in which the queue that the write then reads is another one. -/

namespace Sys2Proof.Machine

/-- In canonical form the write sets the fields and leaves every queue of the function as it was. -/
theorem aqctlSet_disable_absent (f : Nat) (v : Word) (s : State) (hwf : swf {} s.fns = true) (hen : bit v.toNat 14 = false)
    (habs : (s.queue f 0).state = .absent) : ∃ x, aqctlSet f v s = s.setFn f x ∧ x.queues = (s.fn f).queues := by
  simp only [aqctlSet, hen, Bool.false_eq_true, false_and, if_false]
  rw [if_neg]
  · exact ⟨_, rfl, rfl⟩
  · rintro ⟨-, -, hpresent⟩
    rw [State.queue, State.setFn_fn s f _ hwf] at hpresent
    exact hpresent habs

/-- PF0 listed twice, which no canonical store does: the first entry has EN and no queue, the second has a queue 0 that runs. -/
def pf0ListedTwice : State :=
  { State.reset with
    mon := { State.reset.mon with hostUp := true }
    fns := [(0, { aqEn := true }), (0, { queues := [(0, { state := .running })] })] }
/-- The write of all zeros leaves the first entry equal to an unlisted one, so that the store drops it; what is read of PF0 from then on is the
second entry, and its queue 0 is destroyed. -/
theorem idnAqctlWrite_pf0ListedTwice : exec (.idnAqctlWrite 0 0) pf0ListedTwice = .next { pf0ListedTwice with fns := [] } := rfl

end Sys2Proof.Machine
end

section
open Sys2Proof Sys2Proof.Machine

/-- Refutes O51: of a write that clears EN where queue 0 of the function is Absent, the statement says in every state that only the fields
change. In pf0ListedTwice, a state outside the canonical form, the model also destroys the queue of the entry listed second. The clause wants
the canonical form of the functions' store as a hypothesis: with it, it holds (aqctlSet_disable_absent). -/
theorem not_registerAccessRows : ¬ Obligations.RegisterAccessRows := by
  unfold Obligations.RegisterAccessRows
  rintro ⟨-, -, haqctl, -⟩
  obtain ⟨-, -, -, hdisable, -⟩ := haqctl 0 0 pf0ListedTwice (by decide) (by decide) (by decide)
  have hfields := hdisable (by decide) (by decide)
  rw [idnAqctlWrite_pf0ListedTwice] at hfields
  have hfns := congrArg State.fns (Host.Outcome.next.inj hfields)
  exact absurd hfns (by decide)
end

section
/-! SUPPORT. Throttle reasons and what is judged on them (16 R429): the bits of PWR_STATUS.REASONS, a reading judged against a reason, a
group or a stack, and the shortest hold. -/

namespace Sys2Proof.Machine

/-! ### Bits of REASONS -/

theorem bit_eq_testBit (x i : Nat) : bit x i = x.testBit i := Nat.testBit_eq_decide_div_mod_eq.symm
theorem mod_two_of_bit_eq_false {x i : Nat} (h : bit x i = false) : x / 2 ^ i % 2 = 0 := by
  have hne := of_decide_eq_false h
  omega

theorem bit_add_two_pow_same {x k : Nat} (h : bit x k = false) : bit (x + 2 ^ k) k = true := by
  have heven := mod_two_of_bit_eq_false h
  rw [bit, Nat.add_div_right _ (Nat.two_pow_pos k), decide_eq_true_eq]
  omega
/-- Setting a clear bit carries into no other one. -/
theorem bit_add_two_pow_ne {x k j : Nat} (h : bit x k = false) (hj : j ≠ k) : bit (x + 2 ^ k) j = bit x j := by
  obtain hlt | hgt := Nat.lt_or_gt_of_ne hj
  · rw [bit_eq_testBit, bit_eq_testBit, Nat.add_comm, Nat.testBit_two_pow_add_gt hlt]
  · have heven := mod_two_of_bit_eq_false h
    have hpow : 2 ^ j = 2 ^ k * 2 * 2 ^ (j - k - 1) := by
      rw [← pow_succ, ← pow_add]
      congr 1
      omega
    have hhalf : (x / 2 ^ k + 1) / 2 = x / 2 ^ k / 2 := by omega
    rw [bit, bit, hpow, ← Nat.div_div_eq_div_mul, ← Nat.div_div_eq_div_mul, Nat.add_div_right _ (Nat.two_pow_pos k), hhalf,
      ← Nat.div_div_eq_div_mul, ← Nat.div_div_eq_div_mul]
theorem bit_sub_two_pow_same {x k : Nat} (h : bit x k = true) : bit (x - 2 ^ k) k = false := by
  have hodd := of_decide_eq_true h
  have hdiv : (x - 2 ^ k) / 2 ^ k = x / 2 ^ k - 1 := by simpa using Nat.sub_mul_div x (2 ^ k) 1
  rw [bit, hdiv, decide_eq_false_iff_not]
  omega

/-! ### A reason that begins, ends or is judged -/

theorem Pwr.why_begin_same (x : Pwr) (k : Nat) : (x.begin k).why k = true := by
  rw [Pwr.begin, Pwr.why]
  split
  case isTrue h => exact h
  case isFalse h => exact bit_add_two_pow_same (Bool.eq_false_iff.2 h)
theorem Pwr.why_begin_ne (x : Pwr) {k j : Nat} (hj : j ≠ k) : (x.begin k).why j = x.why j := by
  rw [Pwr.begin, Pwr.why, Pwr.why]
  split
  case isTrue => rfl
  case isFalse h => exact bit_add_two_pow_ne (Bool.eq_false_iff.2 h) hj
theorem Pwr.why_finish_same (x : Pwr) (k : Nat) : (x.finish k).why k = false := by
  rw [Pwr.finish, Pwr.why]
  split
  case isTrue h => exact bit_sub_two_pow_same h
  case isFalse h => exact Bool.eq_false_iff.2 h

@[simp] theorem Pwr.judge_enter (x : Pwr) (k now : Nat) (exit : Bool) : x.judge k now true exit = x.begin k := rfl
/-- A reading judged begins its reason, or at most changes since when an exit condition holds. -/
theorem Pwr.judge_cases (x : Pwr) (k now : Nat) (enter exit : Bool) :
    x.judge k now enter exit = x.begin k ∨ ∃ m, x.judge k now enter exit = { x with exitSince := m } := by
  rw [Pwr.judge]
  split
  · exact .inl rfl
  · split
    · exact .inr ⟨_, rfl⟩
    · split
      · split <;> exact .inr ⟨_, rfl⟩
      · exact .inr ⟨_, rfl⟩
theorem Pwr.why_judge_ne (x : Pwr) {k j : Nat} (now : Nat) (enter exit : Bool) (hj : j ≠ k) : (x.judge k now enter exit).why j = x.why j := by
  obtain h | ⟨m, h⟩ := x.judge_cases k now enter exit
  · rw [h, x.why_begin_ne hj]
  · rw [h]
    rfl
@[simp] theorem Pwr.judge_sleep (x : Pwr) (k now : Nat) (enter exit : Bool) : (x.judge k now enter exit).sleep = x.sleep := by
  obtain h | ⟨m, h⟩ := x.judge_cases k now enter exit
  · rw [h]
    rfl
  · rw [h]
@[simp] theorem Pwr.judgeHard_sleep (x : Pwr) (now : Nat) : (x.judgeHard now).sleep = x.sleep := x.judge_sleep ..
@[simp] theorem Pwr.judgeKey_sleep (x : Pwr) (key now : Nat) (enter exit : Bool) : (x.judgeKey key now enter exit).sleep = x.sleep := by
  cases enter <;> rfl
theorem Pwr.why_judgeKey_enter (x : Pwr) (key now : Nat) (exit : Bool) : (x.judgeKey key now true exit).why (keyReason key) = true :=
  x.why_begin_same _
theorem Pwr.why_judgeHard_ne (x : Pwr) (now : Nat) {j : Nat} (hj : j ≠ Why.thermalHard) : (x.judgeHard now).why j = x.why j :=
  x.why_judge_ne now _ _ hj

end Sys2Proof.Machine
end

section
/-! SUPPORT. The power controller (16 R423-R428): the highest point that the limit allows, and the three ways in which the common point moves. -/

namespace Sys2Proof.Machine

theorem highest_le (pred : List Nat) (l p : Nat) : highest pred l p ≤ p := by
  induction p with
  | zero => exact Nat.le_refl 0
  | succ p ih =>
    rw [highest]
    split <;> omega
theorem highest_fits (pred : List Nat) (l p : Nat) : highest pred l p = 0 ∨ pred.getD (highest pred l p) 0 ≤ l := by
  induction p with
  | zero => exact .inl rfl
  | succ p ih =>
    rw [highest]
    split
    case isTrue hfits => exact .inr hfits
    case isFalse => exact ih
theorem lt_pred_of_highest_lt {pred : List Nat} {l p q : Nat} (h : highest pred l p < q) (hq : q ≤ p) : l < pred.getD q 0 := by
  induction p with
  | zero => omega
  | succ p ih =>
    rw [highest] at h
    split at h
    case isTrue => omega
    case isFalse hover =>
      obtain rfl | hlt := Nat.eq_or_lt_of_le hq
      · exact Nat.lt_of_not_le hover
      · exact ih h (Nat.le_of_lt_succ hlt)

/-- The common point may rise: it is below the last one, the limit allows it and the next one, and a fall, where there was one, is 1 ms
old (16 R427). -/
def Pwr.mayRise (x : Pwr) (pred : List Nat) (now : Nat) : Prop :=
  x.point < 11 ∧ pred.getD (x.point + 1) 0 ≤ 1000 * x.limit ∧ pred.getD x.point 0 ≤ 1000 * x.limit ∧
    ∀ t, x.downAt = some t → t + 1000000 ≤ now

section
variable {x : Pwr} {pred : List Nat} {now : Nat}

theorem Pwr.move_down (hover : 1000 * x.limit < pred.getD x.point 0) (hpos : 0 < x.point) :
    x.move pred now = { x with point := highest pred (1000 * x.limit) (x.point - 1), downAt := some now } :=
  if_pos ⟨hover, hpos⟩
theorem Pwr.move_up (h : x.mayRise pred now) : x.move pred now = { x with point := x.point + 1 } := by
  obtain ⟨hlast, hnext, hfits, hrested⟩ := h
  rw [Pwr.move, if_neg (fun hdown => Nat.not_lt.2 hfits hdown.1)]
  refine if_pos ⟨hlast, hnext, hfits, ?_⟩
  split
  case h_1 t hdown => exact decide_eq_true (hrested t hdown)
  case h_2 => rfl
theorem Pwr.move_stay (hdown : ¬(1000 * x.limit < pred.getD x.point 0 ∧ 0 < x.point)) (h : ¬x.mayRise pred now) : x.move pred now = x := by
  rw [Pwr.move, if_neg hdown]
  refine if_neg (fun ⟨hlast, hnext, hfits, hrested⟩ => h ⟨hlast, hnext, hfits, fun t ht => ?_⟩)
  rw [ht] at hrested
  exact of_decide_eq_true hrested
end

end Sys2Proof.Machine
end

section
/-! SUPPORT. Shortest holds (16 R429): when one has passed, for which groups and stacks, and what then ends. -/

namespace Sys2Proof.Machine

/-- The exit condition under a key has held for the shortest hold of a reason. -/
theorem Pwr.heldKey_iff (x : Pwr) (key k now : Nat) :
    x.heldKey key k now = true ↔ ∃ t, sget none x.exitSince key = some t ∧ t + holdOf k ≤ now := by
  rw [Pwr.heldKey]
  cases sget none x.exitSince key <;> simp

theorem Pwr.mem_cooled {x : Pwr} {k now key : Nat} : key ∈ x.cooled k now ↔ key ∈ x.hotOf k ∧ x.heldKey key k now = true := List.mem_filter

section
variable {x : Pwr} {k : Nat} (now : Nat)

theorem Pwr.expires_single (hk : ¬(k = Why.thermalSoft ∨ k = Why.stackTemp)) : x.expires k now = x.heldKey k k now := if_neg hk
theorem Pwr.expire_single (hk : ¬(k = Why.thermalSoft ∨ k = Why.stackTemp)) : x.expire k now = x.finish k := if_neg hk

variable (hk : k = Why.thermalSoft ∨ k = Why.stackTemp)
include hk
/-- THERMAL_SOFT and STACK_TEMP have something to end once one group or stack has cooled. -/
theorem Pwr.expires_grouped : x.expires k now = true ↔ ∃ key ∈ x.hotOf k, x.heldKey key k now = true := by
  rw [Pwr.expires, if_pos hk, Pwr.cooled]
  simp
/-- While one group or stack has not cooled, the reason stays in force and only those that have leave it. -/
theorem Pwr.expire_grouped_rest (hrest : ∃ key ∈ x.hotOf k, ¬x.heldKey key k now = true) :
    x.expire k now = { x with hot := x.hot.filter (fun key => !(x.cooled k now).contains key) } := by
  obtain ⟨key, hmem, hheld⟩ := hrest
  have hhot := List.mem_filter.1 hmem
  have hnot : key ∉ x.cooled k now := fun h => hheld (Pwr.mem_cooled.1 h).2
  have hleft : key ∈ ({ x with hot := x.hot.filter (fun key => !(x.cooled k now).contains key) } : Pwr).hotOf k := by
    simpa [Pwr.hotOf, hnot] using hhot
  rw [Pwr.expire, if_pos hk, if_neg]
  exact fun hempty => List.ne_nil_of_mem hleft (List.isEmpty_iff.1 hempty)
/-- With the last group or stack the reason ends. -/
theorem Pwr.expire_grouped_last (hall : ∀ key ∈ x.hotOf k, x.heldKey key k now = true) :
    x.expire k now = ({ x with hot := x.hot.filter (fun key => !(x.cooled k now).contains key) } : Pwr).finish k := by
  have hnone : ({ x with hot := x.hot.filter (fun key => !(x.cooled k now).contains key) } : Pwr).hotOf k = [] := by
    refine List.filter_eq_nil_iff.2 (fun key hmem hreason => ?_)
    obtain ⟨hhot, hnot⟩ := List.mem_filter.1 hmem
    have hof : key ∈ x.hotOf k := List.mem_filter.2 ⟨hhot, hreason⟩
    have hcooled : key ∈ x.cooled k now := Pwr.mem_cooled.2 ⟨hof, hall key hof⟩
    simp [hcooled] at hnot
  rw [Pwr.expire, if_pos hk]
  exact if_pos (List.isEmpty_iff.2 hnone)
theorem Pwr.expire_grouped_hot : (x.expire k now).hot = x.hot.filter (fun key => !(x.cooled k now).contains key) := by
  by_cases hall : ∀ key ∈ x.hotOf k, x.heldKey key k now = true
  · rw [x.expire_grouped_last now hk hall]
    rfl
  · rw [x.expire_grouped_rest now hk (by simpa using hall)]
end

/-- The command ends the reason once its hold has passed; with SUPPLY_SAG, BOOST_INLET keeps Boost away from a warm inlet (16 R444). -/
theorem exec_throttleHoldExpiry {k : Nat} {s : State} (hk : k < 7) (hexpires : s.pwr.expires k s.tim.up = true) :
    let x := s.pwr.expire k s.tim.up
    exec (.throttleHoldExpiry k) s = .next (s.setPwr (if k = 6 ∧ x.boost = true ∧ 300 < x.inlet then x.begin 1 else x)) := by
  refine (onUnit_of_lt _ _ _ _ (Nat.lt_succ_of_lt hk)).trans (congrArg _ (if_neg ?_))
  rintro (hdroop | hnot)
  · exact Nat.ne_of_lt hk hdroop
  · simp [hexpires] at hnot
theorem exec_throttleHoldExpiry_stays {k : Nat} {s : State} (hk : k < 8) (h : k = Why.droop ∨ ¬s.pwr.expires k s.tim.up = true) :
    exec (.throttleHoldExpiry k) s = .next s :=
  (onUnit_of_lt _ _ _ _ hk).trans (congrArg _ (if_pos (h.imp_right (fun hno => by simpa using hno))))

end Sys2Proof.Machine
end

section
/-! SUPPORT. The power of the die (16 R421, R428, R430): whether the controller runs, what a section's thermal cap leaves as it was, and
what a thermal trip leaves. -/

namespace Sys2Proof.Machine

/-! ### The controller runs -/

theorem State.alive_of_powered {s : State} (h : s.powered = true) : s.alive = true := by
  simp only [State.powered, Bool.and_eq_true] at h
  exact h.1.1
theorem State.powered_congr {s t : State} (hmon : t.mon = s.mon) (hsleep : t.pwr.sleep = s.pwr.sleep) : t.powered = s.powered := by
  rw [State.powered, State.powered, State.alive, State.alive, hmon, hsleep]

theorem State.setSec_if_eq (s : State) (n : Nat) (x : Sec) (c : Prop) [Decidable c] :
    (if c then s.setSec n x else s) = s ∨ ∃ y, (if c then s.setSec n x else s) = s.setSec n y := by
  by_cases h : c
  · exact .inr ⟨x, if_pos h⟩
  · exact .inl (if_neg h)
/-- The thermal cap changes nothing but its section. -/
theorem State.thermCap_eq (s : State) (n temp : Nat) : s.thermCap n temp = s ∨ ∃ x, s.thermCap n temp = s.setSec n x := by
  unfold State.thermCap
  by_cases h : 105 ≤ temp
  · rw [if_pos h]
    exact s.setSec_if_eq n _ _
  · rw [if_neg h]
    exact s.setSec_if_eq n _ _
@[simp] theorem State.powered_thermCap (s : State) (n temp : Nat) : (s.thermCap n temp).powered = s.powered := by
  obtain h | ⟨x, h⟩ := s.thermCap_eq n temp
  · rw [h]
  · rw [h]
    rfl

/-- The sensors of a sensor's group: the four of its section, or the eight of the headworks and SerDes. -/
theorem sensorsOf_sensorKey {i : Nat} (hi : i < 48) :
    sensorsOf (sensorKey i) = if i < 40 then (List.range 4).map (· + 4 * (i / 4)) else (List.range 8).map (· + 40) := by
  rw [sensorsOf, sensorKey]
  by_cases h : i < 40
  · have hkey : 16 + min (i / 4) 10 - 16 = i / 4 := by omega
    rw [if_neg (by omega), if_pos h, hkey]
  · rw [if_pos (by omega), if_neg h]

/-! ### Stores written key by key -/

section
variable {α : Type} [DecidableEq α] (d : α)

theorem sget_foldl_sset (f : Nat → α) (hf : ∀ n, f n ≠ d) (l : List Nat) (m : Store α) {n : Nat} (h : n ∈ l ∨ sget d m n = f n) :
    sget d (l.foldl (fun m n => sset d m n (f n)) m) n = f n := by
  induction l generalizing m with
  | nil => exact h.resolve_left List.not_mem_nil
  | cons k l ih =>
    refine ih _ ?_
    by_cases hk : n = k
    · subst hk
      exact .inr (sget_sset_same d m n _ (hf n))
    · rw [sget_sset_ne d m k n _ hk]
      exact h.imp_left (fun hmem => (List.mem_cons.1 hmem).resolve_left hk)
/-- What holds of the default and of every image holds of all that is read from a store's image. -/
theorem sget_smap (P : α → Prop) (f : Nat → α → α) (hd : P d) (hf : ∀ k v, P (f k v)) (m : Store α) (n : Nat) :
    P (sget d (smap d f m) n) := by
  have hkeeps : swf d (smap d f m) = true ∧ ∀ n, P (sget d (smap d f m) n) := by
    refine foldl_keeps (fun r => swf d r = true ∧ ∀ n, P (sget d r n)) _ ?_ m [] ⟨rfl, fun _ => hd⟩
    rintro r e ⟨hwf, hall⟩
    refine ⟨swf_sset d r e.1 _ hwf, fun n => ?_⟩
    by_cases hn : n = e.1
    · rw [hn, sget_sset_wf d 0 r e.1 _ hwf]
      exact hf _ _
    · rw [sget_sset_ne d r e.1 n _ hn]
      exact hall n
  exact hkeeps.2 n
end

theorem mem_sgets {α : Type} (d : α) (m : Store α) {k n i : Nat} (h : i < n) : sget d m (k + i) ∈ sgets d m k n := by
  induction n generalizing k i with
  | zero => omega
  | succ n ih =>
    cases i with
    | zero => exact List.mem_cons_self
    | succ i =>
      rw [show k + (i + 1) = k + 1 + i by omega]
      exact List.mem_cons_of_mem _ (ih (Nat.lt_of_succ_lt_succ h))

/-- A junction sensor at 110 °C, or a stack at 98 °C, brings THERMAL_HARD into force. -/
theorem Pwr.why_judgeHard {x : Pwr} (now : Nat)
    (h : (∃ i, i < 48 ∧ 110 ≤ sget 0 x.junction i) ∨ (∃ i, i < 20 ∧ 98 ≤ sget 0 x.stackT i)) :
    (x.judgeHard now).why Why.thermalHard = true := by
  have hhot : (x.junctions.any (fun t => decide (110 ≤ t)) || x.stacks.any (fun t => decide (98 ≤ t))) = true := by
    rw [Bool.or_eq_true, List.any_eq_true, List.any_eq_true]
    refine h.imp (fun ⟨i, hi, ht⟩ => ⟨_, ?_, decide_eq_true ht⟩) (fun ⟨i, hi, ht⟩ => ⟨_, ?_, decide_eq_true ht⟩)
    · exact Nat.zero_add i ▸ mem_sgets 0 x.junction hi
    · exact Nat.zero_add i ▸ mem_sgets 0 x.stackT hi
  rw [Pwr.judgeHard, hhot, Pwr.judge_enter]
  exact x.why_begin_same _
theorem Pwr.judgeKey_junction (x : Pwr) (key now : Nat) (enter exit : Bool) : (x.judgeKey key now enter exit).junction = x.junction := by
  cases enter <;> rfl
theorem Pwr.judgeKey_stackT (x : Pwr) (key now : Nat) (enter exit : Bool) : (x.judgeKey key now enter exit).stackT = x.stackT := by
  cases enter <;> rfl

/-! ### Samples -/

/-- What a sample of a junction sensor makes of the controller's registers. -/
def Pwr.sampleJunction (x : Pwr) (i temp now : Nat) : Pwr :=
  let y := { x with junction := sset 0 x.junction i temp }
  (y.judgeKey (sensorKey i) now (decide (105 ≤ temp)) ((sensorsOf (sensorKey i)).all (fun j => decide (sget 0 y.junction j ≤ 103)))).judgeHard now
/-- What a sample of a stack makes of them. -/
def Pwr.sampleStack (x : Pwr) (i temp now : Nat) : Pwr :=
  let y := { x with stackT := sset 0 x.stackT i temp }
  (y.judgeKey (stackKey i) now (decide (95 ≤ temp)) (decide (temp ≤ 92))).judgeHard now
@[simp] theorem Pwr.sampleJunction_sleep (x : Pwr) (i temp now : Nat) : (x.sampleJunction i temp now).sleep = x.sleep := by
  simp [Pwr.sampleJunction]
@[simp] theorem Pwr.sampleStack_sleep (x : Pwr) (i temp now : Nat) : (x.sampleStack i temp now).sleep = x.sleep := by
  simp [Pwr.sampleStack]
theorem Pwr.why_sampleJunction_soft (x : Pwr) (i now : Nat) {temp : Nat} (h : 105 ≤ temp) :
    (x.sampleJunction i temp now).why Why.thermalSoft = true := by
  have hsoft : keyReason (sensorKey i) = Why.thermalSoft := if_pos (by rw [sensorKey]; omega)
  rw [Pwr.sampleJunction, Pwr.why_judgeHard_ne _ _ (by decide), decide_eq_true h, ← hsoft]
  exact Pwr.why_judgeKey_enter _ _ _ _
theorem Pwr.why_sampleStack_hot (x : Pwr) (i now : Nat) {temp : Nat} (h : 95 ≤ temp) :
    (x.sampleStack i temp now).why Why.stackTemp = true := by
  have hhot : keyReason (stackKey i) = Why.stackTemp := if_neg (by rw [stackKey]; omega)
  rw [Pwr.sampleStack, Pwr.why_judgeHard_ne _ _ (by decide), decide_eq_true h, ← hhot]
  exact Pwr.why_judgeKey_enter _ _ _ _

/-- A sample judges its reasons, moves the thermal cap of its section, and moves the beds while the controller runs. -/
theorem exec_junctionSensorSample {i : Nat} (hi : i < 48) (temp : Nat) (s : State) :
    let u := s.setPwr (s.pwr.sampleJunction i temp s.tim.up)
    let v := if i < 40 then u.thermCap (i / 4) temp else u
    exec (.junctionSensorSample i temp) s = .next (if s.powered then v.moveBeds else v) := by
  intro u v
  have hpowered : v.powered = s.powered := by
    have hu : u.powered = s.powered := State.powered_congr rfl (s.pwr.sampleJunction_sleep i temp s.tim.up)
    by_cases h : i < 40
    · rw [← hu, ← u.powered_thermCap (i / 4) temp]
      exact congrArg State.powered (if_pos h)
    · rw [← hu]
      exact congrArg State.powered (if_neg h)
  rw [← hpowered]
  exact onUnit_of_lt _ _ _ _ hi
theorem exec_stackTempSample {i : Nat} (hi : i < 20) (temp : Nat) (s : State) :
    let u := s.setPwr (s.pwr.sampleStack i temp s.tim.up)
    exec (.stackTempSample i temp) s = .next (if s.powered then u.moveBeds else u) := by
  intro u
  have hpowered : u.powered = s.powered := State.powered_congr rfl (s.pwr.sampleStack_sleep i temp s.tim.up)
  rw [← hpowered]
  exact onUnit_of_lt _ _ _ _ hi

/-! ### A thermal trip -/

/-- A port after a loss of the die's power: what its cable and boot flash keep, in the state that the loss leaves it in. -/
def State.deadLink (s : State) (port : LinkState → LinkState) (n : Nat) : Link :=
  { (s.link n).kept with state := port (s.link n).state }
theorem State.dieOff_links (s : State) (port : LinkState → LinkState) :
    (s.dieOff port).links = (List.range 48).foldl (fun m n => sset {} m n (s.deadLink port n)) [] := by
  simp only [State.dieOff, State.deadLink]
theorem State.dieOff_link (s : State) (port : LinkState → LinkState) (hport : ∀ x, port x ≠ .off) {n : Nat} (hn : n < 48) :
    (s.dieOff port).link n = s.deadLink port n := by
  have hlisted : ∀ n, s.deadLink port n ≠ {} := fun _ h => hport _ (congrArg Link.state h)
  rw [State.link, State.dieOff_links, sget_foldl_sset {} (s.deadLink port) hlisted _ _ (.inl (List.mem_range.2 hn))]
theorem State.unpowered_link (s : State) {n : Nat} (hn : n < 48) : (s.unpowered.link n).state = .fenced := by
  have hlink : s.unpowered.link n = (s.dieOff (fun _ => .fenced)).link n := by rw [State.unpowered, State.link, State.link]
  rw [hlink, s.dieOff_link _ (fun _ => LinkState.noConfusion) hn]
  rfl
theorem State.unpowered_slu_ready (s : State) (n : Nat) : (s.unpowered.slu n).ready = false := by
  simp only [State.slu, State.unpowered, State.dieOff]
  refine sget_smap {} (fun x : Sluice => x.ready = false) _ rfl ?_ s.sluices n
  intros
  rfl
/-- The rails are gone and with them what the beds and the cores held; Chrysalis, the host, the tenancies and fabric time stay. -/
theorem State.unpowered_fields (s : State) : s.unpowered.mon.rails = false ∧ s.unpowered.mon.tripped = true ∧ s.unpowered.pwr.bedPoint = [] ∧
    s.unpowered.cores = [] ∧ s.unpowered.chr = s.chr ∧ s.unpowered.hostMem = s.hostMem ∧ s.unpowered.parts = s.parts ∧
    s.unpowered.tim = s.tim :=
  ⟨rfl, rfl, rfl, rfl, rfl, rfl, rfl, rfl⟩
theorem State.unpowered_alive (s : State) : s.unpowered.alive = s.alive := rfl

/-- A status taken by number from the list of those that the spec defines is one of them. -/
theorem statusDefined_getD_mem (v : Nat) : Status.defined.getD (v % Status.defined.length) Status.timeout ∈ Status.defined := by
  have hlt : v % Status.defined.length < Status.defined.length := Nat.mod_lt _ (by decide)
  rw [List.getD_eq_getElem _ _ hlt]
  exact List.getElem_mem hlt

/-- A sensor at 118 °C removes the power of the die, with Monarch's record where its ROM runs. -/
theorem exec_thermalTrip {i : Nat} {s : State} (hi : i < 48) (hhot : 118 ≤ sget 0 s.pwr.junction i) (hswitch : s.mon.switch = true)
    (htripped : s.mon.tripped = false) : ∃ ras free, exec (.thermalTrip i) s = .next { s.unpowered with ras, free } ∧
      (s.mon.silent = true → ras = s.ras) ∧ (s.mon.silent = false → ∃ r, ras.inbox = s.ras.inbox ++ [r] ∧ r.status ∈ Status.defined ∧
        r.sev = Sev.devFatal ∧ r.block = Blk.pwr) := by
  have hacts : ¬((!s.mon.switch) = true ∨ s.mon.tripped = true ∨ sget 0 s.pwr.junction i < 118) := by
    rintro (hopen | hdone | hcool)
    · simp [hswitch] at hopen
    · simp [htripped] at hdone
    · exact Nat.not_lt.2 hhot hcool
  have halive : s.unpowered.alive = !s.mon.silent := by rw [State.unpowered_alive, State.alive, hswitch, Bool.true_and]
  have hras : s.unpowered.ras = s.ras := rfl
  have hexec : exec (.thermalTrip i) s = execThermalTrip i s := rfl
  rw [hexec, execThermalTrip, onUnit_of_lt _ _ _ _ hi, if_neg hacts]
  generalize s.unpowered = u at *
  cases hsilent : s.mon.silent
  case true =>
    have hdead : (!u.alive) = true := by rw [halive, hsilent]; rfl
    exact ⟨u.ras, u.free, congrArg _ (if_pos hdead), fun _ => hras, nofun⟩
  case false =>
    have hlive : ¬(!u.alive) = true := by rw [halive, hsilent]; decide
    refine ⟨_, _, congrArg _ (if_neg hlive), nofun, fun _ => ?_⟩
    rw [← hras]
    exact ⟨_, rfl, statusDefined_getD_mem _, rfl, rfl⟩

end Sys2Proof.Machine
end

section
/-! SUPPORT. The bounds that the effective limit keeps (01 R35, R36; 16 R427, R444). -/

namespace Sys2Proof.Machine
variable (x : Pwr)

/-- The limit is at most what the cap and Boost allow. -/
theorem Pwr.limitNow_le_base : x.limitNow ≤ if x.boostOn then x.effCap else min x.effCap 2900 := by
  simp only [Pwr.limitNow]
  split <;> split <;> omega
theorem Pwr.limitNow_le_effCap : x.limitNow ≤ x.effCap := by
  refine x.limitNow_le_base.trans ?_
  split <;> omega
theorem Pwr.limitNow_le_of_not_boostOn (h : x.boostOn = false) : x.limitNow ≤ 2900 := by
  refine x.limitNow_le_base.trans ?_
  rw [h]
  exact Nat.min_le_right _ _
theorem Pwr.limitNow_le_of_sag (h : x.why Why.supplySag = true) : x.limitNow ≤ 1800 := by
  simp only [Pwr.limitNow, h, if_true]
  split <;> omega
/-- Above 44.0 °C the inlet takes 500 W or more from 2,900 W. -/
theorem Pwr.limitNow_le_of_inlet (h : x.why Why.inletHigh = true) (hinlet : 440 < x.inlet) : x.limitNow ≤ 2400 := by
  have hcap : inletCap x.inlet ≤ 2400 := by
    rw [inletCap]
    omega
  simp only [Pwr.limitNow, h, if_true]
  exact (Nat.min_le_right _ _).trans hcap

end Sys2Proof.Machine
end

section
open Sys2Proof Sys2Proof.Machine

/-- Settles O46: a command of the controller, of a sensor or of the comparator follows its branches; the common point moves in one of three
ways (Pwr.move_down, move_up, move_stay); a reason judged after another leaves that one's bit alone (Pwr.why_begin_ne); a group that has not
cooled keeps its reason in force (Pwr.expire_grouped_rest); and a trip is a loss of the die's power (exec_thermalTrip). -/
theorem powerRows : Obligations.PowerRows := by
  unfold Obligations.PowerRows
  refine ⟨?period, ?move, ?gain, ?bed, ?sensor, ?coolant, ?hold, ?trip, ?limit⟩
  case period =>
    intro activity s
    refine ⟨fun hdead => ?_, fun halive hoff => ?_, fun hon => ?_⟩
    · show execControllerPeriod activity s = _
      simp [execControllerPeriod, hdead]
    · show execControllerPeriod activity s = _
      simp [execControllerPeriod, halive, hoff]
    · show execControllerPeriod activity s = _
      simp only [execControllerPeriod, State.alive_of_powered hon, hon, Bool.not_true, Bool.false_eq_true, if_false, Bool.decide_and,
        Bool.decide_or, decide_not]
      rfl
  case move =>
    intro pred now x hpoint y l
    by_cases hdown : l < pred.getD x.point 0 ∧ 0 < x.point
    · have hy : y = { x with point := highest pred l (x.point - 1), downAt := some now } := Pwr.move_down hdown.1 hdown.2
      have hlt : highest pred l (x.point - 1) < x.point := Nat.lt_of_le_pred hdown.2 (highest_le pred l (x.point - 1))
      rw [hy]
      exact ⟨fun _ _ => ⟨hlt, highest_fits pred l _, rfl, fun p hp hpx => lt_pred_of_highest_lt hp (Nat.le_pred_of_lt hpx)⟩,
        fun hfits => absurd hdown.1 (Nat.not_lt.2 hfits), (Nat.le_of_lt hlt).trans (Nat.le_succ _), (Nat.le_of_lt hlt).trans hpoint,
        fun hup => absurd hup (Nat.ne_of_lt (Nat.lt_succ_of_lt hlt)), rfl⟩
    · by_cases hrise : x.mayRise pred now
      · have hy : y = { x with point := x.point + 1 } := Pwr.move_up hrise
        obtain ⟨hlast, hnext, -, hrested⟩ := hrise
        rw [hy]
        exact ⟨fun hover hpos => absurd ⟨hover, hpos⟩ hdown, fun _ _ _ _ => rfl, Nat.le_refl _, hlast, fun _ => ⟨hnext, hrested⟩, rfl⟩
      · have hy : y = x := Pwr.move_stay hdown hrise
        rw [hy]
        exact ⟨fun hover hpos => absurd ⟨hover, hpos⟩ hdown, fun hfits hlast hnext hrested => absurd ⟨hlast, hnext, hfits, hrested⟩ hrise,
          Nat.le_succ _, hpoint, fun hup => absurd hup (Nat.ne_of_lt (Nat.lt_succ_self _)), rfl⟩
  case gain =>
    intro volts amps s
    refine ⟨fun hoff => ?_, fun hon => ⟨fun hest => ?_, fun hest => ⟨(Config.freeValue s.free).toNat, ?_⟩⟩⟩
    · show execGainCalibration volts amps s = _
      simp [execGainCalibration, hoff]
    · show execGainCalibration volts amps s = _
      simp only [execGainCalibration, hon, Bool.not_true, Bool.false_eq_true, if_false, if_neg hest]
    · show execGainCalibration volts amps s = _
      simp only [execGainCalibration, hon, Bool.not_true, Bool.false_eq_true, if_false, if_pos hest]
      rfl
  case bed =>
    intro b s hb cur
    refine ⟨fun hon hcur hlow hrisen => ?_, fun hstay => ?_, fun hon hcur => ?_, fun hstay => ?_, fun hnone => ?_,
      fun hlong => ⟨fun hlast => ?_, fun hmore => ?_⟩⟩
    · refine (onUnit_of_lt _ _ _ _ hb).trans (congrArg _ (if_neg ?_))
      rintro (hoff | hgated | hdone | hrose)
      · simp [hon] at hoff
      · exact hcur hgated
      · exact Nat.not_le.2 hlow hdone
      · exact ne_true_of_eq_false hrisen hrose
    · refine (onUnit_of_lt _ _ _ _ hb).trans (congrArg _ (if_pos ?_))
      simpa using hstay
    · refine (onUnit_of_lt _ _ _ _ hb).trans (congrArg _ (if_neg ?_))
      simp [hon, hcur, cur]
    · refine (onUnit_of_lt _ _ _ _ hb).trans (congrArg _ (if_pos ?_))
      simpa using hstay
    · refine (onUnit_of_lt _ _ _ _ hb).trans (congrArg _ (if_pos ?_))
      simp [hnone]
    · refine (onUnit_of_lt _ _ _ _ hb).trans (congrArg _ ((if_neg (by simp [hlong])).trans ?_))
      exact congrArg s.setPwr (if_pos (List.isEmpty_iff.2 hlast))
    · refine (onUnit_of_lt _ _ _ _ hb).trans (congrArg _ ((if_neg (by simp [hlong])).trans ?_))
      exact congrArg s.setPwr (if_neg (fun hempty => hmore (List.isEmpty_iff.1 hempty)))
  case sensor =>
    intro i t s now moved
    constructor
    · intro hi key group x y u
      have hy : y.judgeHard now = s.pwr.sampleJunction i t now := by
        rw [Pwr.sampleJunction, sensorsOf_sensorKey hi]
        rfl
      have hu : u = s.setPwr (s.pwr.sampleJunction i t now) := congrArg s.setPwr hy
      rw [hy, hu]
      refine ⟨exec_junctionSensorSample hi t s, fun ht => Pwr.why_sampleJunction_soft s.pwr i now ht, fun ht hread => ?_⟩
      exact Pwr.why_judgeHard now (.inl ⟨i, hi, by rwa [Pwr.judgeKey_junction, hread]⟩)
    · intro hi x y
      refine ⟨exec_stackTempSample hi t s, fun ht => Pwr.why_sampleStack_hot s.pwr i now ht, fun ht hread => ?_⟩
      exact Pwr.why_judgeHard now (.inr ⟨i, hi, by rwa [Pwr.judgeKey_stackT, hread]⟩)
  case coolant => exact fun a b s => rfl
  case hold =>
    intro k s hk passed
    have hpassed : ∀ key, s.pwr.heldKey key k s.tim.up = true ↔ passed key := fun key => s.pwr.heldKey_iff key k s.tim.up
    refine ⟨fun hdroop => ?_, fun hlt hsoft hstack => ?_, fun hgrouped => ?_⟩
    · exact exec_throttleHoldExpiry_stays hk (.inl hdroop)
    · have hsingle : ¬(k = Why.thermalSoft ∨ k = Why.stackTemp) := not_or.2 ⟨hsoft, hstack⟩
      have hexpires : s.pwr.expires k s.tim.up = true ↔ passed k := by rw [Pwr.expires_single _ hsingle, hpassed k]
      refine ⟨fun hno => exec_throttleHoldExpiry_stays hk (.inr (mt hexpires.1 hno)), fun hyes => ?_⟩
      rw [exec_throttleHoldExpiry hlt (hexpires.2 hyes), Pwr.expire_single _ hsingle]
    · have hkind : k = Why.thermalSoft ∨ k = Why.stackTemp := hgrouped
      intro mine
      have hexpires : s.pwr.expires k s.tim.up = true ↔ ∃ key ∈ mine, passed key :=
        (Pwr.expires_grouped _ hkind).trans (exists_congr (fun key => and_congr_right' (hpassed key)))
      refine ⟨fun hnone => ?_, fun hsome => ⟨s.pwr.expire k s.tim.up, ?_, ?_, fun key => ?_, fun hrest => ?_, fun hall => ?_⟩⟩
      · exact exec_throttleHoldExpiry_stays hk (.inr (mt hexpires.1 (fun ⟨key, hmem, hyes⟩ => hnone key hmem hyes)))
      · have hsag : ¬(k = 6 ∧ (s.pwr.expire k s.tim.up).boost = true ∧ 300 < (s.pwr.expire k s.tim.up).inlet) := by omega
        rw [exec_throttleHoldExpiry (by omega) (hexpires.2 hsome), if_neg hsag]
      · exact Pwr.expire_grouped_hot _ hkind
      · exact Pwr.mem_cooled.trans (and_congr_right' (hpassed key))
      · rw [Pwr.expire_grouped_hot _ hkind]
        exact Pwr.expire_grouped_rest _ hkind (hrest.imp (fun key h => h.imp_right (mt (hpassed key).1)))
      · rw [Pwr.expire_grouped_hot _ hkind]
        exact Pwr.expire_grouped_last _ hkind (fun key hmem => (hpassed key).2 (hall key hmem))
  case trip =>
    intro i s hi
    refine ⟨fun hno => ?_, fun hhot hswitch huntripped => ?_⟩
    · refine (onUnit_of_lt _ _ _ _ hi).trans (congrArg _ (if_pos ?_))
      simpa using hno
    · obtain ⟨ras, free, hexec, hsilent, hrecord⟩ := exec_thermalTrip hi hhot hswitch huntripped
      obtain ⟨hrails, htripped, hbeds, hcores, hchr, hmem, hparts, htim⟩ := s.unpowered_fields
      have hlinks : ∀ n, n < 48 → (s.unpowered.link n).state = .fenced := fun n hn => s.unpowered_link hn
      have hsluices : ∀ n, n < 20 → (s.unpowered.slu n).ready = false := fun n _ => s.unpowered_slu_ready n
      generalize s.unpowered = u at *
      exact ⟨_, hexec, hrails, htripped, hlinks, hbeds, hcores, hsluices, hchr, hmem, hparts, htim, rfl, hsilent, hrecord⟩
  case limit =>
    exact fun x => ⟨x.limitNow_le_effCap, x.limitNow_le_of_not_boostOn, x.limitNow_le_of_sag, x.limitNow_le_of_inlet⟩
end

section
/-! SUPPORT. The supply and sleep (16 R420, R432-R434, R444): when the switch may close, how an order of the District is taken, who reaches
Monarch with a sleep command, and what a power-gated die stretches. -/

namespace Sys2Proof.Machine

theorem State.mayClose_iff {s : State} : s.mayClose = true ↔
    s.mon.en = true ∧ s.mon.switch = false ∧ s.mon.overvolt = false ∧ 480 ≤ s.pwr.input ∧ s.pwr.input ≤ 580 := by
  simp [State.mayClose, and_assoc]

/-! ### Orders and commands -/

section
variable {s : State} {wake : Bool}

theorem State.takeOrder_of_order {p : Packet} (h : s.orderIn wake = some p) : s.takeOrder true wake = some (s.takeInbox p) := by
  simp [State.takeOrder, h]
/-- The route master's own order needs no packet (assumption 36). -/
theorem State.takeOrder_of_master (h : s.orderIn wake = none) (hmaster : s.hwk.master = true) : s.takeOrder true wake = some s := by
  simp [State.takeOrder, h, hmaster]
theorem State.takeOrder_of_none (h : s.orderIn wake = none) (hmaster : s.hwk.master = false) : s.takeOrder true wake = none := by
  simp [State.takeOrder, h, hmaster]
/-- Taking an order leaves all but the inbox as it was. -/
theorem State.takeOrder_eq {district : Bool} {t : State} (h : s.takeOrder district wake = some t) : t = { s with hwk := t.hwk } := by
  rw [State.takeOrder] at h
  split at h
  case isTrue => cases h; rfl
  case isFalse =>
    split at h
    case h_1 => cases h; rfl
    case h_2 =>
      split at h
      case isTrue => cases h; rfl
      case isFalse => cases h
end

/-- A sleep command on a path, or an order of the District, reaches Monarch. -/
def State.hears (s : State) (path : Path) (district : Bool) : Prop :=
  if district then s.alive = true else isOperator path = true ∧ s.reach path = true

section
variable {path : Path} {district : Bool} {s : State} (f : State)

theorem deaf_iff_not_hears : (if district then !s.alive else !isOperator path || !s.reach path) = true ↔ ¬s.hears path district := by
  rw [State.hears]
  cases district <;> simp [Classical.or_iff_not_imp_left]
theorem sleepCmd_deaf (h : ¬s.hears path district) : sleepCmd path district s f = s := if_pos (deaf_iff_not_hears.2 h)
theorem sleepCmd_unready (h : s.hears path district) (hphase : s.mon.phase ≠ .ready) :
    sleepCmd path district s f = s.setSleep s.pwr.sleep Status.state :=
  (if_neg (fun hdeaf => deaf_iff_not_hears.1 hdeaf h)).trans (if_neg hphase)
theorem sleepCmd_ready (h : s.hears path district) (hphase : s.mon.phase = .ready) : sleepCmd path district s f = f :=
  (if_neg (fun hdeaf => deaf_iff_not_hears.1 hdeaf h)).trans (if_pos hphase)
end

/-- An order of the District that has not come changes nothing. -/
theorem exec_pwrSleepEnter_of_none {s : State} {path : Path} {district : Bool} (h : s.takeOrder district false = none) :
    exec (.pwrSleepEnter path district) s = .next s := by
  have hexec : exec (.pwrSleepEnter path district) s = execPwrSleepEnter path district s := rfl
  rw [hexec, execPwrSleepEnter, h]
  rfl
theorem exec_pwrSleepWake_of_none {s : State} {path : Path} {district : Bool} (h : s.takeOrder district true = none) :
    exec (.pwrSleepWake path district) s = .next s := by
  have hexec : exec (.pwrSleepWake path district) s = execPwrSleepWake path district s := rfl
  rw [hexec, execPwrSleepWake, h]
  rfl
theorem exec_pwrSleepEnter {s t : State} {path : Path} {district : Bool} (h : s.takeOrder district false = some t) :
    exec (.pwrSleepEnter path district) s = .next (sleepEnter path district t) := by
  have hexec : exec (.pwrSleepEnter path district) s = execPwrSleepEnter path district s := rfl
  rw [hexec, execPwrSleepEnter, h]
  rfl
theorem exec_pwrSleepWake {s t : State} {path : Path} {district : Bool} (h : s.takeOrder district true = some t) :
    exec (.pwrSleepWake path district) s = .next (sleepWake path district t) := by
  have hexec : exec (.pwrSleepWake path district) s = execPwrSleepWake path district s := rfl
  rw [hexec, execPwrSleepWake, h]
  rfl

/-! ### A die that is power-gated stretches no clock -/

section
variable {x : Pwr} (hbeds : x.bedPoint = [])

@[simp] theorem Pwr.gated_bedPoint (x : Pwr) : x.gated.bedPoint = x.bedPoint := by
  rw [Pwr.gated]
  split <;> rfl
include hbeds
theorem Pwr.filter_stretched_nil : x.stretched.filter (fun e => sget 0 x.bedPoint e.1 ≠ 0) = [] := by
  simp [hbeds]
theorem Pwr.gated_stretched : x.gated.stretched = [] := by
  rw [Pwr.gated, Pwr.filter_stretched_nil hbeds]
  split <;> rfl
theorem Pwr.gated_why_droop (hstretched : x.stretched ≠ []) : x.gated.why Why.droop = false := by
  rw [Pwr.gated, Pwr.filter_stretched_nil hbeds, if_pos (by simpa using hstretched)]
  exact x.why_finish_same Why.droop
end

end Sys2Proof.Machine
end

section
open Sys2Proof Sys2Proof.Machine

/-- Settles O47: a command of the supply or of a register follows its branches, once the fields that the command extracts are read as those of
the statement (bit_eq_testBit); a sleep command or order acts on the state that State.takeOrder leaves, which differs from the one before in
the inbox alone (State.takeOrder_eq), so that what the statement says of the earlier state's sleep, partitions and clock holds of it. -/
theorem supplyAndSleepRows : Obligations.SupplyAndSleepRows := by
  unfold Obligations.SupplyAndSleepRows
  refine ⟨?supply, ?sag, ?registers, ?sleep, ?ends⟩
  case supply =>
    intro s
    refine ⟨fun hclosed => ?_, fun hopen => ?_, fun hno => ?_, ⟨fun hover hen hopen => ?_, fun hover hstay => ?_⟩, fun halive htrip => ?_,
      fun hheld => ?_, ⟨fun hopen => ?_, fun hclosed => ?_⟩, ?high⟩
    · exact congrArg _ (if_pos hclosed)
    · exact congrArg _ (if_neg (ne_true_of_eq_false hopen))
    · exact congrArg _ (if_pos (by simp [hno]))
    · exact congrArg _ ((if_neg (by simp [hover])).trans (if_pos ⟨hen, by simp [hopen]⟩))
    · refine congrArg _ ((if_neg (by simp [hover])).trans (if_neg ?_))
      rintro ⟨hen, hopen⟩
      obtain hlow | hclosed := hstay
      · exact ne_true_of_eq_false hlow hen
      · simp [hclosed] at hopen
    · refine congrArg _ (if_pos ?_)
      simp [State.resets, halive, htrip]
    · refine congrArg _ (if_neg ?_)
      simpa [State.resets, Classical.or_iff_not_imp_left] using hheld
    · show execEnPin false s = _
      simp [execEnPin, hopen]
    · have hexec : exec (.enPin false) s = execEnPin false s := rfl
      rw [hexec, execEnPin]
      simp only [Bool.false_eq_true, if_false, if_pos hclosed]
      exact ⟨_, rfl, rfl, rfl, rfl, rfl, rfl, rfl⟩
    case high =>
      intro high closes
      have hmay : high.mayClose = true ↔ closes := State.mayClose_iff.trans (and_iff_right rfl)
      exact ⟨fun hcloses => congrArg _ (if_pos (hmay.2 hcloses)), fun hstays => congrArg _ (if_neg (mt hmay.1 hstays))⟩
  case sag =>
    intro v s x
    refine ⟨fun hlow => ?fall, fun hhigh => ?above⟩
    case fall =>
      intro told
      have hrises : (true && (!s.pwr.why Why.supplySag || decide (s.pwr.warn ≤ s.pwr.input)) && s.alive) = true ↔ told := by
        simp [told, Why.supplySag]
      refine ⟨fun htold => ?_, fun hnot => ?_⟩
      · show execSupplySag v s = _
        rw [execSupplySag, decide_eq_true hlow]
        exact congrArg _ (if_pos (hrises.2 htold))
      · show execSupplySag v s = _
        rw [execSupplySag, decide_eq_true hlow]
        exact congrArg _ (if_neg (mt hrises.1 hnot))
    case above =>
      show execSupplySag v s = _
      rw [execSupplySag, decide_eq_false (Nat.not_lt.2 hhigh)]
      rfl
  case registers =>
    intro path v s cap boost w
    have hcap : bits v.toNat 0 12 = cap := by simp [bits, cap]
    have hboost : bit v.toNat 12 = boost := bit_eq_testBit v.toNat 12
    have hw : bits v.toNat 9 9 = w := by simp [bits, w]
    have hr : bits v.toNat 0 9 = v.toNat % 512 := by simp [bits]
    have hcapWrite : exec (.pwrCapWrite path v) s = .next (pwrCapSet path v s) := rfl
    have hsagWrite : exec (.pwrSagWrite path v) s = .next (pwrSagSet path v s) := rfl
    rw [hcapWrite, hsagWrite, pwrCapSet, pwrSagSet, hcap, hboost, hw, hr, bit_eq_testBit]
    refine ⟨?blind, fun hop hreach => ?_⟩
    case blind =>
      intro h
      have hblind : (!isOperator path) = true ∨ (!s.reach path) = true := by simpa using h
      exact ⟨congrArg _ (if_pos hblind), congrArg _ (if_pos (hblind.imp_right .inl))⟩
    have hsees : ¬((!isOperator path) = true ∨ (!s.reach path) = true) := by simp [hop, hreach]
    rw [if_neg hsees]
    have hserves : s.served2 = true → ¬(!s.served2) = true := fun h => by simp [h]
    have hinside : 1800 ≤ cap → cap ≤ 3400 → ¬(cap < 1800 ∨ 3400 < cap) := by omega
    refine ⟨fun hserved => ?_, fun hserved hout => ?_, fun hserved hge hle hb hin => ?_, fun hserved hge hle hno => ?_,
      fun hlock hw1 hw2 hr1 hr2 hgap => ?_, fun hrefused => ?_⟩
    · exact congrArg _ (if_pos (by simp [hserved]))
    · exact congrArg _ ((if_neg (hserves hserved)).trans (if_pos hout))
    · exact congrArg _ ((if_neg (hserves hserved)).trans ((if_neg (hinside hge hle)).trans (if_pos ⟨hb, hin⟩)))
    · refine congrArg _ ((if_neg (hserves hserved)).trans ((if_neg (hinside hge hle)).trans (if_neg ?_)))
      rintro ⟨hb, hin⟩
      obtain hb' | hin' := hno
      · exact ne_true_of_eq_false hb' hb
      · exact Nat.not_lt.2 hin' hin
    · refine congrArg _ (if_neg ?_)
      simp only [hop, hreach, hlock, Bool.not_true, Bool.false_eq_true, false_or]
      omega
    · exact congrArg _ (if_pos (.inr (.inr hrefused)))
  case sleep =>
    intro path s t district ordered comes heard go from3ms
    have htake : ∀ wake, comes wake → s.takeOrder district wake = some t := by
      intro wake h
      have hordered : s.orderIn wake = ordered wake := rfl
      cases hord : ordered wake with
      | none =>
        rw [hord] at hordered
        simp only [comes, hord] at h
        obtain ⟨rfl, hcommand | hmaster⟩ := h
        · rw [hcommand]
          rfl
        · cases district
          case false => rfl
          case true => exact State.takeOrder_of_master hordered hmaster
      | some p =>
        rw [hord] at hordered
        simp only [comes, hord] at h
        cases district
        case false => exact congrArg some h.symm
        case true => exact (State.takeOrder_of_order hordered).trans (congrArg some h.symm)
    have hkeeps : ∀ wake, comes wake → ∃ k, t = { s with hwk := k } := fun wake h => ⟨_, State.takeOrder_eq (htake wake h)⟩
    refine ⟨fun wake hdistrict hnone hmaster => ?_, fun hcomes hdeaf => ?_, fun hcomes hdeaf => ?_, fun hcomes hheard hphase => ?_,
      fun hcomes hheard hphase => ?_, fun hcomes hheard hphase => ?_, fun hcomes hheard hphase => ?_⟩
    · have hno : s.takeOrder district wake = none := hdistrict ▸ State.takeOrder_of_none hnone hmaster
      cases wake
      case false => exact exec_pwrSleepEnter_of_none hno
      case true => exact exec_pwrSleepWake_of_none hno
    · obtain ⟨k, rfl⟩ := hkeeps _ hcomes
      exact (exec_pwrSleepEnter (htake _ hcomes)).trans (congrArg _ (sleepCmd_deaf _ hdeaf))
    · obtain ⟨k, rfl⟩ := hkeeps _ hcomes
      exact (exec_pwrSleepWake (htake _ hcomes)).trans (congrArg _ (sleepCmd_deaf _ hdeaf))
    · obtain ⟨k, rfl⟩ := hkeeps _ hcomes
      exact (exec_pwrSleepEnter (htake _ hcomes)).trans (congrArg _ (sleepCmd_unready _ hheard hphase))
    · obtain ⟨k, rfl⟩ := hkeeps _ hcomes
      exact (exec_pwrSleepWake (htake _ hcomes)).trans (congrArg _ (sleepCmd_unready _ hheard hphase))
    · obtain ⟨k, rfl⟩ := hkeeps _ hcomes
      have hhears : ({ s with hwk := k } : State).hears path district := hheard
      refine (exec_pwrSleepEnter (htake _ hcomes)).trans (congrArg _ ((sleepCmd_ready _ hhears hphase).trans ?_))
      dsimp only
      cases s.pwr.sleep <;> rfl
    · obtain ⟨k, rfl⟩ := hkeeps _ hcomes
      have hhears : ({ s with hwk := k } : State).hears path district := hheard
      refine (exec_pwrSleepWake (htake _ hcomes)).trans (congrArg _ ((sleepCmd_ready _ hhears hphase).trans ?_))
      dsimp only
      cases s.pwr.sleep <;> rfl
  case ends =>
    intro s
    refine ⟨fun hent => ?_, fun hno => ?_, fun hno => ?_, fun hw hdue => ?_⟩
    · have hexec : exec .diapauseEntryComplete s = execDiapauseEntryComplete s := rfl
      rw [hexec, execDiapauseEntryComplete, if_neg (not_not_intro hent)]
      exact ⟨_, rfl, rfl, rfl, rfl, Pwr.gated_bedPoint _, Pwr.gated_stretched rfl, fun hstretched => Pwr.gated_why_droop rfl hstretched⟩
    · exact congrArg _ (if_pos hno)
    · exact congrArg _ (if_pos hno)
    · refine congrArg _ (if_neg ?_)
      rintro (hother | hearly)
      · exact hother hw
      · exact Nat.not_lt.2 hdue hearly
end

section
/-! SUPPORT. The scalar unit (03 R81, R104): what becomes of a core whose instruction finishes or faults, and of the progress of its
partition (11 R323). -/

namespace Sys2Proof.Machine
open Sys2Proof.Claims

/-! ### The core written last -/

/-- A core other than the one at rest is read back as written, whatever the form of the store. -/
theorem State.setCore_core_of_ne (s : State) (c : Nat) {k : Core} (h : k ≠ {}) : (s.setCore c k).core c = k :=
  sget_sset_same _ _ _ _ h
/-- A core that has dispatched an instruction is not one at rest. -/
theorem Core.ne_default_of_dseq {k : Core} (h : k.dseq ≠ 0) : k ≠ {} := fun e => h (e ▸ rfl)
/-- A core that stops is not one at rest. -/
theorem Core.ne_default_of_stop {k : Core} (h : k.stop ≠ none) : k ≠ {} := fun e => h (e ▸ rfl)

/-! ### Faults -/

@[simp] theorem Core.setQ_dseq (k : Core) (u : Stn) (l : List QEntry) : (k.setQ u l).dseq = k.dseq := rfl
@[simp] theorem Core.flush_dseq (k : Core) : k.flush.dseq = k.dseq :=
  foldl_same Core.dseq _ (fun k u => k.setQ_dseq u _) stations k
/-- A fault keeps or takes over the record of a stop, and changes the count of instructions of nothing. -/
theorem Core.fault_dseq (k : Core) (status : Nat) (u : Stn) (pc seq : Nat) : (k.fault status u pc seq).dseq = k.dseq := by
  unfold Core.fault
  dsimp only
  split
  · split <;> exact k.flush_dseq
  · exact k.flush_dseq
/-- A core that has faulted stops. -/
theorem Core.fault_stop (k : Core) (status : Nat) (u : Stn) (pc seq : Nat) : (k.fault status u pc seq).stop ≠ none := by
  unfold Core.fault
  dsimp only
  split
  next h => split <;> simp [h]
  next => simp

/-! ### An instruction on a core that dispatches -/

section
variable {c : Nat} {s : State} {f : Core → State} {t : State}

/-- An instruction that the core counts makes its partition progress. -/
theorem State.dispatched_of_counted (h : (t.core c).dseq = (s.core c).dseq + 1) : s.dispatched c t = t.progress (s.partOf c) :=
  if_neg (by omega)
theorem State.dispatched_of_not_counted (h : (t.core c).dseq = (s.core c).dseq) : s.dispatched c t = t := if_pos h

theorem onScalar_counted (d : Dispatching c s) (hf : f (s.core c) = t) (h : (t.core c).dseq = (s.core c).dseq + 1) :
    onScalar c s f = .next (t.progress (s.partOf c)) := by
  rw [onScalar_dispatching c s f d.1 d.2, hf, State.dispatched_of_counted h]
/-- An instruction that does nothing but to change its core, and counts as dispatched. -/
theorem onScalar_coreNext {k : Core} (d : Dispatching c s) (hf : f (s.core c) = s.setCore c k) (h : k.dseq = (s.core c).dseq + 1) :
    onScalar c s f = coreNext c s k :=
  onScalar_counted d hf (by rw [State.setCore_core_of_ne s c (Core.ne_default_of_dseq (by omega)), h])
/-- An instruction that a check of the scalar unit stops. -/
theorem onScalar_fault {status : Nat} (d : Dispatching c s) (hf : f (s.core c) = s.setCore c ((s.core c).scalarFault status)) :
    onScalar c s f = .next (s.setCore c ((s.core c).scalarFault status)) := by
  rw [onScalar_dispatching c s f d.1 d.2, hf, State.dispatched_of_not_counted]
  have hne : (s.core c).scalarFault status ≠ {} := Core.ne_default_of_stop (Core.fault_stop _ _ _ _ _)
  rw [State.setCore_core_of_ne s c hne]
  exact Core.fault_dseq _ _ _ _ _

end

@[simp] theorem Core.setReg_dseq (k : Core) (r : Reg) (v : Word) : (k.setReg r v).dseq = k.dseq := by
  unfold Core.setReg
  split <;> rfl
@[simp] theorem Core.advance_dseq (k : Core) : k.advance.dseq = k.dseq + 1 := rfl

end Sys2Proof.Machine
end

section
/-! SUPPORT. Tokens, tile descriptors and configuration words (03 R81, R85), and the capability table (12 R337). -/

namespace Sys2Proof.Machine

/-- BASE is bits [19:0] of a descriptor: to clear it is to shift it out. -/
theorem clear_base (v : Word) : v &&& ~~~0xFFFFF#64 = v >>> 20 <<< 20 := by
  ext i hi
  simp only [BitVec.getElem_and, BitVec.getElem_not, BitVec.getElem_shiftLeft, BitVec.getElem_ushiftRight]
  have hmask : (0xFFFFF#64)[i] = decide (i < 20) := by
    revert hi; revert i; decide
  rw [hmask]
  by_cases h : i < 20
  · simp [h]
  · have e : 20 + (i - 20) = i := by omega
    simp [h, e, BitVec.getLsbD_eq_getElem hi]

theorem Core.d12_of_launch {k : Core} {l : Launch} (h : k.launch = some l) : k.d12 = l.d12 := by simp only [Core.d12, h]
theorem Core.censusOn_of_launch {k : Core} {l : Launch} (h : k.launch = some l) : k.censusOn = l.census := by
  simp only [Core.censusOn, h]

/-- A configuration word that its check takes is written. -/
theorem ccfg_of_ok {c : Nat} {sa : Reg} {i : BitVec 32} {s : State} {k : Core} (h : cfgCheck i (k.reg sa) = none) :
    ccfg c sa i s k = s.setCore c { k with cfg := k.cfg.set i.toNat (k.reg sa) }.advance := by
  simp only [ccfg, h]

/-- The capability table ends at entry 8. -/
theorem State.capEntry_beyond (s : State) (p : Option Nat) (d12 : Bool) (me : Nat) {i : Nat} (h : 9 ≤ i) : s.capEntry p d12 me i = none := by
  obtain ⟨j, rfl⟩ : ∃ j, i = j + 9 := ⟨i - 9, by omega⟩
  cases p <;> rfl
/-- The configuration words end at CTAG. -/
theorem Cfg.get_beyond (g : Cfg) {i : Nat} (h : 4 ≤ i) : g.get i = none := by
  obtain ⟨j, rfl⟩ : ∃ j, i = j + 4 := ⟨i - 4, by omega⟩
  rfl

end Sys2Proof.Machine
end

section
open Sys2Proof Sys2Proof.Machine Sys2Proof.Claims

/-- Settles O5: each row by what it does to its core, and onScalar_coreNext or onScalar_fault. -/
theorem scalarStateRows : Obligations.ScalarStateRows := by
  unfold Obligations.ScalarStateRows
  refine ⟨fun c sd sa t tk i s d => ?_, fun c sd i s d => ?_⟩
  · intro k a out td
    have hbase : k.td t &&& ~~~0xFFFFF#64 = k.td t >>> 20 <<< 20 := clear_base _
    refine ⟨fun hreached => ?tkw, ?tset, ?tbase, ?tget, fun hlo hhi hmod => ?chunk, ?seed, ?stream, fun hlt => ?ctag, ?nop⟩
    case tkw => exact onScalar_coreNext d (if_pos (decide_eq_true hreached)) rfl
    case tset => exact onScalar_coreNext d rfl rfl
    case tbase =>
      rw [← hbase]
      exact onScalar_coreNext d rfl rfl
    case tget => exact onScalar_coreNext d rfl (by rw [Core.advance_dseq, Core.setReg_dseq])
    case chunk => exact onScalar_coreNext d (ccfg_of_ok (if_pos ⟨hlo, hhi, hmod⟩)) rfl
    case seed => exact onScalar_coreNext d rfl rfl
    case stream => exact onScalar_coreNext d rfl rfl
    case ctag => exact onScalar_coreNext d (ccfg_of_ok (if_pos hlt)) rfl
    case nop => exact onScalar_coreNext (f := fun k => s.setCore c k.advance) d rfl rfl
  · intro k p me out
    have hreg : ∀ v, (k.setReg sd v).advance.dseq = k.dseq + 1 := fun v => by rw [Core.advance_dseq, Core.setReg_dseq]
    refine ⟨?id, ?cap0, fun hpart => ?cap2, ?cap3, ?cap5, fun hbeyond => ?capBeyond, ?cfg0, ?cfg3, fun hbeyond => ?cfgBeyond,
      fun l hlaunch => ?mode⟩
    case id => exact onScalar_coreNext d rfl (hreg _)
    case cap0 => exact onScalar_coreNext d rfl (hreg _)
    case cap2 => exact onScalar_coreNext d (by rw [cpCapOp, hpart]; rfl) (hreg _)
    case cap3 => exact onScalar_coreNext d rfl (hreg _)
    case cap5 => exact onScalar_coreNext d rfl (hreg _)
    case capBeyond => exact onScalar_fault d (by rw [cpCapOp, State.capEntry_beyond s _ _ _ hbeyond]; rfl)
    case cfg0 => exact onScalar_coreNext d rfl (hreg _)
    case cfg3 => exact onScalar_coreNext d rfl (hreg _)
    case cfgBeyond => exact onScalar_fault d (by rw [cpCfgOp, Cfg.get_beyond _ hbeyond]; rfl)
    case mode =>
      have hmode : cpModeOp c sd s k = s.setCore c (k.setReg sd (BitVec.ofNat 64 (b2n l.d12 + 2 * b2n l.census))).advance := by
        rw [cpModeOp, Core.d12_of_launch hlaunch, Core.censusOn_of_launch hlaunch]
      exact onScalar_coreNext d hmode (hreg _)
end

section
/-! SUPPORT. A core that halts (03 R104-R106; 02 R59): what unbinding its ends, stopping the other cores of its launch and completing the
launch leave as it was. -/

namespace Sys2Proof.Machine

/-! ### A store mapped entry by entry -/

section
variable {α : Type} [DecidableEq α] (d : α) (f : Nat → α → α)

/-- Keys below those of the store are written by no step of the map. -/
theorem sget_foldl_map_below {n k : Nat} (m r : Store α) (w : swfFrom d n m = true) (h : k < n) :
    sget d (m.foldl (fun r e => sset d r e.1 (f e.1 e.2)) r) k = sget d r k := by
  induction m generalizing n r with
  | nil => rfl
  | cons e m ih =>
    obtain ⟨j, v⟩ := e
    simp only [swfFrom, Bool.and_eq_true, decide_eq_true_eq] at w
    obtain ⟨⟨hj, -⟩, hm⟩ := w
    rw [List.foldl_cons, ih _ hm (by omega), sget_sset_ne d r j k _ (by omega)]
/-- A map that keeps the unlisted value acts key by key on a store in canonical form. -/
theorem sget_smap_wf (hd : ∀ k, f k d = d) {m : Store α} (w : swf d m = true) (k : Nat) : sget d (smap d f m) k = f k (sget d m k) := by
  have fold : ∀ (m : Store α) (n : Nat) (r : Store α), swfFrom d n m = true → swf d r = true → sget d r k = d →
      sget d (m.foldl (fun r e => sset d r e.1 (f e.1 e.2)) r) k = f k (sget d m k) := by
    intro m
    induction m with
    | nil => exact fun n r _ _ hr => hr.trans (hd k).symm
    | cons e m ih =>
      obtain ⟨j, v⟩ := e
      intro n r hm hr hk
      simp only [swfFrom, Bool.and_eq_true, decide_eq_true_eq] at hm
      obtain ⟨-, hm⟩ := hm
      by_cases hjk : k = j
      · subst hjk
        rw [List.foldl_cons, sget_foldl_map_below d f m _ hm (Nat.lt_succ_self k), sget_sset_wf d 0 r k _ hr]
        simp [sget]
      · rw [List.foldl_cons, ih (j + 1) _ hm (swf_sset d r j _ hr) ((sget_sset_ne d r j k _ hjk).trans hk)]
        simp [sget, hjk]
  exact fold m 0 [] w rfl rfl

end

/-! ### What a halt spares -/

section
variable {γ : Type} {g : Core → γ} {c : Nat} {s t : State}

/-- From s to t, the cores stay a store in canonical form, g of core c, sections, sluices, the Reservoir and host memory stay as they were. -/
structure Spares (g : Core → γ) (c : Nat) (s t : State) : Prop where
  cores : swf {} s.cores = true → swf {} t.cores = true
  core : swf {} s.cores = true → g (t.core c) = g (s.core c)
  secs : t.secs = s.secs
  sluices : t.sluices = s.sluices
  resv : t.resv = s.resv
  hostMem : t.hostMem = s.hostMem

theorem Spares.refl (g : Core → γ) (c : Nat) (s : State) : Spares g c s s := ⟨id, fun _ => rfl, rfl, rfl, rfl, rfl⟩
/-- A change of what the relation does not speak of. -/
theorem Spares.of_cores_eq {u : State} (h : Spares g c s t) (hcores : u.cores = t.cores) (hsecs : u.secs = t.secs)
    (hsluices : u.sluices = t.sluices) (hresv : u.resv = t.resv) (hhost : u.hostMem = t.hostMem) : Spares g c s u where
  cores := hcores ▸ h.cores
  core w := (congrArg (fun m => g (sget {} m c)) hcores).trans (h.core w)
  secs := hsecs.trans h.secs
  sluices := hsluices.trans h.sluices
  resv := hresv.trans h.resv
  hostMem := hhost.trans h.hostMem
/-- A core changed in what g does not see, or another core changed. -/
theorem Spares.setCore (h : Spares g c s t) {n : Nat} {k : Core} (hk : n = c → g k = g (t.core c)) : Spares g c s (t.setCore n k) where
  cores w := t.setCore_wf n k (h.cores w)
  core w := by
    by_cases hn : n = c
    · subst hn
      rw [t.setCore_core n k (h.cores w), hk rfl, h.core w]
    · rw [t.setCore_core_ne n c k (Ne.symm hn), h.core w]
  secs := h.secs
  sluices := h.sluices
  resv := h.resv
  hostMem := h.hostMem

theorem Spares.report (h : Spares g c s t) (r : Rec) : Spares g c s (t.report r) := h.of_cores_eq rfl rfl rfl rfl rfl
theorem Spares.sendCanal (h : Spares g c s t) (m : CanalMsg) : Spares g c s (t.sendCanal m) := h.of_cores_eq rfl rfl rfl rfl rfl
theorem Spares.purgeRunnel (h : Spares g c s t) (p rid : Nat) (items : Bool) : Spares g c s (t.purgeRunnel p rid items) :=
  h.of_cores_eq rfl rfl rfl rfl rfl
theorem Spares.clearRing (h : Spares g c s t) (d q : Nat) : Spares g c s (t.clearRing d q) := h.of_cores_eq rfl rfl rfl rfl rfl
theorem Spares.fabricCtl (h : Spares g c s t) (d : Nat) (x : Handle) (typ pos arg : Nat) : Spares g c s (t.fabricCtl d x typ pos arg) :=
  h.of_cores_eq rfl rfl rfl rfl rfl
theorem Spares.setRg (h : Spares g c s t) (e : Nat) (x : RGroup) : Spares g c s (t.setRg e x) := h.of_cores_eq rfl rfl rfl rfl rfl
theorem Spares.setQueue (h : Spares g c s t) (f q : Nat) (x : Queue) : Spares g c s (t.setQueue f q x) := h.of_cores_eq rfl rfl rfl rfl rfl
theorem Spares.dropWaits (h : Spares g c s t) (f : Who → Bool) : Spares g c s (t.dropWaits f) := h.of_cores_eq rfl rfl rfl rfl rfl
theorem Spares.stopSaved (h : Spares g c s t) (p f q status : Nat) : Spares g c s (t.stopSaved p f q status) := by
  unfold State.stopSaved
  split
  · exact h
  · exact h.of_cores_eq rfl rfl rfl rfl rfl
theorem Spares.auditHalt (h : Spares g c s t) (p rid : Nat) (prod cons : Nat × Nat) : Spares g c s (t.auditHalt p rid prod cons) := by
  unfold State.auditHalt
  dsimp only
  split
  · exact h.report _
  · exact h
theorem Spares.auditFabric (h : Spares g c s t) (d q : Nat) : Spares g c s (t.auditFabric d q) := by
  unfold State.auditFabric
  split
  · exact h
  · exact h.report _
theorem Spares.auditRed (h : Spares g c s t) (d : Nat) (x : Handle) : Spares g c s (t.auditRed d x) := by
  unfold State.auditRed
  split
  · exact h
  · exact h.report _

/-! ### An end of a core that halts -/

/-- The registers, the scratchpad and the slots of a core. -/
def Core.body (k : Core) : Store Word × Store Byte × Store Slot := (k.regs, k.pond, k.slots)

@[simp] theorem Core.setHandle_body (k : Core) (q : Nat) (h : Handle) : (k.setHandle q h).body = k.body := rfl
@[simp] theorem Core.rcloseDone_body (k : Core) (u : Stn) (q : Nat) : (k.rcloseDone u q).body = k.body := by
  unfold Core.rcloseDone
  repeat' split
  all_goals rfl

theorem Spares.setHandle (h : Spares Core.body c s t) (n q : Nat) (x : Handle) :
    Spares Core.body c s (t.setCore n ((t.core n).setHandle q x)) := h.setCore (by rintro rfl; rfl)
/-- A request withdrawn leaves every core but for the requests present at it. -/
theorem Spares.withdrawReq (h : Spares Core.body c s t) (p rid n : Nat) : Spares Core.body c s (t.withdrawReq p rid n) where
  cores _ := by
    unfold State.withdrawReq
    dsimp only
    exact swf_smap ..
  core w := by
    refine Eq.trans ?_ (h.core w)
    have hget := sget_smap_wf ({} : Core) (fun m k =>
      if t.partOf m = p then { k with reqs := k.reqs.filter (fun r => !(r.rid == rid && r.prodCore == n)) } else k)
      (fun m => by split <;> rfl) (h.cores w) c
    refine (congrArg Core.body hget).trans ?_
    split <;> rfl
  secs := h.secs
  sluices := h.sluices
  resv := h.resv
  hostMem := h.hostMem

/-- Unbinding an end spares the registers, the scratchpad and the slots of its core, also where the surviving end is one of the same core. -/
theorem Spares.haltEnd (h : Spares Core.body c s t) (q : Nat) : Spares Core.body c s (State.haltEnd c t q) := by
  unfold State.haltEnd
  dsimp only
  split
  case h_1 =>
    split
    · split
      · exact h.setHandle ..
      next pc pq _ =>
        split
        · refine ((h.auditHalt ..).setHandle ..).setCore ?_ |>.purgeRunnel ..
          rintro rfl
          split <;> simp
        · exact h.setHandle ..
    · split
      · split
        · split
          · exact ((h.setHandle ..).purgeRunnel ..).sendCanal _
          · exact (h.setHandle ..).withdrawReq ..
        · exact (h.setHandle ..).withdrawReq ..
      · exact (((h.auditHalt ..).purgeRunnel ..).setHandle ..).sendCanal _
      · exact ((h.auditHalt ..).setHandle ..).purgeRunnel ..
  case h_2 =>
    split
    · split
      · exact (((h.auditFabric ..).clearRing ..).setHandle ..).fabricCtl ..
      · exact ((h.auditFabric ..).clearRing ..).setHandle ..
    · split
      · exact (h.setHandle ..).fabricCtl ..
      · exact ((h.auditFabric ..).setHandle ..).fabricCtl ..
      · exact h.setHandle ..
  case h_3 =>
    refine Spares.setHandle ?_ ..
    split
    · split
      · exact h.auditRed ..
      · exact (h.auditRed ..).setRg ..
    · exact h.auditRed ..
  case h_4 => exact (h.auditRed ..).setHandle ..

/-! ### The halt of a core -/

/-- A core that has halted with a status, unit and offset (03 R104; 02 R70). -/
def Core.halted (k : Core) (status : Nat) (u : Stn) (pc : Nat) : Core := { k with
  run := false, halt := true, queues := [], waits := [], syPend := none, stop := none, lA := [], lB := [], lV := [], lO := [], lpos := []
  fstat := status, fstn := if status = 0 then .scalar else u, fpc := if status = 0 then 0 else pc }

/-- The state of a core that halts, with its ends unbound. -/
def State.endsGone (s : State) (c : Nat) : State :=
  (((s.core c).handles.filter (fun e => e.2.state ≠ .unbound)).map (·.1)).foldl (State.haltEnd c) s
theorem spares_endsGone (c : Nat) (s : State) : Spares Core.body c s (s.endsGone c) :=
  foldl_keeps (Spares Core.body c s) (State.haltEnd c) (fun _ q h => h.haltEnd q) _ s (Spares.refl _ c s)
theorem State.haltCore_eq (s : State) (c status : Nat) (u : Stn) (pc : Nat) :
    s.haltCore c status u pc = ((s.endsGone c).setCore c (((s.endsGone c).core c).halted status u pc)).dropWaits (Who.onCore c) := rfl

theorem spares_haltCore (c : Nat) (s : State) (status : Nat) (u : Stn) (pc : Nat) : Spares Core.body c s (s.haltCore c status u pc) := by
  rw [State.haltCore_eq]
  have hbody : (((s.endsGone c).core c).halted status u pc).body = ((s.endsGone c).core c).body := rfl
  exact ((spares_endsGone c s).setCore (fun _ => hbody)).dropWaits _
theorem State.haltCore_core {s : State} (w : swf {} s.cores = true) (c status : Nat) (u : Stn) (pc : Nat) :
    (s.haltCore c status u pc).core c = ((s.endsGone c).core c).halted status u pc := by
  rw [State.haltCore_eq]
  exact State.setCore_core _ c _ ((spares_endsGone c s).cores w)

/-! ### The launch of a core that has halted -/

/-- A core but for the launch that runs it. -/
def Core.noLaunch (k : Core) : Core := { k with launch := none }

/-- A core that has halted is stopped by nothing more. -/
theorem Core.stopWith_of_halt {k : Core} (h : k.halt = true) (status : Nat) : k.stopWith status = k := if_pos h
/-- The stop of a list of cores spares one that has halted. -/
theorem spares_stopCores {s : State} (w : swf {} s.cores = true) (hhalt : (s.core c).halt = true) (l : List Nat) (status : Nat) :
    Spares Core.noLaunch c s (s.stopCores l status) := by
  refine foldl_keeps (Spares Core.noLaunch c s) _ (fun t n h => h.setCore ?_) l s (Spares.refl _ c s)
  rintro rfl
  have hcore : (t.core n).halt = true := (congrArg Core.halt (h.core w)).trans hhalt
  rw [Core.stopWith_of_halt hcore]
theorem Spares.launchCheck (h : Spares Core.noLaunch c s t) (f q : Nat) : Spares Core.noLaunch c s (t.launchCheck f q) := by
  unfold State.launchCheck
  dsimp only
  split
  · exact h
  · exact Spares.setQueue (foldl_keeps (Spares Core.noLaunch c s) _ (fun _ _ h => h.setCore (by rintro rfl; rfl)) _ t h) _ _ _

/-- The state in which CORE_HALT leaves the launch of a core that has halted with a status (03 R105; 12 R349). -/
def State.launchEnds (s : State) (status : Nat) : Option Launch → State
  | none => s
  | some l => (if status = Status.ok then s else s.stopLaunch l.fn l.q Status.cancelled).launchCheck l.fn l.q
theorem spares_launchEnds {s : State} (w : swf {} s.cores = true) (hhalt : (s.core c).halt = true) (status : Nat) (l : Option Launch) :
    Spares Core.noLaunch c s (s.launchEnds status l) := by
  cases l with
  | none => exact Spares.refl _ c s
  | some l =>
    refine Spares.launchCheck ?_ ..
    split
    · exact Spares.refl _ c s
    · exact (spares_stopCores w hhalt _ _).stopSaved _ _ _ _

end

/-! ### CORE_HALT -/

section
variable {c : Nat} {s : State} (hc : c < 2560)
include hc

theorem exec_coreHalt_of_running (h : (s.core c).stop = none) : exec (.coreHalt c) s = .next s := by
  have hexec : exec (.coreHalt c) s = execCoreHalt c s := rfl
  simp only [hexec, execCoreHalt, onCore_of_lt c _ hc, h]
theorem exec_coreHalt_of_draining {x : Stop} (h : (s.core c).stop = some x) (hd : (s.core c).drained x.drain = false) :
    exec (.coreHalt c) s = .next s := by
  have hexec : exec (.coreHalt c) s = execCoreHalt c s := rfl
  simp only [hexec, execCoreHalt, onCore_of_lt c _ hc, h, hd, Bool.not_false, if_true]
/-- A core whose stop has drained halts, with STATE where a HALT leaves a handle bound (03 R106). -/
theorem exec_coreHalt_of_drained {x : Stop} (h : (s.core c).stop = some x) (hd : (s.core c).drained x.drain = true) :
    let bound := (s.core c).handles.any (fun e => e.2.state ≠ .unbound)
    let status := if x.drain = true ∧ x.status = Status.ok ∧ bound = true then Status.state else x.status
    exec (.coreHalt c) s = .next ((s.haltCore c status x.stn x.pc).launchEnds status (s.core c).launch) := by
  intro bound status
  have hexec : exec (.coreHalt c) s = execCoreHalt c s := rfl
  simp only [hexec, execCoreHalt, onCore_of_lt c _ hc, h, hd, Bool.not_true, Bool.false_eq_true, if_false]
  cases (s.core c).launch <;> rfl

end

end Sys2Proof.Machine
end

section
open Sys2Proof Sys2Proof.Machine Sys2Proof.Claims

/-- Settles O6: a HALT, BRK or TRAP only records its stop, and the halt that follows spares what the statement names (spares_haltCore,
spares_launchEnds). -/
theorem haltBreakTrapAndCoreHalt : Obligations.HaltBreakTrapAndCoreHalt := by
  unfold Obligations.HaltBreakTrapAndCoreHalt
  refine ⟨fun c s d => ⟨onScalar_coreNext d rfl rfl, onScalar_coreNext d rfl rfl, onScalar_coreNext d rfl rfl⟩, fun c s hc w => ?_⟩
  refine ⟨exec_coreHalt_of_running hc, fun x hstop hd => exec_coreHalt_of_draining hc hstop hd, fun x hstop hd => ?_⟩
  intro bound status
  refine ⟨_, exec_coreHalt_of_drained hc hstop hd, ?_⟩
  have hends := spares_haltCore c s status x.stn x.pc
  have hcore := State.haltCore_core w c status x.stn x.pc
  have hlaunch := spares_launchEnds (c := c) (hends.cores w) (congrArg Core.halt hcore) status (s.core c).launch
  have hlast := (hlaunch.core (hends.cores w)).trans (congrArg Core.noLaunch hcore)
  have hbody := (congrArg Core.body hlast).trans ((congrArg Core.body hcore).symm.trans (hends.core w))
  exact ⟨congrArg Core.halt hlast, congrArg Core.run hlast, congrArg Core.stop hlast, congrArg Core.fstat hlast,
    congrArg Core.fstn hlast, congrArg Core.fpc hlast, congrArg Core.queues hlast, congrArg Core.lA hlast, congrArg Core.lB hlast,
    congrArg Core.lV hlast, congrArg Core.lO hlast, congrArg Prod.fst hbody, congrArg (·.2.1) hbody, congrArg (·.2.2) hbody,
    hlaunch.secs.trans hends.secs, hlaunch.sluices.trans hends.sluices, hlaunch.resv.trans hends.resv,
    hlaunch.hostMem.trans hends.hostMem⟩
end

section
/-! SUPPORT. CT.ROPEN (02 R57, R58; 03 R80; 09 R262; 10 R278): the checks that a request passes or breaks, and the end that it opens. -/

namespace Sys2Proof.Machine
open Sys2Proof.Claims

/-! ### Numbers and checks -/

theorem bits_zero (x n : Nat) : bits x 0 n = x % 2 ^ n := by simp [bits]
@[simp] theorem firstFail_nil : firstFail [] = none := rfl
@[simp] theorem firstFail_true (st : Nat) (l : List (Bool × Nat)) : firstFail ((true, st) :: l) = some st := rfl
@[simp] theorem firstFail_false (st : Nat) (l : List (Bool × Nat)) : firstFail ((false, st) :: l) = firstFail l := rfl

/-! ### The core of an end that opens -/

/-- A core that has dispatched n + 1 instructions is read back with that count. -/
theorem State.setCore_dseq (s : State) (c : Nat) {k : Core} {n : Nat} (h : k.dseq = n + 1) : ((s.setCore c k).core c).dseq = n + 1 := by
  rw [State.setCore_core_of_ne s c (Core.ne_default_of_dseq (by omega)), h]
theorem State.openPair_dseq {s : State} {c n : Nat} (h : (s.core c).dseq = n + 1) (p q : Nat) (r : OpenReq) :
    ((s.openPair p (c, q) r).core c).dseq = n + 1 :=
  s.setCore_dseq c (k := (s.core c).setHandle q { (s.core c).handle q with state := .opened, peer := r.prodCore, peerQ := r.prodQ }) h
theorem State.openFabricPair_dseq {s : State} {c n : Nat} (h : (s.core c).dseq = n + 1) (q : Nat) :
    ((s.openFabricPair c q).core c).dseq = n + 1 :=
  s.setCore_dseq c (k := (s.core c).setHandle q { (s.core c).handle q with state := .opened }) h

/-! ### A canal end -/

section
variable {s : State} {c : Nat} {k : Core} {f : RopenF} {rid peer : Nat} {d : Desc} {u : Stn}

/-- The canal end that a CT.ROPEN binds to its handle (02 R57). -/
def Core.canalEnd (k : Core) (f : RopenF) (u : Stn) (rid peer : Nat) (d : Desc) : Handle :=
  { state := .pending, kind := .canal, rid, consumer := f.role, stn := u, peer, fmt := d.fmt, opc := k.pc, oseq := k.dseq
    depth := if f.role then f.depth.toNat else 0, base := if f.role then d.base else 0 }

theorem State.ropenCheck_bound (h : (k.handle f.q.toNat).state ≠ .unbound) : s.ropenCheck c k f rid peer d = some Status.state := by
  simp [State.ropenCheck, h]
theorem State.ropenCheck_ridBound (h : s.ridBound (s.partOf c) rid f.role = true) : s.ropenCheck c k f rid peer d = some Status.state := by
  by_cases hbound : (k.handle f.q.toNat).state = .unbound
  · simp [State.ropenCheck, hbound, h]
  · exact State.ropenCheck_bound hbound

section
variable (hbound : (k.handle f.q.toNat).state = .unbound) (hrid : s.ridBound (s.partOf c) rid f.role = false)
  (hpeer : s.coreOf (s.partOf c) peer = true) (hfmt : k.badEndFmt d.fmt = false)
include hbound hrid hpeer hfmt

theorem State.ropenCheck_producer (hrole : f.role = false) : s.ropenCheck c k f rid peer d = none := by
  rw [hrole] at hrid
  simp [State.ropenCheck, hbound, hrid, hpeer, hfmt, hrole]
theorem State.ropenCheck_consumer (hlo : 1 ≤ f.depth.toNat) (hhi : f.depth.toNat ≤ 16)
    (hpond : d.base + f.depth.toNat * (Fmt.tileBytes d.fmt + if Fmt.isMx d.fmt then 32 else 0) ≤ pondBytes)
    (hring : overlaps [(d.base, d.base + f.depth.toNat * (Fmt.tileBytes d.fmt + if Fmt.isMx d.fmt then 32 else 0))] k.rings = false) :
    s.ropenCheck c k f rid peer d = none := by
  have hdepth : ¬(f.depth.toNat = 0 ∨ 16 < f.depth.toNat) := by omega
  simp only [State.ropenCheck, hbound, hrid, hpeer, hfmt, hdepth, hring, Nat.not_lt.2 hpond, ne_eq, not_true_eq_false, decide_false,
    Bool.and_false, Bool.not_true, firstFail_false, firstFail_nil]

end

variable (hstn : ropenStn f.role f.stn.toNat = some u)
include hstn

theorem State.openCanal_producer (hrole : f.role = false) : s.openCanal c k f rid peer d =
    .ok ((s.setCore c (k.advance.setHandle f.q.toNat (k.canalEnd f u rid peer d))).sendCanal (.openReq (s.partOf c)
      { rid, prodCore := c, prodQ := f.q.toNat, consCore := peer, fmt := d.fmt, pc := k.pc, seq := k.dseq })) := by
  rw [State.openCanal, hstn]
  exact if_neg (by simp [hrole])
/-- A consumer's request meets a producer's that is present at its core, or is present itself. -/
theorem State.openCanal_consumer (hrole : f.role = true) : s.openCanal c k f rid peer d =
    match takeFirst (fun r : OpenReq => decide (r.rid = rid)) k.reqs with
    | none => .ok (s.setCore c (k.advance.setHandle f.q.toNat (k.canalEnd f u rid peer d)))
    | some (r, rest) =>
      if r.prodCore ≠ peer ∨ r.fmt ≠ d.fmt then .error Status.state
      else .ok ((s.setCore c { k.advance.setHandle f.q.toNat (k.canalEnd f u rid peer d) with reqs := rest }).openPair (s.partOf c)
        (c, f.q.toNat) r) := by
  rw [State.openCanal, hstn]
  exact if_pos hrole

end

/-! ### A fabric end -/

section
variable {s : State} {c : Nat} {k : Core} {f : RopenF} {rid : Nat} {peer : Word} {d : Desc} {u : Stn}

/-- The fabric end that a CT.ROPEN binds to its handle (09 R262). -/
def Core.fabricEnd (k : Core) (f : RopenF) (u : Stn) (rid peer : Nat) (d : Desc) : Handle :=
  { state := .pending, kind := .fabric, rid, consumer := f.role, stn := u, peer := peer % 2 ^ 24, fmt := d.fmt, opc := k.pc, oseq := k.dseq
    depth := if f.role then f.depth.toNat else 0 }
@[simp] theorem Core.fabricEnd_tokens (k : Core) (f : RopenF) (u : Stn) (rid peer : Nat) (d : Desc) :
    (k.fabricEnd f u rid peer d).tokens = if f.role then f.depth.toNat * tileTokens d.fmt else 0 := by
  cases hrole : f.role <;> simp [Core.fabricEnd, Handle.tokens, hrole]

theorem State.openFabric_bound (h : (k.handle f.q.toNat).state ≠ .unbound) : s.openFabric c k f rid peer d = .error Status.state := by
  simp [State.openFabric, h]
theorem State.openFabric_ridBound (h : s.ridBound (s.partOf c) rid f.role = true) : s.openFabric c k f rid peer d = .error Status.state := by
  by_cases hbound : (k.handle f.q.toNat).state = .unbound
  · simp [State.openFabric, hbound, h]
  · exact State.openFabric_bound hbound

section
variable (hbound : (k.handle f.q.toNat).state = .unbound)
  (hrid : s.ridBound (s.partOf c) rid f.role = false) (hfmt : k.badEndFmt d.fmt = false)
  (hdepth : f.role = true → 1 ≤ f.depth.toNat ∧ f.depth.toNat ≤ 16)
include hbound hrid hfmt hdepth

/-- A request for a fabric end that breaks no condition but perhaps that on its section's tokens. -/
theorem fabricCheck_eq (short : Bool) : firstFail [
    (decide ((k.handle f.q.toNat).state ≠ .unbound), Status.state),
    (s.ridBound (s.partOf c) rid f.role, Status.state),
    (k.badEndFmt d.fmt, Status.unsupported),
    (f.role && decide (f.depth.toNat = 0 ∨ 16 < f.depth.toNat), Status.bounds),
    (short, Status.quota)] = if short then some Status.quota else none := by
  have hok : (f.role && decide (f.depth.toNat = 0 ∨ 16 < f.depth.toNat)) = false := by
    cases hrole : f.role with
    | false => rfl
    | true =>
      have := hdepth hrole
      simp only [Bool.true_and, decide_eq_false_iff_not]
      omega
  simp only [hbound, hrid, hfmt, hok, ne_eq, not_true_eq_false, decide_false, firstFail_false]
  cases short <;> rfl

variable (hstn : ropenStn f.role f.stn.toNat = some u)
include hstn

theorem State.openFabric_quota
    (hheld : secTokens < s.secHeld (coreSec c) + (if f.role then f.depth.toNat * tileTokens d.fmt else 0)) :
    s.openFabric c k f rid peer d = .error Status.quota := by
  have hcheck := fabricCheck_eq hbound hrid hfmt hdepth
  rw [← Core.fabricEnd_tokens k f u rid peer.toNat d, Core.fabricEnd] at hheld
  simp only [State.openFabric, hstn, bits_zero, hcheck, Option.getD_some, hheld, decide_true, if_true]
theorem State.openFabric_fits
    (hheld : s.secHeld (coreSec c) + (if f.role then f.depth.toNat * tileTokens d.fmt else 0) ≤ secTokens) :
    s.openFabric c k f rid peer d =
      let t := s.setCore c (k.advance.setHandle f.q.toNat (k.fabricEnd f u rid peer.toNat d))
      if f.role then
        match takeFirst (fun r : FabReq => decide (r.sec = coreSec c ∧ r.cid = (s.part (s.partOf c)).cid ∧ r.rid = rid)) s.hwk.fopens with
        | none => .ok t
        | some (r, rest) =>
          if r.peer ≠ peer.toNat % 2 ^ 24 ∨ r.fmt ≠ d.fmt then .error Status.state
          else .ok ({ t with hwk := { t.hwk with fopens := rest } }.openFabricPair c f.q.toNat)
      else .ok (t.fabricCtl c (k.fabricEnd f u rid peer.toNat d) 1 0 (ctlOpen + 256 * d.fmt)) := by
  have hcheck := fabricCheck_eq hbound hrid hfmt hdepth
  rw [← Core.fabricEnd_tokens k f u rid peer.toNat d, Core.fabricEnd] at hheld
  simp only [State.openFabric, hstn, bits_zero, hcheck, Option.getD_some, Nat.not_lt.2 hheld, decide_false, Bool.false_eq_true, if_false]
  rfl
end

/-- What a fabric end says to its peer goes in a packet to the module and section that the peer value names (09 R262). -/
theorem fabricCtl_fabricEnd (s : State) (c : Nat) (k k' : Core) (f : RopenF) (u : Stn) (rid peer : Nat) (d : Desc) (typ pos arg : Nat) :
    (s.setCore c k').fabricCtl c (k.fabricEnd f u rid peer d) typ pos arg = (s.setCore c k').sendPacket { noPacket with
      typ, tag := s.tagOf (s.part (s.partOf c)).cid, dst := peer % 65536, dep := peer / 65536 % 256, sep := coreSec c, flow := rid, pos, arg } := by
  have hdst : bits (peer % 2 ^ 24) 0 16 = peer % 65536 := by simp only [bits]; omega
  have hdep : bits (peer % 2 ^ 24) 16 8 = peer / 65536 % 256 := by simp only [bits]; omega
  rw [← hdst, ← hdep]
  rfl

end

/-! ### An end bound to a reduction group -/

section
variable {s : State} {c : Nat} {k : Core} {f : RopenF} {rid : Nat} {peer : Word} {d : Desc}

/-- The end of a reduction group that a CT.ROPEN binds to its handle (10 R278). -/
def groupEnd (rid peer : Nat) (d : Desc) : Handle :=
  { state := .opened, kind := if bit peer 62 then .gather (peer % 2 ^ 14) else .contribution (peer % 2 ^ 14), rid, consumer := false
    stn := .outflow, peer, fmt := d.fmt, depth := 4, credits := 4 }
theorem groupEnd_tokens (rid peer : Nat) (d : Desc) : (groupEnd rid peer d).tokens = 4 * tileTokens d.fmt := by
  cases h : bit peer 62 <;> simp [groupEnd, Handle.tokens, h]

theorem State.openGroup_unknown (h : s.findRg (peer.toNat % 2 ^ 14) = none) : s.openGroup c k f rid peer d = .error Status.denied := by
  simp only [State.openGroup, bits_zero, h]
/-- A gather end opens for the group's owner alone, another end for a source that the group's map names (10 R275, R278, R292). -/
theorem State.openGroup_opens {e : Nat} (h : s.findRg (peer.toNat % 2 ^ 14) = some e) (hbound : (k.handle f.q.toNat).state = .unbound)
    (hfmt : k.badEndFmt d.fmt = false) (hbits : bits peer.toNat 14 48 = 0) (hrole : f.role = false) (hstn : f.stn.toNat = 5)
    (hheld : s.secHeld (coreSec c) + 4 * tileTokens d.fmt ≤ secTokens)
    (hgather : bit peer.toNat 62 = true → (s.rg e).owner = some (s.partOf c))
    (hsource : bit peer.toNat 62 = false →
      (s.rg e).srcs.any (fun m => m.part = s.partOf c) = true ∧ (s.rg e).srcOf (s.partOf c) c rid ≠ none) :
    s.openGroup c k f rid peer d = .ok (s.setCore c (k.advance.setHandle f.q.toNat (groupEnd rid peer.toNat d))) := by
  have hmember : (if bit peer.toNat 62 then decide ((s.rg e).owner ≠ some (s.partOf c))
      else !(s.rg e).srcs.any (fun m => m.part = s.partOf c)) = false := by
    cases hbit : bit peer.toNat 62 with
    | true => simp [hgather hbit]
    | false => simp only [(hsource hbit).1, Bool.not_true, Bool.false_eq_true, if_false]
  have hmap : (!bit peer.toNat 62 && ((s.rg e).srcOf (s.partOf c) c rid).isNone) = false := by
    cases hbit : bit peer.toNat 62 with
    | true => rfl
    | false => simp [Option.isSome_iff_ne_none, (hsource hbit).2]
  rw [← groupEnd_tokens rid peer.toNat d, groupEnd] at hheld
  simp only [State.openGroup, bits_zero, h, hbound, hfmt, hbits, hrole, hstn, hmember, hmap, Nat.not_lt.2 hheld, ne_eq, not_true_eq_false,
    decide_false, bne_self_eq_false, Bool.or_self, firstFail_false, firstFail_nil, groupEnd]

end

/-! ### CT.ROPEN -/

section
variable {c : Nat} {f : RopenF} {s : State} {u : Stn}

/-- What a CT.ROPEN of a station that may use the end leads to, by the kind of its runnel, or the status of the check that it fails. -/
def State.opens (s : State) (c : Nat) (k : Core) (f : RopenF) : Except Nat State :=
  let d := Desc.of (k.td f.td)
  let rid := (k.reg f.sa).toNat % 65536
  let peer := k.reg f.sb
  if f.kind then (if bit peer.toNat 63 then s.openGroup c k f rid peer d else s.openFabric c k f rid peer d)
  else match s.ropenCheck c k f rid peer.toNat d with
    | some st => .error st
    | none => s.openCanal c k f rid peer.toNat d

theorem State.opens_group (hkind : f.kind = true) {k : Core} (hbit : bit (k.reg f.sb).toNat 63 = true) : s.opens c k f =
    s.openGroup c k f ((k.reg f.sa).toNat % 65536) (k.reg f.sb) (Desc.of (k.td f.td)) := by
  simp only [State.opens, hkind, hbit, if_true]
theorem State.opens_fabric (hkind : f.kind = true) {k : Core} (hbit : bit (k.reg f.sb).toNat 63 = false) : s.opens c k f =
    s.openFabric c k f ((k.reg f.sa).toNat % 65536) (k.reg f.sb) (Desc.of (k.td f.td)) := by
  simp only [State.opens, hkind, hbit, if_true, Bool.false_eq_true, if_false]
theorem State.opens_canal_fails (hkind : f.kind = false) {k : Core} {st : Nat}
    (hcheck : s.ropenCheck c k f ((k.reg f.sa).toNat % 65536) (k.reg f.sb).toNat (Desc.of (k.td f.td)) = some st) :
    s.opens c k f = .error st := by
  simp only [State.opens, hkind, hcheck, Bool.false_eq_true, if_false]
theorem State.opens_canal (hkind : f.kind = false) {k : Core}
    (hcheck : s.ropenCheck c k f ((k.reg f.sa).toNat % 65536) (k.reg f.sb).toNat (Desc.of (k.td f.td)) = none) :
    s.opens c k f = s.openCanal c k f ((k.reg f.sa).toNat % 65536) (k.reg f.sb).toNat (Desc.of (k.td f.td)) := by
  simp only [State.opens, hkind, hcheck, Bool.false_eq_true, if_false]

/-- A handle or a runnel identifier that is bound gives STATE, whatever else the request breaks (log entry 97). -/
theorem State.opens_bound {k : Core} (hpeer : f.kind = false ∨ bit (k.reg f.sb).toNat 63 = false)
    (h : (k.handle f.q.toNat).state ≠ .unbound ∨ s.ridBound (s.partOf c) ((k.reg f.sa).toNat % 65536) f.role = true) :
    s.opens c k f = .error Status.state := by
  cases hkind : f.kind with
  | false => exact State.opens_canal_fails hkind (h.elim State.ropenCheck_bound State.ropenCheck_ridBound)
  | true =>
    have hbit : bit (k.reg f.sb).toNat 63 = false := hpeer.resolve_left (by simp [hkind])
    rw [State.opens_fabric hkind hbit]
    exact h.elim State.openFabric_bound State.openFabric_ridBound

variable (d : Dispatching c s) (hstn : ropenStn f.role f.stn.toNat = some u)
include hstn

theorem ropen_eq (k : Core) : ropen c f s k = match s.opens c k f with
    | .ok t => t
    | .error st => s.setCore c (k.scalarFault st) := by
  rw [ropen, hstn]
  rfl
include d
theorem exec_ctRopen_error {st : Nat} (h : s.opens c (s.core c) f = .error st) :
    exec (.ctRopen c f) s = .next (s.setCore c ((s.core c).scalarFault st)) :=
  onScalar_fault d (by rw [ropen_eq hstn, h])
theorem exec_ctRopen_ok {t : State} (h : s.opens c (s.core c) f = .ok t) (hseq : (t.core c).dseq = (s.core c).dseq + 1) :
    exec (.ctRopen c f) s = .next (t.progress (s.partOf c)) :=
  onScalar_counted d (by rw [ropen_eq hstn, h]) hseq

end
end Sys2Proof.Machine
end

section
/-! SUPPORT. CT.RCLOSE (02 R59): what it does to an end in each of its states, and that it does so at the head of its station. -/

namespace Sys2Proof.Machine
open Sys2Proof.Claims

/-! ### The end closed, by its state -/

section
variable {c : Nat} {s : State} {k : Core} {q : Nat}

theorem rcloseBody_not_bound (h : (k.handle q).state = .unbound ∨ (k.handle q).state = .closing) :
    rcloseBody c s k q = .fault Status.state := by
  obtain h | h := h <;> simp only [rcloseBody, h]

section
variable (h : (k.handle q).state = .pending)
include h

theorem rcloseBody_pending_consumer (hcons : (k.handle q).consumer = true) : rcloseBody c s k q = .done (s.setCore c (k.setHandle q {})) := by
  simp only [rcloseBody, h, hcons, if_true]
theorem rcloseBody_pending_canal (hprod : (k.handle q).consumer = false) (hkind : (k.handle q).kind = .canal) :
    rcloseBody c s k q = .done ((s.setCore c (k.setHandle q {})).withdrawReq (s.partOf c) (k.handle q).rid c) := by
  simp only [rcloseBody, h, hprod, hkind, Bool.false_eq_true, if_false]
theorem rcloseBody_pending_fabric (hprod : (k.handle q).consumer = false) (hkind : (k.handle q).kind = .fabric) :
    rcloseBody c s k q = .done ((s.setCore c (k.setHandle q {})).fabricCtl c (k.handle q) 1 0 ctlWithdraw) := by
  simp only [rcloseBody, h, hprod, hkind, Bool.false_eq_true, if_false]

end

section
variable (h : (k.handle q).state = .opened)
include h

theorem rcloseBody_canal_producer (hkind : (k.handle q).kind = .canal) (hprod : (k.handle q).consumer = false) :
    rcloseBody c s k q = .starts ((s.setCore c (k.setHandle q { k.handle q with state := .closing })).sendCanal
      (.item (s.partOf c) (k.handle q).rid (k.handle q).peer (k.handle q).peerQ .endMark)) .pending := by
  simp only [rcloseBody, h, hprod, hkind, Bool.false_eq_true, if_false]
theorem rcloseBody_canal_empty (hkind : (k.handle q).kind = .canal) (hcons : (k.handle q).consumer = true) (hring : (k.handle q).ring = []) :
    rcloseBody c s k q = .waits .tile := by
  simp only [rcloseBody, h, hcons, hkind, hring, if_true]
theorem rcloseBody_canal_tile (hkind : (k.handle q).kind = .canal) (hcons : (k.handle q).consumer = true) {x : Tile} {r : List RingItem}
    (hring : (k.handle q).ring = .tile x :: r) : rcloseBody c s k q = .fault Status.state := by
  simp only [rcloseBody, h, hcons, hkind, hring, if_true]
theorem rcloseBody_canal_endMark (hkind : (k.handle q).kind = .canal) (hcons : (k.handle q).consumer = true) {r : List RingItem}
    (hring : (k.handle q).ring = .endMark :: r) : rcloseBody c s k q =
      .done ((s.setCore c (k.setHandle q {})).sendCanal (.closeAck (s.partOf c) (k.handle q).rid (k.handle q).peer (k.handle q).peerQ)) := by
  simp only [rcloseBody, h, hcons, hkind, hring, if_true]
theorem rcloseBody_fabric_stale (hkind : (k.handle q).kind = .fabric) (hprod : (k.handle q).consumer = false)
    (htag : s.tagCurrent (s.tagOf (s.part (s.partOf c)).cid) = false) : rcloseBody c s k q = .fault Status.revoked := by
  simp only [rcloseBody, h, hprod, hkind, htag, Bool.false_eq_true, if_false, Bool.not_false, if_true]
theorem rcloseBody_fabric_producer (hkind : (k.handle q).kind = .fabric) (hprod : (k.handle q).consumer = false)
    (htag : s.tagCurrent (s.tagOf (s.part (s.partOf c)).cid) = true) : rcloseBody c s k q =
      .starts ((s.setCore c (k.setHandle q { k.handle q with state := .closing })).fabricCtl c (k.handle q) 1 (k.handle q).pos ctlMark)
        .pending := by
  simp only [rcloseBody, h, hprod, hkind, htag, Bool.false_eq_true, if_false, Bool.not_true]
theorem rcloseBody_fabric_empty (hkind : (k.handle q).kind = .fabric) (hcons : (k.handle q).consumer = true)
    (hnext : s.fabricNext c q (k.handle q) = none) : rcloseBody c s k q = .waits .tile := by
  simp only [rcloseBody, h, hcons, hkind, hnext, if_true]
theorem rcloseBody_fabric_endMark (hkind : (k.handle q).kind = .fabric) (hcons : (k.handle q).consumer = true)
    (hnext : s.fabricNext c q (k.handle q) = some .endMark) : rcloseBody c s k q =
      .done (((s.setCore c (k.setHandle q {})).clearRing c q).fabricCtl c (k.handle q) 5 0 rcGone) := by
  simp only [rcloseBody, h, hcons, hkind, hnext, if_true]
theorem rcloseBody_contribution_taken {gid : Nat} (hkind : (k.handle q).kind = .contribution gid)
    (htaken : (k.handle q).ring = [] ∨ s.findRg gid = none) :
    rcloseBody c s k q = .done ((s.setCore c (k.setHandle q {})).auditRed c (k.handle q)) := by
  have hgone : (k.handle q).ring.isEmpty = true ∨ (s.findRg gid).isNone = true := by simpa using htaken
  simp only [rcloseBody, h, hkind, hgone, if_true]
theorem rcloseBody_contribution_waits {gid : Nat} (hkind : (k.handle q).kind = .contribution gid)
    (hring : (k.handle q).ring ≠ []) (hgroup : s.findRg gid ≠ none) : rcloseBody c s k q =
      .starts ((s.setCore c (k.setHandle q { k.handle q with state := .closing })).auditRed c (k.handle q)) .pending := by
  have hgone : ¬((k.handle q).ring.isEmpty = true ∨ (s.findRg gid).isNone = true) := by
    simpa [Option.isSome_iff_ne_none] using ⟨hring, hgroup⟩
  simp only [rcloseBody, h, hkind, hgone, if_false]
theorem rcloseBody_gather {gid : Nat} (hkind : (k.handle q).kind = .gather gid) :
    rcloseBody c s k q = .done ((s.setCore c (k.setHandle q {})).auditRed c (k.handle q)) := by
  simp only [rcloseBody, h, hkind]

end
end

/-! ### The head of the station -/

theorem exec_ctRclose {c : Nat} {u : Stn} {s : State} {e : QEntry} {tok : TokF} {q : QReg} {did : Did} (h : AtHead c u s e)
    (hins : e.ins = .rclose tok q) (hbody : rcloseBody c s (s.core c) q.toNat = did) :
    exec (.ctRclose c u) s = .next (did.apply c u s e) := by
  obtain ⟨hc, hhalt, hhead, hqueued, hgate⟩ := h
  have hrow := onStation_at_head c u s (fun i => match i with | .rclose _ q => some q | _ => none)
    (fun k _ q => rcloseBody c s k q.toNat) e q hc hhead hqueued hhalt (by rw [hins]) hgate
  rw [hbody] at hrow
  exact hrow

end Sys2Proof.Machine
end

section
open Sys2Proof Sys2Proof.Machine Sys2Proof.Claims

/-- Settles O26: a CT.ROPEN by the checks that its request passes or breaks and the end that its kind of runnel opens (State.opens_bound,
openCanal_producer, openCanal_consumer, openFabric_quota, openFabric_fits, openGroup_opens), a CT.RCLOSE by the state of its end
(the rcloseBody lemmas). -/
theorem runnelOpenAndCloseRows : Obligations.RunnelOpenAndCloseRows := by
  unfold Obligations.RunnelOpenAndCloseRows
  refine ⟨fun c f s u disp hstn => ?opens, fun c u s e tok q hhead hins => ?closes⟩
  case opens =>
    intro k p q d rid peer bytes
    have hset : ∀ h : Handle, ((s.setCore c (k.advance.setHandle q h)).core c).dseq = k.dseq + 1 := fun _ => s.setCore_dseq c rfl
    refine ⟨fun hpeer hbound => ?bound, fun hpeer hbound => ?ridBound, fun hfree hrid hpeer hfmt hkind => ⟨fun hrole => ?producer, ?consumer⟩,
      fun hfree hrid hfmt hkind hbit hdepth => ?fabric, fun hkind hbit => ?group⟩
    case bound => exact exec_ctRopen_error disp hstn (State.opens_bound hpeer (.inl hbound))
    case ridBound => exact exec_ctRopen_error disp hstn (State.opens_bound hpeer (.inr hbound))
    case producer =>
      have hopens := (State.opens_canal hkind (State.ropenCheck_producer hfree hrid hpeer hfmt hrole)).trans (State.openCanal_producer hstn hrole)
      rw [exec_ctRopen_ok disp hstn hopens (hset _), Core.canalEnd, hrole]
      rfl
    case consumer =>
      intro hrole hlo hhi hpond hring h
      have hend : k.canalEnd f u rid peer d = h := by
        rw [Core.canalEnd, hrole]
        rfl
      have hopens := (State.opens_canal hkind (State.ropenCheck_consumer hfree hrid hpeer hfmt hlo hhi hpond hring)).trans
        (State.openCanal_consumer hstn hrole)
      rw [hend] at hopens
      refine ⟨fun hnone => ?_, fun r rest hsome => ⟨fun hcore hfmt => ?_, fun hdiffer => ?_⟩⟩
      · rw [hnone] at hopens
        exact exec_ctRopen_ok disp hstn hopens (hset _)
      · rw [hsome] at hopens
        have hpair := hopens.trans (if_neg (not_or.2 ⟨not_not_intro hcore, not_not_intro hfmt⟩))
        exact exec_ctRopen_ok disp hstn hpair (State.openPair_dseq (s.setCore_dseq c rfl) _ _ _)
      · rw [hsome] at hopens
        exact exec_ctRopen_error disp hstn (hopens.trans (if_pos hdiffer))
    case fabric =>
      intro h t cid held msg
      have hopens := State.opens_fabric (s := s) (c := c) hkind hbit
      refine ⟨fun hshort => ?_, fun hheld hrole => ?_, fun hheld hrole => ?_⟩
      · exact exec_ctRopen_error disp hstn (hopens.trans (State.openFabric_quota hfree hrid hfmt hdepth hstn hshort))
      · have hfits := hopens.trans (State.openFabric_fits hfree hrid hfmt hdepth hstn hheld)
        have hprod := hfits.trans (if_neg (by simp [hrole]))
        rw [exec_ctRopen_ok disp hstn hprod (hset _), fabricCtl_fabricEnd]
        rfl
      · have hfits := hopens.trans (State.openFabric_fits hfree hrid hfmt hdepth hstn hheld)
        have hcons := hfits.trans (if_pos hrole)
        intro mine
        refine ⟨fun hnone => ?_, fun r rest hsome => ⟨fun hpeer hfmt => ?_, fun hdiffer => ?_⟩⟩
        · have hmine : takeFirst _ s.hwk.fopens = none := hnone
          rw [hmine] at hcons
          exact exec_ctRopen_ok disp hstn hcons (hset _)
        · have hmine : takeFirst _ s.hwk.fopens = some (r, rest) := hsome
          rw [hmine] at hcons
          have hpair := hcons.trans (if_neg (not_or.2 ⟨not_not_intro hpeer, not_not_intro hfmt⟩))
          exact exec_ctRopen_ok disp hstn hpair (State.openFabricPair_dseq (hset _) _)
        · have hmine : takeFirst _ s.hwk.fopens = some (r, rest) := hsome
          rw [hmine] at hcons
          exact exec_ctRopen_error disp hstn (hcons.trans (if_pos hdiffer))
    case group =>
      intro gid gather
      have hopens := State.opens_group (s := s) (c := c) hkind hbit
      refine ⟨fun hnone => ?_, fun e he hfree hfmt hbits hrole hstn5 hheld howner hsource => ?_⟩
      · exact exec_ctRopen_error disp hstn (hopens.trans (State.openGroup_unknown hnone))
      · exact exec_ctRopen_ok disp hstn (hopens.trans (State.openGroup_opens he hfree hfmt hbits hrole hstn5 hheld howner hsource)) (hset _)
  case closes =>
    intro k h p
    have close : ∀ {did : Did}, rcloseBody c s k q.toNat = did → exec (.ctRclose c u) s = .next (did.apply c u s e) := exec_ctRclose hhead hins
    refine ⟨fun hstate hcons => ?_, fun hstate hprod hkind => ?_, fun hstate hkind hprod => ?_, fun hstate hprod hkind => ?_,
      fun hstate hkind hprod hstale => ?_, fun gid hstate hkind => ⟨fun htaken => ?_, fun hring hgroup => ?_⟩, fun gid hstate hkind => ?_,
      fun hstate hkind hprod hcurrent => ?_, fun hstate hkind hcons => ⟨fun hmark => ?_, fun hnone => ?_⟩,
      fun r hstate hkind hcons hring => ?_, fun hstate hkind hcons hring => ?_, fun x r hstate hkind hcons hring => ?_, fun hstate => ?_⟩
    · exact close (rcloseBody_pending_consumer hstate hcons)
    · exact close (rcloseBody_pending_canal hstate hprod hkind)
    · exact close (rcloseBody_canal_producer hstate hkind hprod)
    · exact close (rcloseBody_pending_fabric hstate hprod hkind)
    · exact close (rcloseBody_fabric_stale hstate hkind hprod hstale)
    · exact close (rcloseBody_contribution_taken hstate hkind htaken)
    · exact close (rcloseBody_contribution_waits hstate hkind hring hgroup)
    · exact close (rcloseBody_gather hstate hkind)
    · exact close (rcloseBody_fabric_producer hstate hkind hprod hcurrent)
    · exact close (rcloseBody_fabric_endMark hstate hkind hcons hmark)
    · exact close (rcloseBody_fabric_empty hstate hkind hcons hnone)
    · exact close (rcloseBody_canal_endMark hstate hkind hcons hring)
    · exact close (rcloseBody_canal_empty hstate hkind hcons hring)
    · exact close (rcloseBody_canal_tile hstate hkind hcons hring)
    · exact close (rcloseBody_not_bound hstate)
end

section
/-! SUPPORT. The messages of a canal runnel (02 R57-R64): the first message of its kind for a runnel is the one that its row takes. -/

namespace Sys2Proof.Machine

/-! ### The first of a list -/

/-- What stands behind entries that all fail a test is the first to pass it. -/
theorem takeFirst_append {α : Type} {f : α → Bool} {a b : List α} {x : α} (ha : ∀ y ∈ a, f y = false) (hx : f x = true) :
    takeFirst f (a ++ x :: b) = some (x, a ++ b) := by
  induction a with
  | nil => simp [takeFirst, hx]
  | cons y a ih =>
    have hy : f y = false := ha y (by simp)
    simp [takeFirst, hy, ih fun z hz => ha z (by simp [hz])]

theorem and_beq_self (p rid : Nat) : (p == p && rid == rid) = true := by simp
/-- A message of the kind that a row looks for, and none for its runnel, fails the row's test. -/
theorem and_beq_eq_false {p p' rid rid' : Nat} (h : p' = p → rid' = rid → False) : (p' == p && rid' == rid) = false := by
  simpa using h

section
variable {s : State} {p rid : Nat} {a b : List CanalMsg}

/-! ### A request -/

/-- What a request of a producer meets at the core that it names (02 R57, R58; 17 R454). -/
def State.meetRequest (s : State) (p : Nat) (r : OpenReq) : State :=
  if s.passes r.consCore = false then s.failRequest r Status.denied
  else match (s.core r.consCore).awaits r.rid with
  | some q =>
    if ((s.core r.consCore).handle q).peer ≠ r.prodCore ∨ ((s.core r.consCore).handle q).fmt ≠ r.fmt then s.failRequest r
    else s.openPair p (r.consCore, q) r
  | none => s.setCore r.consCore { s.core r.consCore with reqs := (s.core r.consCore).reqs ++ [r] }
/-- The request at the front of the canal is taken from it. -/
theorem exec_runnelOpenRequest_front {r : OpenReq} (hcanal : s.canal = .openReq p r :: b) :
    exec (.runnelOpenRequest p r.rid) s = .next (({ s with canal := b } : State).meetRequest p r) := by
  show execRunnelOpenRequest p r.rid s = _
  rw [execRunnelOpenRequest, hcanal, takeFirst, if_pos (and_beq_self p r.rid), State.meetRequest]
  cases hpasses : ({ s with canal := b } : State).passes r.consCore <;> simp only [hpasses] <;> rfl

theorem State.meetRequest_fenced {r : OpenReq} (hfenced : s.passes r.consCore = false) :
    s.meetRequest p r = s.failRequest r Status.denied := if_pos hfenced

section
variable {r : OpenReq} {q : Nat} (hpasses : s.passes r.consCore = true)
include hpasses

theorem State.meetRequest_none (hnone : (s.core r.consCore).awaits r.rid = none) :
    s.meetRequest p r = s.setCore r.consCore { s.core r.consCore with reqs := (s.core r.consCore).reqs ++ [r] } := by
  rw [State.meetRequest, if_neg (by simp [hpasses]), hnone]
theorem State.meetRequest_agree (hsome : (s.core r.consCore).awaits r.rid = some q)
    (hpeer : ((s.core r.consCore).handle q).peer = r.prodCore) (hfmt : ((s.core r.consCore).handle q).fmt = r.fmt) :
    s.meetRequest p r = s.openPair p (r.consCore, q) r := by
  rw [State.meetRequest, if_neg (by simp [hpasses]), hsome]
  exact if_neg (by simp [hpeer, hfmt])
theorem State.meetRequest_differ (hsome : (s.core r.consCore).awaits r.rid = some q)
    (hdiffer : ((s.core r.consCore).handle q).peer ≠ r.prodCore ∨ ((s.core r.consCore).handle q).fmt ≠ r.fmt) :
    s.meetRequest p r = s.failRequest r := by
  rw [State.meetRequest, if_neg (by simp [hpasses]), hsome]
  exact if_pos hdiffer

end

/-! ### The other messages -/

section
variable {c q : Nat}

theorem exec_openAcknowledgement_pending {pq depth : Nat} (hfirst : ∀ m ∈ a, ∀ x y z w, m ≠ .openAck p rid x y z w)
    (hcanal : s.canal = a ++ .openAck p rid c q pq depth :: b) (hstate : ((s.core c).handle q).state = .pending)
    (hrid : ((s.core c).handle q).rid = rid) (hprod : ((s.core c).handle q).consumer = false) :
    exec (.openAcknowledgement p rid) s = .next (({ s with canal := a ++ b } : State).setCore c ((s.core c).setHandle q
      { (s.core c).handle q with state := .opened, credits := depth, depth := depth, peerQ := pq })) := by
  show execOpenAcknowledgement p rid s = _
  rw [execOpenAcknowledgement, hcanal, takeFirst_append ?others ?found]
  case found => exact and_beq_self p rid
  case others =>
    intro m hm
    cases m with
    | openAck p' r' x y z w => exact and_beq_eq_false fun hp hr => hfirst _ hm x y z w (by rw [hp, hr])
    | _ => rfl
  exact congrArg _ (if_pos ⟨hstate, hrid, congrArg not hprod⟩)

section
variable {x : RingItem} (hfirst : ∀ m ∈ a, ∀ y z w, m ≠ .item p rid y z w) (hcanal : s.canal = a ++ .item p rid c q x :: b)

/-- The core of a consumer end in whose ring an item arrives. -/
def Core.takeItem (k : Core) (q : Nat) : RingItem → Core
  | .tile t => k.writeRing (k.handle q) (k.handle q).nextSlot t
  | .endMark => k
include hfirst hcanal
/-- The next tile or end marker of a runnel is taken from the canal, and goes to the ring of an Open consumer end whose bed passes it. -/
theorem exec_canalTileArrival_first : exec (.canalTileArrival p rid) s = .next (
    if s.passes c = true ∧ ((s.core c).handle q).state = .opened ∧ ((s.core c).handle q).rid = rid ∧ ((s.core c).handle q).consumer = true ∧
      ((s.core c).handle q).kind = .canal then
      ({ s with canal := a ++ b } : State).setCore c (((s.core c).takeItem q x).setHandle q
        { (s.core c).handle q with ring := ((s.core c).handle q).ring ++ [x] })
    else { s with canal := a ++ b }) := by
  show execCanalTileArrival p rid s = _
  rw [execCanalTileArrival, hcanal, takeFirst_append ?others ?found]
  case found => exact and_beq_self p rid
  case others =>
    intro m hm
    cases m with
    | item p' r' y z w => exact and_beq_eq_false fun hp hr => hfirst _ hm y z w (by rw [hp, hr])
    | _ => rfl
  cases x <;> rfl

end

theorem exec_creditReturn_bound {n : Nat} (hfirst : ∀ m ∈ a, ∀ y z w, m ≠ .credit p rid y z w)
    (hcanal : s.canal = a ++ .credit p rid c q n :: b) (hstate : ((s.core c).handle q).state ≠ .unbound)
    (hrid : ((s.core c).handle q).rid = rid) (hprod : ((s.core c).handle q).consumer = false) (hkind : ((s.core c).handle q).kind = .canal) :
    exec (.creditReturn p rid) s = .next (({ s with canal := a ++ b } : State).setCore c ((s.core c).setHandle q
      { (s.core c).handle q with credits := ((s.core c).handle q).credits + n })) := by
  show execCreditReturn p rid s = _
  rw [execCreditReturn, hcanal, takeFirst_append ?others ?found]
  case found => exact and_beq_self p rid
  case others =>
    intro m hm
    cases m with
    | credit p' r' y z w => exact and_beq_eq_false fun hp hr => hfirst _ hm y z w (by rw [hp, hr])
    | _ => rfl
  exact congrArg _ (if_pos ⟨hstate, hrid, congrArg not hprod, hkind⟩)

theorem exec_closeAcknowledgement_closing (hfirst : ∀ m ∈ a, ∀ y z, m ≠ .closeAck p rid y z)
    (hcanal : s.canal = a ++ .closeAck p rid c q :: b) (hstate : ((s.core c).handle q).state = .closing)
    (hrid : ((s.core c).handle q).rid = rid) (hkind : ((s.core c).handle q).kind = .canal) :
    exec (.closeAcknowledgement p rid) s = .next ((({ s with canal := a ++ b }.setCore c
      (((s.core c).setHandle q {}).rcloseDone ((s.core c).handle q).stn q)).auditClose p rid c ((s.core c).handle q)).dropCredits p rid) := by
  show execCloseAcknowledgement p rid s = _
  rw [execCloseAcknowledgement, hcanal, takeFirst_append ?others ?found]
  case found => exact and_beq_self p rid
  case others =>
    intro m hm
    cases m with
    | closeAck p' r' y z => exact and_beq_eq_false fun hp hr => hfirst _ hm y z (by rw [hp, hr])
    | _ => rfl
  exact congrArg _ (if_pos ⟨hstate, hrid, hkind⟩)

end
end

/-! ### A tile in its ring -/

section
variable (k : Core) (h : Handle) (slot : Nat) (t : Tile)

theorem Core.writeRing_plain (hmx : Fmt.isMx h.fmt = false) :
    k.writeRing h slot t = k.setBytes (h.base + slot * Fmt.tileBytes h.fmt) t.rowBytes.flatten := by
  simp only [Core.writeRing, hmx, Bool.false_eq_true, if_false]
theorem Core.writeRing_mx (hmx : Fmt.isMx h.fmt = true) :
    k.writeRing h slot t = (k.setBytes (h.base + slot * Fmt.tileBytes h.fmt) t.rowBytes.flatten).setBytes
      (h.base + h.depth * Fmt.tileBytes h.fmt + slot * 32) t.scaleBytes := by
  simp only [Core.writeRing, hmx, if_true]

end

end Sys2Proof.Machine
end

section
open Sys2Proof Sys2Proof.Machine Sys2Proof.Claims

/-- Settles O27: each message is the first of its kind for its runnel, and its row does to the end that it names what the row says. -/
theorem canalMessageRows : Obligations.CanalMessageRows := by
  unfold Obligations.CanalMessageRows
  intro s p rid b
  refine ⟨fun r hcanal hrid => ?request, fun a c q pq depth hfirst hcanal => ?acknowledgement, fun a c q x hfirst hcanal => ?tile,
    fun a c q n hfirst hcanal => ?credit, fun a c q hfirst hcanal => ?closing⟩
  case request =>
    subst hrid
    have hexec := exec_runnelOpenRequest_front hcanal
    refine ⟨fun hfenced => ?_, fun hpasses hnone => ?_, fun q hpasses hsome => ⟨fun hpeer hfmt => ?_, fun hdiffer => ?_⟩,
      fun u status => ⟨fun hstate hrid => if_pos ⟨hstate, hrid⟩, fun hnot => if_neg (not_and_or.2 hnot)⟩⟩
    · exact hexec.trans (congrArg _ (State.meetRequest_fenced hfenced))
    · exact hexec.trans (congrArg _ (State.meetRequest_none hpasses hnone))
    · exact hexec.trans (congrArg _ (State.meetRequest_agree hpasses hsome hpeer hfmt))
    · exact hexec.trans (congrArg _ (State.meetRequest_differ hpasses hsome hdiffer))
  case acknowledgement => exact fun hstate hrid hprod => exec_openAcknowledgement_pending hfirst hcanal hstate hrid hprod
  case tile =>
    have hexec := exec_canalTileArrival_first hfirst hcanal
    refine ⟨fun hfenced => ?_, fun hpasses hstate hrid hcons hkind => ?_⟩
    · rw [hexec, if_neg (by simp [hfenced])]
    · rw [if_pos ⟨hpasses, hstate, hrid, hcons, hkind⟩] at hexec
      refine ⟨?_, ?_, ?_⟩
      · rintro rfl
        exact hexec
      · rintro y rfl hmx
        rw [hexec, Core.takeItem, Core.writeRing_plain _ _ _ _ hmx]
        rfl
      · rintro y rfl hmx
        rw [hexec, Core.takeItem, Core.writeRing_mx _ _ _ _ hmx]
        rfl
  case credit => exact fun hstate hrid hprod hkind => exec_creditReturn_bound hfirst hcanal hstate hrid hprod hkind
  case closing => exact fun hstate hrid hkind => exec_closeAcknowledgement_closing hfirst hcanal hstate hrid hkind
end

section
open Sys2Proof Sys2Proof.Machine Sys2Proof.Claims

/-- Settles O58: nothing is listed at reset, so that every unit reads as its Reset column. -/
theorem resetState : Obligations.ResetState := by
  unfold Obligations.ResetState
  have hcore : ∀ c, State.reset.observed c = {} := fun _ => rfl
  have hlink : ∀ n, State.reset.link n = {} := fun _ => rfl
  have hslu : ∀ n, State.reset.slu n = {} := fun _ => rfl
  refine ⟨?canonical, ?ascending, rfl, rfl, rfl, rfl, rfl, rfl, rfl, rfl, fun p _ => ⟨rfl, rfl⟩, fun c _ => ?core, fun n _ => ?link,
    fun n _ => ?tags⟩
  case canonical => exact ⟨rfl, rfl, rfl, rfl, rfl, rfl, rfl, rfl, rfl, rfl⟩
  case ascending => exact ⟨List.forall_mem_nil _, List.forall_mem_nil _⟩
  case core =>
    rw [State.csr, hcore]
    rfl
  case link =>
    rw [State.csr, hlink]
    rfl
  case tags =>
    rw [State.csr, hslu]
    rfl
end

section
/-! SUPPORT. What a port's change of state touches (09 R249; 14 R381): the links, Chrysalis, the join of a spare, and the counter of free values
(assumption 2), from which the shares of a slot whose key is destroyed are taken. -/

namespace Sys2Proof.Machine

section
variable (s : State) (n : Nat) (g : LinkState)

/-- The end of a keying draws the shares of the two slots of its ephemeral key afresh. -/
theorem State.dropEph_free {i : Nat} (h : (s.link n).eph = some i) : (s.dropEph n).free = s.free + 4 := by
  rw [State.dropEph, h]
  rfl
theorem State.dropEph_frame : ∃ f l c, s.dropEph n = { s with free := f, links := l, chr := c } := by
  unfold State.dropEph
  split <;> exact ⟨_, _, _, rfl⟩

theorem State.spareFail_frame (status : Nat) : ∃ j, s.spareFail status = { s with join := j } := by
  unfold State.spareFail
  split <;> exact ⟨_, rfl⟩

/-- After the end of its keying a port takes its new fields, and a spare that has lost its twin ports fails. -/
theorem State.enter_cases : ∃ l, s.enter n g = ((s.dropEph n).setLink n l).spareFail Status.linkDown ∨
    s.enter n g = (s.dropEph n).setLink n l :=
  ⟨_, ite_eq_or_eq _ _ _⟩
theorem State.enter_free : (s.enter n g).free = (s.dropEph n).free := by
  obtain ⟨l, h | h⟩ := s.enter_cases n g
  · obtain ⟨j, hj⟩ := ((s.dropEph n).setLink n l).spareFail_frame Status.linkDown
    rw [h, hj]
    rfl
  · rw [h]
    rfl
/-- What the last clause of O22 would say with the counter of free values among what changes. -/
theorem State.enter_frame : ∃ f l c j, s.enter n g = { s with free := f, links := l, chr := c, join := j } := by
  obtain ⟨f, m, c, hdrop⟩ := s.dropEph_frame n
  obtain ⟨l, h | h⟩ := s.enter_cases n g
  · obtain ⟨j, hj⟩ := ((s.dropEph n).setLink n l).spareFail_frame Status.linkDown
    rw [h, hj, hdrop]
    exact ⟨_, _, _, _, rfl⟩
  · rw [h, hdrop]
    exact ⟨_, _, _, _, rfl⟩
end

/-- A port in Keying that has made its ephemeral key. -/
def portInKeying : State := { State.reset with links := [(0, { state := .keying, eph := some 6 })] }

end Sys2Proof.Machine
end

section
open Sys2Proof Sys2Proof.Machine

/-- Refutes O22: of the registers of the whole machine the last clause lets only the links, Chrysalis and the join change. A port that leaves
Keying destroys its ephemeral key, and the fresh shares of the key's slots advance the counter of free values (State.dropEph_free). The
clause wants that counter too: with it, it holds (State.enter_frame). -/
theorem not_portEntersAState : ¬ Obligations.PortEntersAState := by
  unfold Obligations.PortEntersAState
  intro h
  obtain ⟨-, -, -, -, -, -, -, -, -, -, -, -, -, -, -, -, -, hframe⟩ := h 0 .off portInKeying (by decide)
  have hsame : (portInKeying.enter 0 .off).free = portInKeying.free := by rw [hframe]
  rw [State.enter_free, State.dropEph_free (i := 6) _ _ rfl] at hsame
  omega
end

section
/-! SUPPORT. A command on a link port (00 R6), and the commands of LNK_CTRL by the state of the port (09 R249, R250, R272). -/

namespace Sys2Proof.Machine

/-- A command on a port that the device has answers what its work leads to. -/
theorem onLink_eq {n : Nat} {t u : State} (hn : n < 48) (h : t = u) : onLink n t = .next u := (onLink_of_lt n t hn).trans (congrArg _ h)

section
variable {n : Nat} {s : State}

theorem lnkCmd_of_no_service (f : Link → State) (h : ¬(s.mon.phase = .ready ∧ s.mon.fabric = true)) :
    lnkCmd n s f = s.setCstat n Status.state := if_neg h
/-- An attempt to enable needs a port in Off. -/
theorem enableRetry_off (hphase : s.mon.phase = .ready) (hfabric : s.mon.fabric = true) (hn : n < 48) (hoff : (s.link n).state = .off) :
    exec (.enableRetry n) s = .next (s.tryEnable n) := onLink_eq hn (if_pos ⟨hoff, hphase, hfabric⟩)

variable (hphase : s.mon.phase = .ready) (hfabric : s.mon.fabric = true)
include hphase hfabric

theorem lnkCmd_of_service (f : Link → State) : lnkCmd n s f = f (s.link n) := if_pos ⟨hphase, hfabric⟩

theorem lnkEnable_off (h : (s.link n).state = .off) :
    lnkEnable n s = (s.setLink n { s.link n with enabled := true, cstat := Status.ok }).tryEnable n := by
  rw [lnkEnable, lnkCmd_of_service hphase hfabric]
  split
  case h_1 => rfl
  case h_2 hoff => exact absurd h hoff
theorem lnkEnable_not_off (h : (s.link n).state ≠ .off) : lnkEnable n s = s.setCstat n Status.state := by
  rw [lnkEnable, lnkCmd_of_service hphase hfabric]
  split
  case h_1 hoff => exact absurd hoff h
  case h_2 => rfl

theorem lnkDisable_off (h : (s.link n).state = .off) :
    lnkDisable n s = s.setLink n { s.link n with enabled := false, cstat := Status.ok } := by
  rw [lnkDisable, lnkCmd_of_service hphase hfabric]
  split
  case h_1 hfenced => cases h.symm.trans hfenced
  case h_2 => rfl
  case h_3 hup => cases h.symm.trans hup
  case h_4 hoff _ => exact absurd h hoff
theorem lnkDisable_up (h : (s.link n).state = .up) :
    lnkDisable n s = (s.setLink n { s.link n with enabled := false }).drainFor n .off := by
  rw [lnkDisable, lnkCmd_of_service hphase hfabric]
  split
  case h_1 hfenced => cases h.symm.trans hfenced
  case h_2 hoff => cases h.symm.trans hoff
  case h_3 => rfl
  case h_4 hup => exact absurd h hup
theorem lnkDisable_fenced (h : (s.link n).state = .fenced) : lnkDisable n s = s.setCstat n Status.state := by
  rw [lnkDisable, lnkCmd_of_service hphase hfabric, h]
theorem lnkDisable_trains (h : (s.link n).state = .training ∨ (s.link n).state = .keying ∨ (s.link n).state = .retraining) :
    lnkDisable n s = (s.setLink n { s.link n with enabled := false, cstat := Status.ok }).enter n .off := by
  rw [lnkDisable, lnkCmd_of_service hphase hfabric]
  split
  case h_1 hfenced => simp [hfenced] at h
  case h_2 hoff => simp [hoff] at h
  case h_3 hup => simp [hup] at h
  case h_4 => rfl

theorem lnkRetrain_up (h : (s.link n).state = .up) : lnkRetrain n s = s.drainFor n .retraining := by
  rw [lnkRetrain, lnkCmd_of_service hphase hfabric, h]
theorem lnkRetrain_not_up (h : (s.link n).state ≠ .up) : lnkRetrain n s = s.setCstat n Status.state := by
  rw [lnkRetrain, lnkCmd_of_service hphase hfabric]
  split
  case h_1 hup => exact absurd hup h
  case h_2 => rfl

theorem lnkFence_up (h : (s.link n).state = .up) : lnkFence n s = s.drainFor n .fenced := by
  rw [lnkFence, lnkCmd_of_service hphase hfabric, h]
theorem lnkFence_fenced (h : (s.link n).state = .fenced) : lnkFence n s = s.setCstat n Status.ok := by
  rw [lnkFence, lnkCmd_of_service hphase hfabric, h]
/-- A port that carries nothing is fenced at once. -/
theorem lnkFence_at_once (hup : (s.link n).state ≠ .up) (hfenced : (s.link n).state ≠ .fenced) :
    lnkFence n s = (s.setCstat n Status.ok).enter n .fenced := by
  rw [lnkFence, lnkCmd_of_service hphase hfabric]
  split
  case h_1 h => exact absurd h hfenced
  case h_2 h => exact absurd h hup
  case h_3 => rfl

theorem lnkUnfence_free (h : (s.link n).state = .fenced) (hfree : s.held n = false) :
    lnkUnfence n s = (s.setLink n { s.link n with attempts := 0, cstat := Status.ok }).enter n .off := by
  rw [lnkUnfence, lnkCmd_of_service hphase hfabric]
  split
  case h_2 hfenced => exact absurd h hfenced
  case h_1 => exact if_neg (ne_true_of_eq_false hfree)
theorem lnkUnfence_held (h : (s.link n).state = .fenced) (hheld : s.held n = true) : lnkUnfence n s = s.setCstat n Status.state := by
  rw [lnkUnfence, lnkCmd_of_service hphase hfabric]
  split
  case h_2 hfenced => exact absurd h hfenced
  case h_1 => exact if_pos hheld
theorem lnkUnfence_not_fenced (h : (s.link n).state ≠ .fenced) : lnkUnfence n s = s.setCstat n Status.state := by
  rw [lnkUnfence, lnkCmd_of_service hphase hfabric]
  split
  case h_1 hfenced => exact absurd hfenced h
  case h_2 => rfl
end

end Sys2Proof.Machine
end

section
open Sys2Proof Sys2Proof.Machine Sys2Proof.Claims

/-- Settles O23: without service a command gives STATE, and with it each command does what its row says for the port's state. -/
theorem linkCommandRows : Obligations.LinkCommandRows := by
  unfold Obligations.LinkCommandRows
  intro n s hn l okSt
  refine ⟨fun hservice => ?outside, fun hphase hfabric => ?inside⟩
  case outside =>
    have hstate : ∀ f, lnkCmd n s f = okSt s Status.state := fun f => lnkCmd_of_no_service f hservice
    exact ⟨onLink_eq hn (hstate _), onLink_eq hn (hstate _), onLink_eq hn (hstate _), onLink_eq hn (hstate _), onLink_eq hn (hstate _),
      onLink_eq hn (if_neg fun h => hservice h.2)⟩
  case inside =>
    have hfence : l.state ≠ .up → l.state ≠ .fenced → exec (.lnkFence n) s = .next ((okSt s Status.ok).enter n .fenced) :=
      fun hup hfenced => onLink_eq hn (lnkFence_at_once hphase hfabric hup hfenced)
    refine ⟨fun h => onLink_eq hn (lnkEnable_off hphase hfabric h), fun h => onLink_eq hn (lnkEnable_not_off hphase hfabric h),
      enableRetry_off hphase hfabric hn, fun h => onLink_eq hn (lnkDisable_off hphase hfabric h),
      fun h => onLink_eq hn (lnkDisable_up hphase hfabric h),
      fun h => ⟨onLink_eq hn (lnkDisable_trains hphase hfabric h),
        hfence (by rcases h with h | h | h <;> simp [h]) (by rcases h with h | h | h <;> simp [h])⟩,
      fun h => hfence (by simp [h]) (by simp [h]),
      fun h => ⟨onLink_eq hn (lnkFence_up hphase hfabric h), onLink_eq hn (lnkRetrain_up hphase hfabric h)⟩,
      fun h => onLink_eq hn (lnkRetrain_not_up hphase hfabric h),
      fun h => ⟨onLink_eq hn (lnkDisable_fenced hphase hfabric h), onLink_eq hn (lnkFence_fenced hphase hfabric h)⟩,
      fun h hfree => onLink_eq hn (lnkUnfence_free hphase hfabric h hfree),
      fun h hheld => onLink_eq hn (lnkUnfence_held hphase hfabric h hheld),
      fun h => onLink_eq hn (lnkUnfence_not_fenced hphase hfabric h)⟩
end

section
/-! SUPPORT. What moves a port between its states without a command (09 R243, R247-R249, R251, R258; 14 R381). -/

namespace Sys2Proof.Machine

/-! ### Ways a port fails -/

section
variable {n : Nat} {s : State}

/-- The first nine failures of a port send it to Off. -/
theorem State.attemptFailed_retries (h : (s.link n).attempts < 9) :
    s.attemptFailed n = (s.setLink n { s.link n with attempts := (s.link n).attempts + 1 }).enter n .off :=
  if_pos (Nat.succ_lt_succ h)
/-- The tenth fences it, with a record. -/
theorem State.attemptFailed_fences (h : 9 ≤ (s.link n).attempts) :
    s.attemptFailed n = ((s.setLink n { s.link n with attempts := (s.link n).attempts + 1 }).enter n .fenced).report
      (Rec.mk' Status.linkDown Sev.corrected Blk.lnk n) :=
  if_neg (Nat.not_lt.2 (Nat.succ_le_succ h))

theorem State.signalLost_trains (h : (s.link n).state = .training ∨ (s.link n).state = .keying) : s.signalLost n = s.attemptFailed n := by
  obtain h | h := h <;> rw [State.signalLost, h]
theorem State.signalLost_retraining (h : (s.link n).state = .retraining) : s.signalLost n = s.enter n .off := by
  rw [State.signalLost, h]
theorem State.signalLost_up (h : (s.link n).state = .up) : s.signalLost n = s.enter n .retraining := by
  rw [State.signalLost, h]

variable (hn : n < 48)
include hn

theorem exec_noFlitTimeout : exec (.noFlitTimeout n) s = .next (s.signalLost n) := onLink_eq hn rfl
theorem exec_lossOfSignal {lane : Nat} (hlane : lane < 8) : exec (.lossOfSignal n lane) s = .next (s.signalLost n) := onLink_eq hn (if_pos hlane)
theorem exec_trainingTimeout_trains (h : (s.link n).state = .training ∨ (s.link n).state = .keying) :
    exec (.trainingTimeout n) s = .next (s.attemptFailed n) := by
  refine onLink_eq hn ?_
  obtain h | h := h <;> rw [h]
theorem exec_trainingTimeout_retraining (h : (s.link n).state = .retraining) : exec (.trainingTimeout n) s = .next (s.enter n .off) := by
  refine onLink_eq hn ?_
  rw [h]
theorem exec_trainingTimeout_up (h : (s.link n).state = .up) : exec (.trainingTimeout n) s = .next s := by
  refine onLink_eq hn ?_
  rw [h]
end

/-- The power of a cable by its kind, its length and whether the port leads to the twin (18 R474). -/
theorem cablePower_eq (n : Nat) (cable : Cable) : cablePower n cable = match cable with
    | .activeOptical cm => if 42 ≤ n ∧ n ≤ 45 then (if cm ≤ 10000 then 4000 else 0) else if cm ≤ 500 then 1500 else 0
    | .passive cm => if (42 ≤ n ∧ n ≤ 45) ∨ 500 < cm then 0 else 500
    | .other | .none => 0 := by
  cases cable with
  | activeOptical cm => simp only [cablePower, isTwinPort, decide_eq_true_eq]
  | passive cm =>
    simp only [cablePower, isTwinPort, Bool.not_eq_true', decide_eq_false_iff_not, ← Nat.not_lt, ← not_or]
    exact ite_not _ _ _
  | _ => rfl

/-! ### Keying and keys -/

/-- The shares that a working copy is split into hold the key (14 R384). -/
theorem State.split_key (s : State) (key : BitVec 256) : (s.split key).1.key = key := by
  show Config.trng s.free ^^^ (key ^^^ Config.trng s.free) = key
  rw [BitVec.xor_comm, BitVec.xor_assoc, BitVec.xor_self, BitVec.xor_zero]

section
variable {n : Nat} {s : State} {a b c d : State}

section
variable (hstate : (s.link n).state = .keying) (hpeer : (s.link n).accepted = false) (htrng : s.chr.trngFailed = false)
include hstate hpeer htrng

theorem keying_may_begin : ¬((s.link n).state ≠ .keying ∨ (s.link n).accepted = true ∨ s.chr.trngFailed = true) := by
  simp [hstate, hpeer, htrng]
/-- A keying passes its checks: the port is in Keying, the vault signs and the module has its identity key (09 R247; 14 R378, R383). -/
theorem keyingChecks_pass (hserves : s.deviceServes akSlot Usage.sign = true) (hblank : s.chr.lcs ≠ .blank) (hend : s.chr.lcs ≠ .endOfLife) :
    (if (s.link n).state ≠ .keying ∨ (s.link n).accepted ∨ s.chr.trngFailed then a else
      if !s.deviceServes akSlot Usage.sign then b else if s.chr.lcs = .blank ∨ s.chr.lcs = .endOfLife then c else d) = d := by
  rw [if_neg (keying_may_begin hstate hpeer htrng), if_neg (by simp [hserves]), if_neg (by simp [hblank, hend])]
end

section
variable (hstate : (s.link n).state = .keying) (hpeer : (s.link n).accepted = true)
include hstate hpeer

theorem keys_may_come : ¬((s.link n).state ≠ .keying ∨ (!(s.link n).accepted) = true) := by
  simp [hstate, hpeer]
/-- A port takes its keys where it has accepted its peer, the AK is that of the keying, and the vault serves the ephemeral key. -/
theorem keysChecks_pass (hak : (s.link n).akOld = false) (hserves : (s.link n).eph.any (fun i => s.deviceServes i Usage.ecdh) = true) :
    (if (s.link n).state ≠ .keying ∨ !(s.link n).accepted then a else if (s.link n).akOld then b else
      if !(s.link n).eph.any (fun i => s.deviceServes i Usage.ecdh) then c else d) = d := by
  rw [if_neg (keys_may_come hstate hpeer), if_neg (by simp [hak]), if_neg (by simp [hserves])]
end
end

/-! ### Credits at an Up -/

section
variable {α : Type} [DecidableEq α] (d : α)

/-- Each key that a fold has written reads as its value, in a store in canonical form. -/
theorem sget_foldl_sset_wf (f : Nat → α) (l : List Nat) (m : Store α) (w : swf d m = true) {n : Nat} (h : n ∈ l ∨ sget d m n = f n) :
    sget d (l.foldl (fun m n => sset d m n (f n)) m) n = f n := by
  induction l generalizing m with
  | nil => exact h.resolve_left List.not_mem_nil
  | cons k l ih =>
    refine ih _ (swf_sset d m k _ w) ?_
    by_cases hk : n = k
    · exact .inr (by rw [hk, sget_sset_wf d 0 m k _ w])
    · rw [sget_sset_ne d m k n _ hk]
      exact h.imp_left (fun hmem => (List.mem_cons.1 hmem).resolve_left hk)
end

section
variable (l : Link) (occ : List Nat)

theorem Link.resynced_credits {v : Nat} (hv : v < 8) : sget 0 (l.resynced occ).credits v = vcPool v - occ.getD v 0 :=
  sget_foldl_sset_wf 0 (fun v => vcPool v - occ.getD v 0) _ [] rfl (.inl (List.mem_range.2 hv))
theorem Link.resynced_credSeen {v : Nat} (hv : v < 8) (hstated : 8 + v < occ.length) :
    sget 0 (l.resynced occ).credSeen v = occ.getD (8 + v) 0 := by
  refine (sget_foldl_sset_wf 0 (fun v => occ.getD (8 + v) (sget 0 l.credSeen v)) _ [] rfl (.inl (List.mem_range.2 hv))).trans ?_
  simp only [List.getD_eq_getElem _ _ hstated]
/-- A resync counts the pools whose ledger it corrects, of a port that has been Up before. -/
theorem Link.resynced_resync_first (hkeyed : l.keyed = false) : (l.resynced occ).resync = satAdd 8 l.resync 0 := by
  simp [Link.resynced, hkeyed]
theorem Link.resynced_resync_again (hkeyed : l.keyed = true) : (l.resynced occ).resync = satAdd 8 l.resync
    ((List.range 8).filter (fun v => decide (sget 0 l.credits v ≠ vcPool v - occ.getD v 0))).length := by
  simp only [Link.resynced, hkeyed, Bool.true_and, bne, decide_not, beq_eq_decide]
end

/-! ### The replay buffer at an Up -/

section
variable {l : Link} {a : Nat}

/-- An ACK of no flit in the replay buffer frees nothing. -/
theorem Link.ack_of_forall_ne (h : ∀ y ∈ l.replay, y.seq % 65536 ≠ a) : l.ack a = l := by
  refine if_neg ?_
  simpa using h

theorem Link.rearmed_empty (h : l.replay = []) :
    (l.rearmed a).resendAt = none ∧ (l.rearmed a).txSeq = l.txSeq % 65536 ∧ (l.rearmed a).leftUpAt = 0 := by
  rw [Link.rearmed, Link.ack_of_forall_ne (by simp [h])]
  simp [h]

section
variable {x : Sent} {r : List Sent} (h : l.replay = x :: r) (hnone : ∀ y ∈ x :: r, y.seq % 65536 ≠ a)
include h hnone

theorem Link.rearmed_resend : (l.rearmed a).resendAt = some 0 ∧ (l.rearmed a).txSeq = x.seq % 65536 + (r.length + 1) := by
  rw [Link.rearmed, Link.ack_of_forall_ne (h ▸ hnone)]
  simp [h]
/-- What was not acknowledged is numbered anew, without a gap. -/
theorem Link.rearmed_seqs : (l.rearmed a).replay.map (·.seq) = List.range' (x.seq % 65536) (r.length + 1) := by
  rw [Link.rearmed, Link.ack_of_forall_ne (h ▸ hnone)]
  simp only [h, List.map_map]
  calc (x :: r).zipIdx.map (fun e => x.seq % 65536 + e.2)
      = ((x :: r).zipIdx.map Prod.snd).map (x.seq % 65536 + ·) := List.map_map.symm
    _ = List.range' (x.seq % 65536) (r.length + 1) := by rw [List.zipIdx_map_snd, List.map_add_range', Nat.add_zero, List.length_cons]
/-- Its flits keep their number and their bytes. -/
theorem Link.rearmed_flits :
    (l.rearmed a).replay.map (fun y => (y.flit.seq, y.flit.body)) = (x :: r).map (fun y => (y.flit.seq, y.flit.body)) := by
  rw [Link.rearmed, Link.ack_of_forall_ne (h ▸ hnone)]
  simp only [h, List.map_map]
  calc (x :: r).zipIdx.map (fun e => (e.1.flit.seq, e.1.flit.body))
      = ((x :: r).zipIdx.map Prod.fst).map (fun y => (y.flit.seq, y.flit.body)) := by rw [List.map_map]; rfl
    _ = (x :: r).map (fun y => (y.flit.seq, y.flit.body)) := by rw [List.zipIdx_map_fst]
end
end

end Sys2Proof.Machine
end

section
open Sys2Proof Sys2Proof.Machine Sys2Proof.Claims

/-- Settles O24: each row by the state of the port, and the resync and the replay buffer of an Up by their own lemmas. -/
theorem linkTransitionRows : Obligations.LinkTransitionRows := by
  unfold Obligations.LinkTransitionRows
  refine ⟨?port, fun l occ => ?up⟩
  case port =>
    intro n s hn l okSt
    refine ⟨fun g htarget => ?drained, fun htarget => ?undrained, fun rev inv rx tx => ?lock, fun ev => ?keying, fun occ => ?keys,
      fun htrains hmany => ?retries, fun htrains hlast => ?fences, fun h => ?retraining, fun h => ?isUp,
      fun cable => ⟨onLink_eq hn rfl, cablePower_eq n cable⟩⟩
    case drained => exact onLink_eq hn (by rw [show (s.link n).target = some g from htarget])
    case undrained => exact onLink_eq hn (by rw [show (s.link n).target = none from htarget])
    case lock =>
      refine ⟨fun h => onLink_eq hn ?_, fun h => onLink_eq hn ?_⟩
      · split
        case h_1 => rfl
        case h_2 h' => cases h.symm.trans h'
        case h_3 h' _ => exact absurd h h'
      · rw [show (s.link n).state = .retraining from h]
    case keying =>
      refine ⟨fun h => onLink_eq hn (if_pos h), fun hstate hpeer htrng => ⟨fun hserves => ?_, fun hserves hlcs => ?_,
        fun hserves hblank hend => ?_⟩⟩
      · exact onLink_eq hn ((if_neg (keying_may_begin hstate hpeer htrng)).trans (if_pos (congrArg not hserves)))
      · exact onLink_eq hn ((if_neg (keying_may_begin hstate hpeer htrng)).trans
          ((if_neg (ne_true_of_eq_false (congrArg not hserves))).trans (if_pos hlcs)))
      · have hpass {a b c d : State} := keyingChecks_pass (a := a) (b := b) (c := c) (d := d) hstate hpeer htrng hserves hblank hend
        refine ⟨fun hfree => onLink_eq hn (hpass.trans ?_), fun i hfree => onLink_eq hn (hpass.trans ?_)⟩
        · rw [hfree]
        · rw [hfree]
          rfl
    case keys =>
      refine ⟨fun h => onLink_eq hn (if_pos (by simpa using h)), fun hstate hpeer hak => ?_, fun hstate hpeer hak hserves => ?_,
        fun i hstate hpeer hak heph hserves => ?_⟩
      · exact onLink_eq hn ((if_neg (keys_may_come hstate hpeer)).trans (if_pos hak))
      · exact onLink_eq hn ((if_neg (keys_may_come hstate hpeer)).trans
          ((if_neg (ne_true_of_eq_false hak)).trans (if_pos (congrArg not hserves))))
      · intro dir w tk rk m t
        refine ⟨State.split_key _ _, State.split_key _ _, ?_⟩
        have hdir : dir = b2n (decide (l.peerUid < Config.uid.toNat)) := by simp [dir, b2n]
        clear_value dir
        subst hdir
        refine onLink_eq hn ((keysChecks_pass hstate hpeer hak ((congrArg _ heph).trans hserves)).trans ?_)
        exact if_congr (and_congr_right' (by simp; rfl)) rfl rfl
    case retries =>
      have hfails := State.attemptFailed_retries hmany
      refine ⟨(exec_trainingTimeout_trains hn htrains).trans (congrArg _ hfails), fun lane hlane => ?_, ?_⟩
      · rw [exec_lossOfSignal hn hlane, State.signalLost_trains htrains, exec_trainingTimeout_trains hn htrains]
      · rw [exec_noFlitTimeout hn, State.signalLost_trains htrains, exec_trainingTimeout_trains hn htrains]
    case fences => exact (exec_trainingTimeout_trains hn htrains).trans (congrArg _ (State.attemptFailed_fences hlast))
    case retraining =>
      exact ⟨exec_trainingTimeout_retraining hn h, (exec_noFlitTimeout hn).trans (congrArg _ (State.signalLost_retraining h))⟩
    case isUp =>
      have hlost := State.signalLost_up h
      exact ⟨exec_trainingTimeout_up hn h, (exec_noFlitTimeout hn).trans (congrArg _ hlost),
        fun lane hlane => ⟨(exec_lossOfSignal hn hlane).trans (congrArg _ hlost), onLink_eq hn (if_pos ⟨hlane, h⟩)⟩⟩
  case up =>
    exact ⟨fun v hv => ⟨l.resynced_credits occ hv, l.resynced_credSeen occ hv⟩, l.resynced_resync_first occ, l.resynced_resync_again occ, rfl,
      fun a => Link.rearmed_empty, fun a x r h hnone => ⟨(Link.rearmed_resend h hnone).1, (Link.rearmed_resend h hnone).2,
        Link.rearmed_seqs h hnone, Link.rearmed_flits h hnone⟩⟩
end

section
/-! SUPPORT. What a port that is Up receives (09 R242-R246, R252, R257): a codeword, and a flit whose bits are all there. -/

namespace Sys2Proof.Machine

/-! ### Codewords -/

section
variable {l : Link} {rx : FlitRx}

theorem Link.takeCodeword_uncorrectable (h : rsDecode (gatherLanes l.laneRev l.laneInv rx.lanes) = none) :
    l.takeCodeword rx = { l with uncorr := satAdd 16 l.uncorr 1, rxFec := l.rxFec ++ [(false, 5140, 0)] } := by
  rw [Link.takeCodeword, h]
  rfl
theorem Link.takeCodeword_corrected {cw : List Nat} {k : Nat} (h : rsDecode (gatherLanes l.laneRev l.laneInv rx.lanes) = some (cw, k)) :
    l.takeCodeword rx = { l.adapt rx.errs cw with
      corr := if k = 0 then l.corr else satAdd 32 l.corr 1, rxFec := l.rxFec ++ [(true, 5140, symsValue (cw.take 514))] } := by
  rw [Link.takeCodeword, h]
  rfl
end

section
variable {l : Link} {bytes : List Byte}

theorem Link.code_waits (h : l.fecBits + 2048 < 5140) :
    l.code bytes = ([], { l with fecAcc := l.fecAcc + leNat bytes * 2 ^ l.fecBits, fecBits := l.fecBits + 2048 }) := by
  simp only [Link.code, rsMsg, Nat.reduceMul]
  exact if_pos h
/-- A flit that fills a codeword: the codeword leaves over the lanes, and the tap steps that waited for its end are taken (09 R252). -/
theorem Link.code_fills (h : 5140 ≤ l.fecBits + 2048) :
    let acc := l.fecAcc + leNat bytes * 2 ^ l.fecBits
    l.code bytes = (dealLanes (rsEncode ((List.range 514).map (fun i => acc / 2 ^ (10 * i) % 1024))), { l with
      fecAcc := acc / 2 ^ 5140, fecBits := l.fecBits + 2048 - 5140
      txTaps := l.eqIn.foldl (fun t e => Config.tapStep e t) l.txTaps, eqIn := [] }) := by
  simp only [Link.code, rsMsg, Nat.reduceMul]
  exact if_neg (Nat.not_lt.2 h)
end

/-! ### What a flit asks of the port -/

/-- A flit in order ends the wait for a replay; one with a packet's bytes is counted, and an ACK of it is due. -/
def Link.inOrder (l : Link) (vc : Nat) (x : Flit) : Link :=
  if x.idle then { l with replaying := false, nakDue := false } else
    { l with
      rxNext := l.rxNext + 1, replaying := false, nakDue := false, rxAckDue := true, occ := sset 0 l.occ vc (sget 0 l.occ vc + 1) }
/-- A port after a flit in order, but for its NAK. -/
def Link.served (l : Link) (vc : Nat) (x : Flit) : Link := (((l.inOrder vc x).ack x.ack).cred x.cvc x.cred).tapAsked x.eq

theorem Link.inOrder_replayTimes (l : Link) (vc : Nat) (x : Flit) : (l.inOrder vc x).replayTimes = l.replayTimes := by
  unfold Link.inOrder
  split <;> rfl
theorem Link.ack_replayTimes (l : Link) (a : Nat) : (l.ack a).replayTimes = l.replayTimes := by
  unfold Link.ack
  split <;> rfl
theorem Link.tapAsked_replayTimes (l : Link) (eq : Nat) : (l.tapAsked eq).replayTimes = l.replayTimes := by
  unfold Link.tapAsked
  split
  · rfl
  · split <;> rfl
/-- Only a replay is noted with the replays. -/
theorem Link.served_replayTimes (l : Link) (vc : Nat) (x : Flit) : (l.served vc x).replayTimes = l.replayTimes :=
  by
  rw [Link.served, Link.tapAsked_replayTimes, ← l.inOrder_replayTimes vc x]
  exact Link.ack_replayTimes _ _

/-- A NAK that repeats the request of the replay under way, within its round trip, starts none (09 R245; assumption 106). -/
theorem Link.nakStarts_eq_not (l : Link) (now ack : Nat) : l.nakStarts now ack = true ↔
    ¬(match l.nakAt with
      | some (a, t) => a = ack ∧ now < t + 1500
      | none => False) := by
  rw [Link.nakStarts]
  cases l.nakAt with
  | none => simp
  | some r =>
    obtain ⟨a, t⟩ := r
    rw [show (1500 : Nat) = replayTrip from rfl]
    simp [imp_iff_not_or]

/-! ### Receiving a flit -/

section
variable {n : Nat} {s : State} {rx : FlitRx} {m : Link} {v : Nat} {rest : List (Bool × Nat × Nat)} (hn : n < 48) (hup : (s.link n).state = .up)
  (hm : (if rx.lanes.isEmpty then s.link n else (s.link n).takeCodeword rx) = m)
include hn hup hm

theorem exec_flitReceive_incomplete (hbits : takeBits 2048 m.rxFec = none) : exec (.flitReceive n rx) s = .next (s.setLink n m) := by
  refine onLink_eq hn ((if_neg (not_not_intro hup)).trans ?_)
  rw [hm]
  extract_lets m'
  rw [show takeBits 2048 m'.rxFec = none from hbits]
theorem exec_flitReceive_uncorrectable (hbits : takeBits 2048 m.rxFec = some (false, v, rest)) :
    exec (.flitReceive n rx) s = .next (s.setLink n { m.discardFlit with rxFec := rest, idleGap := m.idleGap + 1 }) := by
  refine onLink_eq hn ((if_neg (not_not_intro hup)).trans ?_)
  rw [hm]
  extract_lets m'
  rw [show takeBits 2048 m'.rxFec = some (false, v, rest) from hbits]

section
variable {l : Link} (hbits : takeBits 2048 m.rxFec = some (true, v, rest)) (hl : l = { m with rxFec := rest })
include hbits hl

theorem exec_flitReceive_unauthentic (hopen : l.openFlit (leBytes 256 v) = none) :
    let u := s.setLink n { l.discardFlit with
      authf := satAdd 8 l.authf 1, authTimes := recent s.tim.up l.authTimes, idleGap := l.idleGap + 1 }
    exec (.flitReceive n rx) s = .next (if (recent s.tim.up l.authTimes).length < 16 then u else
      (u.enter n .retraining).report (Rec.mk' Status.linkAuth Sev.corrected Blk.lnk n)) := by
  subst hl
  refine onLink_eq hn ((if_neg (not_not_intro hup)).trans ?_)
  rw [hm]
  extract_lets m'
  rw [show takeBits 2048 m'.rxFec = some (true, v, rest) from hbits]
  dsimp -zeta only
  extract_lets l'
  rw [show l'.openFlit (leBytes 256 v) = none from hopen]

section
variable {x : Flit} {seq : Nat} {i : Link} (hopen : l.openFlit (leBytes 256 v) = some (x, seq))
  (hi : i = if x.idle then { l with rxIdle := seq + 1, idleGap := 0 } else l)
include hopen hi

theorem exec_flitReceive_outOfOrder (hseq : x.seq ≠ (if x.idle then (i.rxNext + 65535) % 65536 else i.rxNext % 65536)) :
    exec (.flitReceive n rx) s = .next (s.setLink n i.discardFlit) := by
  subst hl
  refine onLink_eq hn ((if_neg (not_not_intro hup)).trans ?_)
  rw [hm]
  extract_lets m'
  rw [show takeBits 2048 m'.rxFec = some (true, v, rest) from hbits]
  dsimp -zeta only
  extract_lets l'
  rw [show l'.openFlit (leBytes 256 v) = some (x, seq) from hopen]
  dsimp -zeta only
  rw [show (if x.idle then { l' with rxIdle := seq + 1, idleGap := 0 } else l') = i from hi.symm]
  exact if_pos hseq
/-- A flit in order has its effect, and a NAK that starts a replay notes it; the 64th within 1 ms retrains. -/
theorem exec_flitReceive_inOrder (hseq : x.seq = (if x.idle then (i.rxNext + 65535) % 65536 else i.rxNext % 65536))
    {first : Option Nat} (hfirst : first = if (i.served rx.vc x).replay.isEmpty then none else some 0) :
    let w := i.served rx.vc x
    let u := s.setLink n { w with
      replays := satAdd 16 w.replays 1, replayTimes := recent s.tim.up w.replayTimes, nakAt := some (x.ack, s.tim.up), resendAt := first }
    exec (.flitReceive n rx) s = .next (if !x.nak ∨ !w.nakStarts s.tim.up x.ack then s.setLink n w else
      if (recent s.tim.up w.replayTimes).length < 64 then u else u.enter n .retraining) := by
  intro w u
  subst hl hfirst
  refine onLink_eq hn ((if_neg (not_not_intro hup)).trans ?_)
  rw [hm]
  extract_lets m'
  rw [show takeBits 2048 m'.rxFec = some (true, v, rest) from hbits]
  dsimp -zeta only
  extract_lets l'
  rw [show l'.openFlit (leBytes 256 v) = some (x, seq) from hopen]
  dsimp -zeta only
  rw [show (if x.idle then { l' with rxIdle := seq + 1, idleGap := 0 } else l') = i from hi.symm]
  exact if_neg (not_not_intro hseq)
end
end
end

end Sys2Proof.Machine
end

section
/-! SUPPORT. What a port that is Up sends (09 R245, R250, R252, R253, R257, R266): the packet that may go next, the flit that it sends, and
the packets of a port that has left Up. -/

namespace Sys2Proof.Machine

/-! ### Ready packets -/

/-- The first of the values that a list's entries give, where they all give one. -/
theorem findSome?_ite {α β : Type} (p : α → Bool) (b : β) (l : List α) :
    l.findSome? (fun k => if p k then some b else none) = if l.any p then some b else none := by
  induction l with
  | nil => rfl
  | cons k l ih => cases hk : p k <;> simp [hk, ih]

section
variable {l : Link} {e : TxEnt}

theorem Link.ready_empty (htxq : l.txq = []) : l.ready = [] := by
  rw [Link.ready, htxq]
  rfl
/-- A packet alone at its port is ready as soon as it has its credit and its share. -/
theorem Link.ready_single (htxq : l.txq = [e]) : l.ready = if l.maySend e.pkt then [0] else [] := by
  cases hmay : l.maySend e.pkt <;> simp [Link.ready, htxq, hmay]
theorem Link.maySend_no_credit {p : Packet} (h : sget 0 l.credits p.vc = 0) : l.maySend p = false := by
  simp [Link.maySend, h]

theorem Link.pick_of_ready_nil (h : l.ready = []) (f : Packet → Bool) : l.pick f = none := by
  rw [Link.pick, h]
  rfl
theorem Link.nextOf_of_ready_nil (h : l.ready = []) : l.nextOf = none := by
  have hpick : ∀ f, l.pick f = none := Link.pick_of_ready_nil h
  rw [Link.nextOf, hpick, ite_self]
  cases l.slotAt l.slotNext with
  | mk t isSealed => cases isSealed <;> simp [hpick]

section
variable (htxq : l.txq = [e]) (hmay : l.maySend e.pkt = true)
include htxq hmay

theorem Link.pick_single (f : Packet → Bool) : l.pick f = if f e.pkt then some 0 else none := by
  rw [Link.pick, Link.ready_single htxq, if_pos hmay]
  cases hf : f e.pkt <;> simp [htxq, hf]
/-- A SYNC or MGMT packet goes where none has had one of the last eight flit times (09 R266). -/
theorem Link.nextOf_prio (hvc : 4 ≤ e.pkt.vc) (hwait : l.prioWait = 0) : l.nextOf = some 0 := by
  rw [Link.nextOf, if_pos hwait, Link.pick_single htxq hmay, if_pos (decide_eq_true hvc)]
/-- Another packet of Pooled traffic goes in a Pooled slot. -/
theorem Link.nextOf_pooled (hvc : e.pkt.vc < 4) (howner : l.ownerOf e.pkt = 0) (hslot : (l.slotAt l.slotNext).2 = false) :
    l.nextOf = some 0 := by
  have hfirst : l.pick (fun p => decide (4 ≤ p.vc)) = none := (Link.pick_single htxq hmay _).trans (if_neg (by simpa using hvc))
  have hround : (List.range 4).findSome? (fun k => l.pick (fun p => p.vc == (l.rrNext + k) % 4 && l.ownerOf p == 0)) = some 0 := by
    have hturn : e.pkt.vc = (l.rrNext + (e.pkt.vc + 4 - l.rrNext % 4) % 4) % 4 := by omega
    simp only [Link.pick_single htxq hmay, findSome?_ite]
    exact if_pos (List.any_eq_true.2 ⟨(e.pkt.vc + 4 - l.rrNext % 4) % 4, List.mem_range.2 (Nat.mod_lt _ (by decide)),
      by simpa [howner] using hturn⟩)
  rw [Link.nextOf, hfirst, ite_self]
  cases hs : l.slotAt l.slotNext with
  | mk t isSealed =>
    rw [hs] at hslot
    subst hslot
    exact hround
end
end

/-! ### The next flit -/

section
variable {l : Link}

section
variable (hresend : l.resendAt = none)
include hresend

theorem Link.transmit_idle (hnext : (if l.replay.length < 1024 then l.nextOf else none) = none) :
    l.transmit = ((l.sendIdle.1, l.idleSeq), l.sendIdle.2) := by
  simp only [Link.transmit, hresend, hnext, Option.bind_none]
theorem Link.transmit_flit {i : Nat} {e : TxEnt} (hroom : l.replay.length < 1024) (hnext : l.nextOf = some i) (he : l.txq[i]? = some e) :
    l.transmit = (((l.sendFlit i e).1, l.txSeq), (l.sendFlit i e).2) := by
  simp only [Link.transmit, hresend, if_pos hroom, hnext, Option.bind_some, he]
end

/-- A packet that fits one flit: its header is 32 bytes. -/
theorem Packet.bytes_length (p : Packet) : (Packet.bytes p).length = 32 + p.payload.length := by
  simp [Packet.bytes, leBytes]
  omega
theorem Packet.slice_bytes {p : Packet} (h : p.payload.length ≤ 200) : slice (Packet.bytes p) (232 * 0) 232 = Packet.bytes p := by
  rw [slice, Nat.mul_zero, List.drop_zero, List.take_of_length_le]
  rw [Packet.bytes_length]
  omega
theorem pktFlits_le_one {p : Packet} (h : p.payload.length ≤ 200) : pktFlits p ≤ 1 := by
  rw [pktFlits]
  omega

/-- A packet of one flit that is alone at its port: its flit holds the whole packet, and nothing is left to send. -/
theorem Link.sendFlit_whole {p : Packet} {b : Buffered} {holds : Bool} (htxq : l.txq = [⟨0, p, b, holds⟩]) (h : p.payload.length ≤ 200) :
    let c := l.control
    let x := { c.1 with
      seq := l.txSeq % 65536, sop := true, body := Packet.bytes p ++ List.replicate (232 - (Packet.bytes p).length) 0 }
    l.sendFlit 0 ⟨0, p, b, holds⟩ = (x, { c.2 with
      slotNext := (l.slotNext + 1) % 64, prioWait := if 4 ≤ p.vc then 7 else l.prioWait - 1
      credits := sset 0 l.credits p.vc (sget 0 l.credits p.vc - 1)
      outst := sset [] l.outst p.vc (sget [] l.outst p.vc ++ [l.ownerOf p]), txSeq := l.txSeq + 1
      replay := l.replay ++ [⟨l.txSeq, x, p.vc, l.ownerOf p, false⟩]
      rrNext := if p.vc < 4 ∧ (l.slotAt l.slotNext).2 = false then (p.vc + 1) % 4 else l.rrNext
      txq := [], inFlight := l.inFlight ++ [(l.txSeq % 65536, ⟨0, p, b, false⟩)] }) := by
  intro c x
  simp only [Link.sendFlit, Packet.slice_bytes h, Nat.zero_add, pktFlits_le_one h, decide_true, if_true, htxq, decide_eq_true_eq,
    Bool.not_eq_true', Link.spend, Link.slotPast, List.eraseIdx_cons_zero]
  rfl

/-- The buffer of a packet that is alone at its port and leaves it. -/
theorem Link.freedBy_single {l' : Link} {e : TxEnt} (htxq : l.txq = [e]) (hsent : e.sent = 0) (hgone : l'.txq = []) :
    l.freedBy l' = if e.holds then some e.was else none := by
  rw [Link.freedBy, htxq, hgone]
  cases hholds : e.holds <;> simp [hsent, hholds]
theorem Link.freedBy_empty {l' : Link} (htxq : l.txq = []) : l.freedBy l' = none := by
  rw [Link.freedBy, htxq]
  rfl
end

/-! ### Queued packets -/

theorem State.purgeTxq_empty {s : State} {n : Nat} (h : (s.link n).txq = []) : s.purgeTxq n = s := by
  rw [State.purgeTxq, h]
  rfl
/-- Ten milliseconds have passed since the port left Up with flits unacknowledged (09 R250). -/
theorem State.mayMove_iff (s : State) (n : Nat) :
    s.mayMove n = true ↔ (s.link n).leftUpAt ≠ 0 ∧ (s.link n).leftUpAt + 10000000 ≤ s.tim.up + 1 := by
  simp [State.mayMove]
/-- A packet goes back to the buffers as it was buffered where it holds its buffer still, and else to leave once more. -/
theorem TxEnt.back_eq : (fun e : TxEnt => if e.sent = 0 then e.back else { e.was with again := true }) =
    fun e => if e.sent = 0 ∧ e.holds = true then e.was else { e.was with again := true } := by
  funext e
  rw [TxEnt.back]
  by_cases hsent : e.sent = 0 <;> simp [hsent]

end Sys2Proof.Machine
end

section
open Sys2Proof Sys2Proof.Machine Sys2Proof.Claims

/-- Settles O25: the rows of what a port receives and sends, each by the stages of its flit. -/
theorem linkFlitRows : Obligations.LinkFlitRows := by
  unfold Obligations.LinkFlitRows
  intro n s hn l now
  refine ⟨fun rx hdown => onLink_eq hn (if_pos hdown), fun rx hup => ?receive, fun eq => rfl, fun bytes => ?code,
    fun hdown => onLink_eq hn (if_pos hdown), fun hup hend => ?ends, fun hup hseq hidle => ?transmit, ?next, ?moves,
    fun g hup htap => ?tap, fun g a hup htap hearly => ?tapEarly, fun heavy total hup => ?margin⟩
  case receive =>
    intro lanes m
    have hm : (if rx.lanes.isEmpty then s.link n else (s.link n).takeCodeword rx) = m := if_congr List.isEmpty_iff rfl rfl
    refine ⟨Link.takeCodeword_uncorrectable, fun cw k => Link.takeCodeword_corrected, exec_flitReceive_incomplete hn hup hm,
      fun v rest => exec_flitReceive_uncorrectable hn hup hm, fun v rest hbits => ?_⟩
    intro m' late naks
    refine ⟨fun hopen => ?_, fun x seq hopen => ?_⟩
    · have hexec := exec_flitReceive_unauthentic hn hup hm hbits rfl hopen
      exact ⟨fun hfew => hexec.trans (congrArg _ (if_pos (Nat.succ_lt_succ hfew))),
        fun hmany => hexec.trans (congrArg _ (if_neg (Nat.not_lt.2 (Nat.succ_le_succ hmany))))⟩
    · intro i good took w r again
      have hresend : (if w.replay = [] then none else some 0 : Option Nat) = if w.replay.isEmpty then none else some 0 :=
        if_congr List.isEmpty_iff.symm rfl rfl
      have hexec : good → _ := fun hgood => exec_flitReceive_inOrder hn hup hm hbits rfl hopen rfl hgood hresend
      have hlength : (recent now w.replayTimes).length = naks.length + 1 := by
        rw [show w.replayTimes = m'.replayTimes from (i.served_replayTimes rx.vc x).trans (by dsimp only [i]; split <;> rfl)]
        rfl
      have hstarts : ¬again → w.nakStarts now x.ack = true := (w.nakStarts_eq_not now x.ack).2
      have hrepeats : again → w.nakStarts now x.ack = false := fun hagain =>
        Bool.eq_false_iff.2 (mt (w.nakStarts_eq_not now x.ack).1 (not_not_intro hagain))
      have hreplay : good → x.nak = true → ¬again → exec (.flitReceive n rx) s =
          .next (if (recent now w.replayTimes).length < 64 then s.setLink n r else (s.setLink n r).enter n .retraining) :=
        fun hgood hnak hnew => (hexec hgood).trans (congrArg _ (if_neg (not_or.2
          ⟨ne_true_of_eq_false (congrArg not hnak), ne_true_of_eq_false (congrArg not (hstarts hnew))⟩)))
      refine ⟨exec_flitReceive_outOfOrder hn hup hm hbits rfl hopen rfl, fun hgood hno => ?_, fun hgood hnak hagain => ?_,
        fun hgood hnak hnew hfew => ?_, fun hgood hnak hnew hmany => ?_⟩
      · exact (hexec hgood).trans (congrArg _ (if_pos (.inl (congrArg not hno))))
      · exact (hexec hgood).trans (congrArg _ (if_pos (.inr (congrArg not (hrepeats hagain)))))
      · exact (hreplay hgood hnak hnew).trans (congrArg _ (if_pos (by omega)))
      · exact (hreplay hgood hnak hnew).trans (congrArg _ (if_neg (by omega)))
  case code => exact ⟨Link.code_waits, Link.code_fills⟩
  case ends => exact onLink_eq hn ((if_neg (not_not_intro hup)).trans (if_pos hend))
  case transmit =>
    intro u x bytes w f
    refine ⟨onLink_eq hn ((if_neg (not_not_intro hup)).trans ((if_neg ?_).trans rfl)), State.purgeTxq_empty⟩
    exact not_or.2 ⟨Nat.not_le.2 hseq, Nat.not_le.2 hidle⟩
  case next =>
    intro v c x idle hresend
    have hidle : l.ready = [] → l.transmit = idle := fun hready =>
      (Link.transmit_idle hresend (by rw [Link.nextOf_of_ready_nil hready, ite_self])).trans rfl
    refine ⟨fun htxq => ⟨hidle (Link.ready_empty htxq), Link.freedBy_empty htxq⟩, fun p b holds htxq => ⟨fun hcredit => ?_,
      fun hroom hmay hlength hturn => ?_⟩⟩
    · exact hidle ((Link.ready_single htxq).trans (if_neg (ne_true_of_eq_false (Link.maySend_no_credit hcredit))))
    · intro y
      have hnext : l.nextOf = some 0 := hturn.elim (fun h => Link.nextOf_prio htxq hmay h.1 h.2)
        (fun h => Link.nextOf_pooled htxq hmay h.1 h.2.1 h.2.2)
      have hsend := Link.transmit_flit hresend hroom hnext (e := ⟨0, p, b, holds⟩) (by rw [htxq]; rfl)
      rw [Link.sendFlit_whole htxq hlength] at hsend
      exact ⟨hsend, Link.freedBy_single htxq rfl (by rw [hsend])⟩
  case moves =>
    intro other goes
    refine ⟨fun hstays => onLink_eq hn (if_pos ?_), fun hleft hpast => ?_⟩
    · have hmay : ¬s.mayMove n = true := fun h => by
        obtain ⟨hleft, hpast⟩ := (s.mayMove_iff n).1 h
        exact hstays.elim hleft (Nat.not_lt.2 hpast)
      simpa using hmay
    · intro w
      refine onLink_eq hn ((if_neg ?_).trans ?_)
      · simpa using (s.mayMove_iff n).2 ⟨hleft, hpast⟩
      · rw [← TxEnt.back_eq]
  case tap =>
    refine onLink_eq hn (if_pos ⟨hup, ?_⟩)
    split
    case h_1 a ha => exact decide_eq_true (htap a ha)
    case h_2 => rfl
  case tapEarly =>
    refine onLink_eq hn (if_neg fun hok => ?_)
    have hok := hok.2
    rw [show (s.link n).tapAt = some a from htap] at hok
    exact absurd (of_decide_eq_true hok) (Nat.not_le.2 hearly)
  case margin => exact onLink_eq hn (if_congr (and_iff_right hup) rfl rfl)
end

section
/-! SUPPORT. Packets at the headworks (09 R255, R260-R265; 16 R435): the checks of a packet, its arrival, its hand-over to an endpoint, and its
way out of a buffer. -/

namespace Sys2Proof.Machine

/-! ### The checks of a packet -/

section
variable {s : State} {b : Buffered}

theorem State.checkPkt_stale (h : s.pktStale b.pkt = true) : s.checkPkt b = some ((s.dropPkt b .stale).sendLost b) := if_pos h
theorem State.checkPkt_aged (hfresh : s.pktStale b.pkt = false) (h : s.pktAged b.pkt = true) :
    s.checkPkt b = some (((s.dropPkt b .aged).agedRecord b.pkt).noteUnacked b) :=
  (if_neg (ne_true_of_eq_false hfresh)).trans (if_pos h)
theorem State.checkPkt_sound (hfresh : s.pktStale b.pkt = false) (hyoung : s.pktAged b.pkt = false) : s.checkPkt b = none :=
  (if_neg (ne_true_of_eq_false hfresh)).trans (if_neg (ne_true_of_eq_false hyoung))

/-- A packet that came in over a link is no send of this module, and none that it has to send again. -/
theorem State.sendLost_of_link (h : b.port < 48) : s.sendLost b = s := if_neg fun hmine => Nat.not_le.2 h hmine.1
theorem State.noteUnacked_of_link (h : b.port < 48) : s.noteUnacked b = s := if_neg fun hmine => Nat.not_le.2 h hmine.1

theorem State.syncPast_other {p : Packet} (h : p.typ ≠ 4) : s.syncPast p = s := if_neg fun hsync => h hsync.1

/-- Diapause takes the packets that it does not let through (16 R435). -/
theorem sleeps_iff {p : Packet} :
    ¬(s.pwr.sleep ≠ .diapause ∨ s.sleepPasses p = true) ↔ s.pwr.sleep = .diapause ∧ (!s.sleepPasses p) = true := by
  simp [not_or]
end

/-! ### Arrival -/

section
variable {n : Nat} {p : Packet} {s : State} (hn : n < 48) (hup : (s.link n).state = .up)
include hn hup

theorem exec_packetArrival_malformed (hbad : pktMalformed p = true) :
    exec (.packetArrival n p) s = .next ((s.dropPkt ⟨p, n, false⟩ .malformed).malformedRecord p) :=
  onLink_eq hn ((if_neg (not_not_intro hup)).trans (if_pos hbad))

section
variable (hform : pktMalformed p = false)
include hform

theorem exec_packetArrival_sleeps (hsleep : s.pwr.sleep = .diapause ∧ (!s.sleepPasses p) = true) :
    exec (.packetArrival n p) s = .next (s.sleepDrop ⟨p, n, false⟩) :=
  onLink_eq hn ((if_neg (not_not_intro hup)).trans ((if_neg (ne_true_of_eq_false hform)).trans (if_pos hsleep)))

section
variable (hawake : ¬(s.pwr.sleep = .diapause ∧ (!s.sleepPasses p) = true))
include hawake

/-- A stale or aged packet is discarded; the POS of a SYNC packet that was the next of its pair has then passed (09 R263-R265). -/
theorem exec_packetArrival_discarded {t : State} (hcheck : s.checkPkt ⟨p, n, false⟩ = some t) :
    exec (.packetArrival n p) s = .next (if p.typ = 4 ∧ s.syncAhead p = 0 then t.syncPast p else t) := by
  refine onLink_eq hn ((if_neg (not_not_intro hup)).trans ((if_neg (ne_true_of_eq_false hform)).trans ((if_neg hawake).trans ?_)))
  rw [hcheck]
theorem exec_packetArrival_sound (hcheck : s.checkPkt ⟨p, n, false⟩ = none) :
    exec (.packetArrival n p) s = .next (if p.typ = 4 ∧ s.syncDup p = true then s.freeFlits ⟨p, n, false⟩
      else { s with hwk := { s.hwk with bufs := s.hwk.bufs ++ [⟨p, n, false⟩] } }) := by
  refine onLink_eq hn ((if_neg (not_not_intro hup)).trans ((if_neg (ne_true_of_eq_false hform)).trans ((if_neg hawake).trans ?_)))
  rw [hcheck]
end
end
end

/-! ### Hand-over -/

theorem pktIsAck_iff {p : Packet} : pktIsAck p = true ↔ p.typ = 6 ∧ p.arg = ackArg := by simp [pktIsAck]

section
variable {s : State} {b : Buffered} (hready : ¬(b.pkt.dep ≤ 0x10 ∧ s.hwk.role ≠ .active))
include hready

theorem State.handOver_ack (hack : pktIsAck b.pkt = true) :
    s.handOver b = { s.freeFlits b with hwk := { (s.freeFlits b).hwk with
      unacked := (s.freeFlits b).hwk.unacked.filter (fun x => !ackMatches b.pkt x.pkt) } } :=
  (if_neg hready).trans (if_pos hack)
/-- A packet that is no acknowledgement, and does not break a twin's hold, waits for its endpoint; a ROUTE or MGMT packet of another module is
acknowledged (09 R265). -/
theorem State.handOver_kept (hack : pktIsAck b.pkt = false) (hhold : ¬(b.pkt.typ = 6 ∧ b.pkt.arg = holdBrokenArg)) :
    let t := s.freeFlits b
    let u : State := { t with hwk := { t.hwk with inbox := t.hwk.inbox ++ [b.pkt] } }
    s.handOver b = if (b.pkt.typ = 6 ∨ b.pkt.typ = 7) ∧ b.pkt.src ≠ u.coord then u.sendPacket { noPacket with
      typ := 6, dst := b.pkt.src, dep := 0x11, sep := 0x11, arg := ackArg, flow := b.pkt.typ, pos := b.pkt.pos } else u := by
  refine (if_neg hready).trans ((if_neg (ne_true_of_eq_false hack)).trans ?_)
  rw [if_neg hhold]
end

/-! ### Egress -/

section
variable {i : Nat} {s t : State} {b : Buffered} (hb : s.hwk.bufs[i]? = some b)
include hb

theorem exec_packetEgress_sleeps (hsleep : s.pwr.sleep = .diapause ∧ (!s.sleepPasses b.pkt) = true) :
    exec (.packetEgress i) s = .next (({ s with hwk := { s.hwk with bufs := s.hwk.bufs.eraseIdx i } } : State).sleepDrop b) := by
  show execPacketEgress i s = _
  rw [execPacketEgress, hb]
  exact congrArg _ (if_pos hsleep)

section
variable (hawake : ¬(s.pwr.sleep = .diapause ∧ (!s.sleepPasses b.pkt) = true))
include hawake

theorem exec_packetEgress_early (hearly : s.syncEarly b.pkt = true) : exec (.packetEgress i) s = .next s := by
  show execPacketEgress i s = _
  rw [execPacketEgress, hb]
  exact congrArg _ ((if_neg hawake).trans (if_pos hearly))

section
variable (hturn : s.syncEarly b.pkt = false) (ht : ({ s with hwk := { s.hwk with bufs := s.hwk.bufs.eraseIdx i } } : State).syncPast b.pkt = t)
include hturn ht

theorem exec_packetEgress_discarded {u : State} (hcheck : t.checkPkt b = some u) : exec (.packetEgress i) s = .next u := by
  subst ht
  show execPacketEgress i s = _
  rw [execPacketEgress, hb]
  refine congrArg _ ((if_neg hawake).trans ((if_neg (ne_true_of_eq_false hturn)).trans ?_))
  extract_lets t
  rw [show t.checkPkt b = some u from hcheck]

section
variable (hcheck : t.checkPkt b = none)
include hcheck

/-- A packet that passes its checks again goes to its endpoint, or on by the table in force. -/
theorem exec_packetEgress_sound : exec (.packetEgress i) s = .next (
    if t.isMine b.pkt.dst then (if b.pkt.typ = 2 ∧ !t.redupRoom b.pkt then s else t.handOver b)
    else match t.hop b with
      | .here => t.dropPkt b .notReady
      | .stuck => s
      | .go d detour => ((t.forward b d detour).map (fun u => u.relayCopy b.pkt)).getD s) := by
  subst ht
  show execPacketEgress i s = _
  rw [execPacketEgress, hb]
  refine congrArg _ ((if_neg hawake).trans ((if_neg (ne_true_of_eq_false hturn)).trans ?_))
  extract_lets t
  rw [show t.checkPkt b = none from hcheck] <;> rfl
end
end
end
end

end Sys2Proof.Machine
end

section
open Sys2Proof Sys2Proof.Machine Sys2Proof.Claims

/-- Settles O28: the checks of a packet, then each row by the checks that come before it. -/
theorem packetRows : Obligations.PacketRows := by
  unfold Obligations.PacketRows
  refine ⟨?checks, ?arrival, fun i s hnone => ?noPacket, ?egress, ?handOver, fun i s hnone => ?noResend, fun i s u hsome => ?resend⟩
  case checks =>
    intro p n again s b
    exact ⟨State.checkPkt_stale (b := b), State.checkPkt_aged (b := b), State.checkPkt_sound (b := b),
      fun hn => ⟨State.sendLost_of_link hn, State.noteUnacked_of_link hn⟩, State.syncPast_other, fun hsync hahead => if_pos ⟨hsync, hahead⟩,
      rfl⟩
  case arrival =>
    intro n p s hn b awake
    refine ⟨fun hdown => onLink_eq hn (if_pos hdown), fun hup => ⟨exec_packetArrival_malformed hn hup, fun hform hasleep => ?_,
      fun hform hawake hstale => ?_, fun hform hawake hfresh haged => ?_, fun hform hawake hfresh hyoung => ?_⟩⟩
    · exact exec_packetArrival_sleeps hn hup hform (sleeps_iff.1 hasleep)
    · have hcheck : s.checkPkt b = some (s.dropPkt b .stale) := (State.checkPkt_stale hstale).trans (congrArg _ (State.sendLost_of_link hn))
      exact exec_packetArrival_discarded hn hup hform (mt sleeps_iff.2 (not_not_intro hawake)) hcheck
    · have hcheck : s.checkPkt b = some ((s.dropPkt b .aged).agedRecord p) :=
        (State.checkPkt_aged hfresh haged).trans (congrArg _ (State.noteUnacked_of_link hn))
      exact exec_packetArrival_discarded hn hup hform (mt sleeps_iff.2 (not_not_intro hawake)) hcheck
    · have hexec := exec_packetArrival_sound hn hup hform (mt sleeps_iff.2 (not_not_intro hawake)) (State.checkPkt_sound hfresh hyoung)
      exact ⟨fun hsync hdup => hexec.trans (congrArg _ (if_pos ⟨hsync, hdup⟩)),
        fun hnew => hexec.trans (congrArg _ (if_neg fun h => hnew.elim (absurd h.1) (ne_true_of_eq_false · h.2)))⟩
  case noPacket =>
    show execPacketEgress i s = _
    rw [execPacketEgress, hnone]
  case egress =>
    intro i s b hb p u t awake
    refine ⟨fun hasleep => exec_packetEgress_sleeps hb (sleeps_iff.1 hasleep),
      fun hawake => exec_packetEgress_early hb (mt sleeps_iff.2 (not_not_intro hawake)), fun hawake hturn => ?_⟩
    have hdiscarded : ∀ {w}, t.checkPkt b = some w → exec (.packetEgress i) s = .next w :=
      exec_packetEgress_discarded hb (mt sleeps_iff.2 (not_not_intro hawake)) hturn rfl
    refine ⟨fun hstale => hdiscarded (State.checkPkt_stale hstale), fun hfresh haged => hdiscarded (State.checkPkt_aged hfresh haged),
      fun hfresh hyoung => ?_⟩
    have hsound := exec_packetEgress_sound hb (mt sleeps_iff.2 (not_not_intro hawake)) hturn rfl (State.checkPkt_sound hfresh hyoung)
    have hother : t.isMine p.dst = false → _ := fun hmine => hsound.trans (congrArg _ (if_neg (ne_true_of_eq_false hmine)))
    refine ⟨fun hmine => hsound.trans (congrArg _ ((if_pos hmine).trans ?_)), fun hmine hhop => (hother hmine).trans ?_,
      fun hmine hhop => (hother hmine).trans ?_, fun d detour hmine hhop => (hother hmine).trans ?_⟩
    · exact if_congr (and_congr_right' (iff_of_eq (Bool.not_eq_true' _))) rfl rfl
    · rw [show State.hop _ b = .here from hhop]
    · rw [show State.hop _ b = .stuck from hhop]
    · rw [show State.hop _ b = .go d detour from hhop]
      have hway : ∀ o : Option State, (o.map (fun w => w.relayCopy p)).getD s = match o with
          | some w => w.relayCopy p
          | none => s := fun o => by cases o <;> rfl
      exact congrArg _ (hway _)
  case handOver =>
    intro b s p
    refine ⟨fun hdep hrole => if_pos ⟨hdep, hrole⟩, fun hserved => ?_⟩
    intro t u
    have hready : ¬(b.pkt.dep ≤ 0x10 ∧ s.hwk.role ≠ .active) := fun h => hserved.elim (Nat.not_lt.2 h.1) h.2
    refine ⟨fun htyp => ?_, fun htyp harg => State.handOver_ack hready (pktIsAck_iff.2 ⟨htyp, harg⟩), fun hkind hsrc => ?_⟩
    · have hack : pktIsAck b.pkt = false := Bool.eq_false_iff.2 fun h => absurd (pktIsAck_iff.1 h).1 (Nat.ne_of_lt htyp)
      exact (State.handOver_kept hready hack fun h => absurd h.1 (Nat.ne_of_lt htyp)).trans
        (if_neg fun h => h.1.elim (Nat.ne_of_lt htyp) (Nat.ne_of_lt (Nat.lt_succ_of_lt htyp)))
    · have hack : pktIsAck b.pkt = false := Bool.eq_false_iff.2 fun h => by
        obtain ⟨htyp, harg⟩ := pktIsAck_iff.1 h
        exact hkind.elim (fun h7 => absurd (h7.symm.trans htyp) (by decide)) (fun h6 => h6.2.1 harg)
      have hhold : ¬(b.pkt.typ = 6 ∧ b.pkt.arg = holdBrokenArg) := fun h =>
        hkind.elim (fun h7 => absurd (h7.symm.trans h.1) (by decide)) (fun h6 => h6.2.2 h.2)
      exact (State.handOver_kept hready hack hhold).trans (if_pos ⟨hkind.symm.imp_left And.left, hsrc⟩)
  case noResend =>
    show execMgmtResend i s = _
    rw [execMgmtResend, hnone]
  case resend =>
    show execMgmtResend i s = _
    rw [execMgmtResend, hsome]
end

section
/-! SUPPORT. The hop of a packet by the table of assembly (09 R240, R241, R260), where every position of a District is in service; and a packet
whose SRC is no coordinate: coordinates are below 2^13, those above name the spares of a table. -/

namespace Sys2Proof.Machine

theorem tablePos_nil (c : Nat) : tablePos [] c = homeOf c := by rfl
theorem homeOf_coord {x y z d : Nat} (hx : x < 16) (hy : y < 16) (hz : z < 16) (hd : d < 2) :
    homeOf (x + 16 * y + 256 * z + 4096 * d) = ⟨x, y, z, d⟩ := by
  rw [homeOf, if_pos (by omega)]
  congr 1 <;> omega
theorem homeOf_spareKey {p : Pos} (hx : p.x < 16) (hy : p.y < 16) (hz : p.z = 16) (hd : p.d < 2) : homeOf (spareKey p) = p := by
  rw [spareKey, homeOf, if_neg (by omega), show p = ⟨p.x, p.y, 16, p.d⟩ by rw [← hz]]
  congr 1 <;> dsimp only <;> omega
theorem coordOf_eq {p : Pos} (hx : p.x < 16) (hy : p.y < 16) (hz : p.z < 16) (hd : p.d < 2) :
    coordOf p = p.x + 16 * p.y + 256 * p.z + 4096 * p.d := by
  rw [coordOf]
  omega
/-- A position of a District: one of its 17 planes. -/
def InDistrict (p : Pos) : Prop := p.x < 16 ∧ p.y < 16 ∧ p.z ≤ 16 ∧ p.d < 2

/-- The table of assembly has no gap. -/
theorem gapIn_nil {p : Pos} (h : InDistrict p) : gapIn [] p = false := by
  obtain ⟨hx, hy, hz, hd⟩ := h
  have hhome : homeOf (if p.z < 16 then coordOf p else spareKey p) = p := by
    split
    next hlt => rw [coordOf_eq hx hy hlt hd, homeOf_coord hx hy hlt hd]
    next hge => exact homeOf_spareKey hx hy (by omega) hd
  rw [gapIn, tablePos_nil, hhome]
  exact bne_self_eq_false p
theorem InDistrict.put_ring {p : Pos} (h : InDistrict p) {dim v : Nat} (hdim : dim < 2) (hv : v < 16) : InDistrict (posPut p dim v) := by
  obtain ⟨hx, hy, hz, hd⟩ := h
  unfold posPut
  split
  · exact ⟨hv, hy, hz, hd⟩
  · rw [if_pos (by omega)]
    exact ⟨hx, hv, hz, hd⟩
theorem blockedIn_nil {me : Pos} (h : InDistrict me) (dst : Pos) {dim : Nat} (hdim : dim < 2) (plus : Bool) :
    blockedIn [] me dst dim plus = false := by
  rw [blockedIn, List.any_eq_false]
  intro i _ hgap
  exact absurd (gapIn_nil (h.put_ring hdim (by split <;> omega))) (ne_false_of_eq_true (Bool.and_eq_true_iff.mp hgap).2)
theorem ringHop_nil {me : Pos} (h : InDistrict me) (dst : Pos) {dim : Nat} (hdim : dim < 2) (away : Bool) :
    ringHop [] me dst dim away = .go (2 * dim + b2n (!decide
      ((posGet dst dim + 16 - posGet me dim) % 16 ≤ (posGet me dim + 16 - posGet dst dim) % 16))) away := by
  rw [ringHop, blockedIn_nil h dst hdim]
  rfl
theorem zHopIn_nil {me : Pos} (h : InDistrict me) (plus : Bool) : zHopIn [] me plus = if plus then 4 else 5 := by
  obtain ⟨hx, hy, -, hd⟩ := h
  have hz : (if plus then (me.z + 1) % 17 else (me.z + 16) % 17) ≤ 16 := by split <;> omega
  exact if_neg (ne_true_of_eq_false (gapIn_nil (p := posPut me 2 (if plus then (me.z + 1) % 17 else (me.z + 16) % 17)) ⟨hx, hy, hz, hd⟩))
/-- On a ring of 16 the plus way is the shorter one, or as short, where it takes at most 8 hops. -/
theorem ringHop_nil_go {me dst : Pos} (h : InDistrict me) {dim : Nat} (hdim : dim < 2) (ha : posGet me dim < 16) (hb : posGet dst dim < 16) :
    ringHop [] me dst dim false = .go (if (posGet dst dim + 16 - posGet me dim) % 16 ≤ 8 then 2 * dim else 2 * dim + 1) false := by
  rw [ringHop_nil h dst hdim]
  congr 1
  split
  next hle => rw [decide_eq_true (by omega)]; rfl
  next hgt => rw [decide_eq_false (by omega)]; rfl

section
variable {me dst : Pos} (hme : InDistrict me) {plane : Nat} {inDim : Option Nat}
include hme
theorem hopIn_nil_x (hplane : me.z = plane) (hd : dst.x < 16) (hx : dst.x ≠ me.x) :
    hopIn [] me plane dst inDim = .go (if (dst.x + 16 - me.x) % 16 ≤ 8 then 0 else 1) false := by
  rw [hopIn, if_pos hx.symm, decide_eq_false (not_not_intro hplane)]
  exact ringHop_nil_go hme (by decide) hme.1 hd
theorem hopIn_nil_y (hplane : me.z = plane) (hd : dst.y < 16) (hx : dst.x = me.x) (hy : dst.y ≠ me.y) :
    hopIn [] me plane dst inDim = .go (if (dst.y + 16 - me.y) % 16 ≤ 8 then 2 else 3) false := by
  rw [hopIn, if_neg (not_not_intro hx.symm), if_pos hy.symm, decide_eq_false (not_not_intro hplane), if_neg (fun h => absurd h.1 (by decide))]
  exact ringHop_nil_go hme (by decide) hme.2.1 hd
theorem hopIn_nil_z (hplane : me.z = plane ∨ inDim = some 2) (hd : dst.z < 16) (hx : dst.x = me.x) (hy : dst.y = me.y) (hz : dst.z ≠ me.z) :
    hopIn [] me plane dst inDim = .go (if (dst.z + 17 - me.z) % 17 ≤ 8 then 4 else 5) false := by
  have hstay : ¬(decide (me.z ≠ plane) = true ∧ (inDim = some 0 ∨ inDim = some 1)) := by
    rintro ⟨haway, hdim⟩
    obtain hplane | hin := hplane
    · exact of_decide_eq_true haway hplane
    · rw [hin] at hdim
      exact absurd hdim (by decide)
  have hplus : zPlus me dst.z = decide ((dst.z + 17 - me.z) % 17 ≤ 8) := decide_eq_decide.mpr (by have := hme.2.2.1; omega)
  rw [hopIn, if_neg (not_not_intro hx.symm), if_neg (not_not_intro hy.symm), if_neg hz.symm, if_neg hstay, zHopIn_nil hme, hplus]
  congr 1
  exact if_congr decide_eq_true_iff rfl rfl
omit hme in
theorem hopIn_here (tbl : Store Pos) (hx : dst.x = me.x) (hy : dst.y = me.y) (hz : dst.z = me.z) : hopIn tbl me plane dst inDim = .here := by
  rw [hopIn, if_neg (not_not_intro hx.symm), if_neg (not_not_intro hy.symm), if_pos hz.symm]
end

/-- By the table of assembly a packet is off its plane only in its source's District. -/
theorem hopBy_nil {me : Pos} {src dst x y z d : Nat} (inDim : Option Nat) (hx : x < 16) (hy : y < 16) (hz : z < 16) (hd : d < 2)
    (hmd : me.d < 2) (hdst : dst = x + 16 * y + 256 * z + 4096 * d) (hsrc : src < 8192) :
    hopBy [] me src dst inDim = match hopIn [] me (if src / 4096 % 2 = me.d then src / 256 % 16 else me.z) ⟨x, y, z, me.d⟩ inDim with
      | .here => if d = me.d then .here else .go 6 false
      | h => h := by
  have hplane : (tablePos [] src).z = src / 256 % 16 := by rw [tablePos_nil, homeOf, if_pos hsrc]
  have hdist : dst / 4096 % 2 = d := by omega
  have hcross : crossIn [] dst me.d = ⟨x, y, z, me.d⟩ := by
    rw [show crossIn [] dst me.d = homeOf (dst % 4096 + 4096 * me.d) by rw [crossIn, tablePos_nil, tablePos_nil, if_pos ⟨rfl, rfl⟩],
      show dst % 4096 = x + 16 * y + 256 * z by omega, homeOf_coord hx hy hz hmd]
  rw [hopBy, hplane, hdist, hcross, tablePos_nil, hdst, homeOf_coord hx hy hz hd]
  by_cases hown : d = me.d
  · subst hown
    rw [if_pos rfl]
    generalize hopIn _ _ _ _ _ = hop
    cases hop with
    | here => exact (if_pos rfl).symm
    | go => rfl
    | stuck => rfl
  · rw [if_neg hown]
    generalize hopIn _ _ _ _ _ = hop
    cases hop with
    | here => exact (if_neg hown).symm
    | go => rfl
    | stuck => rfl

/-- What O29 would say of a packet whose SRC is a coordinate. -/
theorem hop_tableOfAssembly (s : State) (b : Buffered) {x y z d : Nat} (htbl : s.hwk.table = []) (hx : x < 16) (hy : y < 16) (hz : z < 16)
    (hd : d < 2) (hme : InDistrict s.hwk.pos) (hdst : b.pkt.dst = x + 16 * y + 256 * z + 4096 * d) (hsrc : b.pkt.src < 8192) :
    let me := s.hwk.pos
    let own := b.pkt.src / 4096 % 2 ≠ me.d ∨ b.pkt.src / 256 % 16 = me.z
    (own → x ≠ me.x → s.hop b = .go (if (x + 16 - me.x) % 16 ≤ 8 then 0 else 1) false) ∧
    (own → x = me.x → y ≠ me.y → s.hop b = .go (if (y + 16 - me.y) % 16 ≤ 8 then 2 else 3) false) ∧
    (own ∨ b.inDim = some 2 → x = me.x → y = me.y → z ≠ me.z → s.hop b = .go (if (z + 17 - me.z) % 17 ≤ 8 then 4 else 5) false) ∧
    (x = me.x → y = me.y → z = me.z → s.hop b = if d = me.d then .here else .go 6 false) := by
  intro me own
  have hhop := hopBy_nil (src := b.pkt.src) b.inDim hx hy hz hd hme.2.2.2 hdst hsrc
  rw [← htbl] at hhop
  have hplane : own → me.z = if b.pkt.src / 4096 % 2 = me.d then b.pkt.src / 256 % 16 else me.z := by
    intro hown
    split
    next hsame => exact (hown.resolve_left (not_not_intro hsame)).symm
    next => rfl
  rw [State.hop, hhop, htbl]
  refine ⟨fun h hx' => ?_, fun h hx' hy' => ?_, fun h hx' hy' hz' => ?_, fun hx' hy' hz' => ?_⟩
  · rw [hopIn_nil_x hme (hplane h) hx hx']
  · rw [hopIn_nil_y hme (hplane h) hy hx' hy']
  · rw [hopIn_nil_z hme (h.imp_left hplane) hz hx' hy' hz']
  · rw [hopIn_here [] hx' hy' hz']

/-- A packet for coordinate 1 whose SRC is 8192, the first key of a spare. -/
def spareSourcePacket : Buffered := ⟨{ noPacket with src := 8192, dst := 1 }, 48, false⟩
/-- Its source's plane is that of the spares, so at the module at 0 it is off its plane and its hop is a detour. -/
theorem hop_spareSourcePacket : State.reset.hop spareSourcePacket = .go 0 true := by decide

end Sys2Proof.Machine
end

section
open Sys2Proof Sys2Proof.Machine

/-- Refutes O29: the statement takes SRC as any number and reads its plane as SRC / 256 % 16, which is right for a coordinate only. A packet of
SRC 8192 is of the spares' plane 16 in the model, so at the module at 0 its hop along X is a detour (hop_spareSourcePacket), where the statement
wants none. For a SRC that is a coordinate the statement holds (hop_tableOfAssembly). -/
theorem not_dimensionOrderRouting : ¬ Obligations.DimensionOrderRouting := by
  unfold Obligations.DimensionOrderRouting
  intro h
  obtain ⟨hx, -⟩ := h State.reset spareSourcePacket 1 0 0 0 rfl (by decide) (by decide) (by decide) (by decide) (by decide) (by decide)
    (by decide) (by decide) rfl
  have hgo := hx (.inr rfl) (by decide)
  rw [hop_spareSourcePacket] at hgo
  exact absurd hgo (by decide)
end

section
/-! SUPPORT. The ends of a fabric runnel (09 R262; 02 R57-R59), epoch messages (09 R264, R265), failures, redraws and route commits (09 R267, R268;
15 R410; 17 R456). -/

namespace Sys2Proof.Machine

/-! ### Fabric runnels -/

section
variable {p : Packet} {s : State}

theorem execFabricTileArrival_frozen (h : s.secFrozen p.dep = true) : execFabricTileArrival p s = .next s := congrArg _ (if_pos (.inl h))
theorem execRcredArrival_frozen (h : s.secFrozen p.dep = true) : execRcredArrival p s = .next s := congrArg _ (if_pos h)

theorem not_frozen_or_far (hdep : p.dep ≤ 9) (h : s.secFrozen p.dep = false) : ¬(s.secFrozen p.dep = true ∨ 9 < p.dep) := by
  rintro (hfrozen | hfar)
  · exact ne_true_of_eq_false h hfrozen
  · omega

/-- What a TILE packet without payload asks for at its section's headworks. -/
theorem execFabricTileArrival_ctl (hdep : p.dep ≤ 9) (h : s.secFrozen p.dep = false) (hp : p.payload = []) :
    execFabricTileArrival p s = .next (if p.arg % 256 = ctlOpen then (s.takeInbox p).fabricOpen p
      else if p.arg % 256 = ctlMark then (s.takeInbox p).fabricMark p else (s.takeInbox p).fabricWithdraw p) :=
  congrArg _ ((if_neg (not_frozen_or_far hdep h)).trans (if_pos (List.isEmpty_iff.mpr hp)))

theorem execFabricTileArrival_noEnd (hdep : p.dep ≤ 9) (h : s.secFrozen p.dep = false) (hp : p.payload ≠ [])
    (hend : s.findFabric p.dep p.flow (p.tag % 65536) true = none) : execFabricTileArrival p s = .next (s.takeInbox p) := by
  rw [execFabricTileArrival, if_neg (not_frozen_or_far hdep h), hend]
  exact congrArg _ (if_neg (mt List.isEmpty_iff.mp hp))
/-- A tile at its consumer's ring: the slot of its POS, if it is free and the tile not one of the past. -/
theorem execFabricTileArrival_tile (hdep : p.dep ≤ 9) (h : s.secFrozen p.dep = false) (hp : p.payload ≠ []) {c q : Nat}
    (hend : s.findFabric p.dep p.flow (p.tag % 65536) true = some (c, q)) :
    let e := (s.core c).handle q
    let key := ringKey c q (p.pos % e.depth)
    let t := s.takeInbox p
    execFabricTileArrival p s = .next (
      if e.state ≠ .opened ∨ 2 ^ 31 ≤ (p.pos + 2 ^ 32 - e.pos) % 2 ^ 32 ∨ (sget (0, noPacket) s.hwk.rings key).1 = 1 then t
      else { t with hwk := { t.hwk with rings := sset (0, noPacket) t.hwk.rings key (1, p) } }) := by
  rw [execFabricTileArrival, if_neg (not_frozen_or_far hdep h), hend]
  exact congrArg _ (if_neg (mt List.isEmpty_iff.mp hp))

theorem execRcredArrival_noEnd (h : s.secFrozen p.dep = false) (hend : s.findFabric p.dep p.flow (p.tag % 65536) false = none) :
    execRcredArrival p s = .next (s.takeInbox p) := by
  rw [execRcredArrival, if_neg (ne_true_of_eq_false h)]
  extract_lets t
  rw [hend]
/-- What an RCRED packet says to the producer's end. -/
theorem execRcredArrival_end (h : s.secFrozen p.dep = false) {c q : Nat}
    (hend : s.findFabric p.dep p.flow (p.tag % 65536) false = some (c, q)) :
    let t := s.takeInbox p
    let k := t.core c
    let e := k.handle q
    let n := bits p.arg 8 24
    execRcredArrival p s = .next (
      if e.state = .pending then
        if p.arg % 256 = rcOpen then t.setCore c (k.setHandle q { e with state := .opened, credits := n, depth := n })
        else if p.arg % 256 = rcRefuse then t.setCore c ((k.setHandle q {}).fault Status.state .scalar e.opc e.oseq)
        else t
      else if p.arg % 256 = rcCredit then t.setCore c (k.setHandle q { e with credits := e.credits + n })
      else if p.arg % 256 = rcGone then t.fabricGone c q
      else t) := by
  intro t k e n
  rw [execRcredArrival, if_neg (ne_true_of_eq_false h)]
  extract_lets u
  rw [hend]
  rfl

/-- A producer's open request at its consumer's headworks. -/
theorem State.fabricOpen_end {c q : Nat} (hend : s.findFabric p.dep p.flow (p.tag % 65536) true = some (c, q))
    (hstate : ((s.core c).handle q).state = .pending) :
    let e := (s.core c).handle q
    s.fabricOpen p = if e.peer ≠ p.src + 65536 * p.sep ∨ e.fmt ≠ p.arg / 256 % 256 then s.sendPacket { noPacket with
        typ := 5, tag := p.tag, dst := p.src, dep := p.sep, sep := p.dep, flow := p.flow, arg := 4 } else s.openFabricPair c q := by
  intro e
  rw [State.fabricOpen, hend]
  exact if_neg (not_not_intro hstate)
theorem State.fabricOpen_noEnd (hend : s.findFabric p.dep p.flow (p.tag % 65536) true = none) :
    s.fabricOpen p = { s with hwk := { s.hwk with
      fopens := s.hwk.fopens ++ [⟨p.dep, p.tag % 65536, p.flow, p.src + 65536 * p.sep, p.arg / 256 % 256⟩] } } := by
  rw [State.fabricOpen, hend]
  rfl
theorem State.fabricMark_end {c q : Nat} (hend : s.findFabric p.dep p.flow (p.tag % 65536) true = some (c, q))
    (hstate : ((s.core c).handle q).state = .opened) (hpeer : ((s.core c).handle q).peer = p.src + 65536 * p.sep) :
    s.fabricMark p = s.setCore c ((s.core c).setHandle q { (s.core c).handle q with mark := some p.pos }) := by
  rw [State.fabricMark, hend]
  exact if_pos ⟨hstate, hpeer⟩
theorem State.fabricWithdraw_held {r : FabReq} {rest : List FabReq} (h : takeFirst (fun r : FabReq => decide (r.sec = p.dep ∧
      r.cid = p.tag % 65536 ∧ r.rid = p.flow ∧ r.peer = p.src + 65536 * p.sep)) s.hwk.fopens = some (r, rest)) :
    s.fabricWithdraw p = { s with hwk := { s.hwk with fopens := rest } } := by
  rw [State.fabricWithdraw]
  extract_lets cid
  split
  next hfirst =>
    cases h.symm.trans hfirst
    rfl
  next hnone => cases h.symm.trans hnone

/-! ### Epochs -/

/-- An epoch message at a module: an identifier not seen before takes the epoch it names, one that is seen only an epoch ahead of its own. -/
theorem execEpochMessage_eq :
    let cid := field p.payload 0 2
    let e := field p.payload 2 1 % 16
    let cur := sget (false, 0) s.hwk.epochs cid
    let t := ((s.takeInbox p).setEpoch cid e).sendEpoch cid
    execEpochMessage p s = .next (if cur.1 ∧ (e = cur.2 ∨ 8 < (e + 16 - cur.2) % 16) then s.takeInbox p
      else if cur.1 then t.epochEffects cid else t) := rfl

/-- An advance whose 2 ms have passed is made, where its partition still drains. -/
theorem execDeferredEpochAdvance_eq {cid q : Nat} (hdef : s.chr.deferred = [(cid, q)]) (hdrain : (s.part q).state = .draining) :
    execDeferredEpochAdvance cid s = .next (if s.mayAdvance cid = true then
      ({ s with chr := { s.chr with deferred := [] } } : State).drainAdvance q else s) := by
  have hfind : s.chr.deferred.find? (fun d => d.1 = cid) = some (cid, q) := by
    rw [hdef]
    exact List.find?_cons_of_pos (decide_eq_true rfl)
  have herase : s.chr.deferred.erase (cid, q) = [] := by
    rw [hdef]
    exact List.erase_cons_head _ _
  rw [execDeferredEpochAdvance, hfind]
  dsimp -zeta only
  rw [herase]
  cases s.mayAdvance cid with
  | true => exact congrArg _ (if_pos hdrain)
  | false => rfl

end

end Sys2Proof.Machine
end

section
/-! SUPPORT. Failures, redraws and route commits at the headworks (09 R267, R268; 15 R410; 17 R456). -/

namespace Sys2Proof.Machine

/-! ### Failures -/

section
variable {s : State} {a : Pos}

theorem State.knowFailed_hwk : (s.knowFailed a).hwk = { s.hwk with
    failed := if s.hwk.failed.contains a then s.hwk.failed else s.hwk.failed ++ [a], computing := s.hwk.computing || s.hwk.master } := by
  rw [State.knowFailed]
  split
  · obtain ⟨j, hj⟩ := s.spareFail_frame Status.linkDown
    rw [hj]
  · rfl
/-- The route master, and a module that knows no route master, have no one to report a failure to. -/
theorem State.sendReport_none (h : s.hwk.master = true ∨ s.hwk.masterAt = none) : s.sendReport a = s := by
  rw [State.sendReport]
  split
  next hmaster hat =>
    obtain h | h := h
    · cases h.symm.trans hmaster
    · cases h.symm.trans hat
  next => rfl
theorem State.sendReport_some {m : Pos} (hmaster : s.hwk.master = false) (hat : s.hwk.masterAt = some m) :
    s.sendReport a = s.sendPacket { noPacket with
      typ := 6, dst := (coordAt s.hwk.table m).getD (coordOf m), dep := 0x11, sep := 0x11, arg := 3, payload := failPayload a } := by
  rw [State.sendReport, hmaster, hat]
theorem execHeartbeatMiss_silent (h : s.hwk.master = true ∨ s.hwk.masterAt = none) : execHeartbeatMiss a s = .next (s.knowFailed a) :=
  congrArg _ (State.sendReport_none (by rwa [State.knowFailed_hwk]))
theorem execHeartbeatMiss_report {m : Pos} (hmaster : s.hwk.master = false) (hat : s.hwk.masterAt = some m) :
    execHeartbeatMiss a s = .next ((s.knowFailed a).sendPacket { noPacket with
      typ := 6, dst := (coordAt s.hwk.table m).getD (coordOf m), dep := 0x11, sep := 0x11, arg := 3, payload := failPayload a }) := by
  have htable : (s.knowFailed a).hwk.table = s.hwk.table := by rw [State.knowFailed_hwk]
  rw [execHeartbeatMiss, State.reportFailed, State.sendReport_some (m := m) (by rwa [State.knowFailed_hwk]) (by rwa [State.knowFailed_hwk]), htable]
theorem execFailureReport_noPacket (h : s.hwk.inbox = []) : execFailureReport a s = .next (s.knowFailed a) := by
  rw [execFailureReport, h]
  rfl
end

/-! ### The redraw -/

theorem find?_eq_some_of_unique {α : Type} {f : α → Bool} {l : List α} {x : α} (hx : x ∈ l) (hf : f x = true)
    (h : ∀ y ∈ l, f y = true → y = x) :
    l.find? f = some x := by
  cases hfind : l.find? f with
  | none => exact absurd hf (List.find?_eq_none.mp hfind x hx)
  | some y => rw [h y (List.mem_of_find?_eq_some hfind) (List.find?_some hfind)]

theorem coordOf_home {p : Pos} (h : InDistrict p) (hz : p.z < 16) : homeOf (coordOf p) = p := by
  obtain ⟨hx, hy, -, hd⟩ := h
  rw [coordOf_eq hx hy hz hd, homeOf_coord hx hy hz hd]

section
variable {p : Pos} {tbl : Store Pos}
/-- A column in which only the position's own coordinate has its place: the table gives the position its coordinate. -/
theorem coordAt_self (hz : p.z < 16) (hself : tablePos tbl (coordOf p) = p)
    (h : ∀ z < 16, z ≠ p.z → tablePos tbl (coordOf { p with z }) ≠ p) :
    coordAt tbl p = some (coordOf p) := by
  refine find?_eq_some_of_unique (List.mem_map.mpr ⟨p.z, List.mem_range.mpr hz, rfl⟩) (decide_eq_true hself) fun c hc hat => ?_
  obtain ⟨z, hzc, rfl⟩ := List.mem_map.mp hc
  by_cases heq : z = p.z
  · rw [heq]
  · exact absurd (of_decide_eq_true hat) (h z (List.mem_range.mp hzc) heq)
theorem coordAt_isNone {z : Nat} (hz : z < 16) (h : tablePos tbl (coordOf { p with z }) = p) : (coordAt tbl p).isNone = false :=
  Option.isNone_eq_false_iff.mpr (List.find?_isSome.mpr ⟨_, List.mem_map.mpr ⟨z, List.mem_range.mpr hz, rfl⟩, decide_eq_true h⟩)
theorem coordAt_none (h : ∀ z < 16, tablePos tbl (coordOf { p with z }) ≠ p) : coordAt tbl p = none := by
  refine List.find?_eq_none.mpr fun c hc hat => ?_
  obtain ⟨z, hz, rfl⟩ := List.mem_map.mp hc
  exact h z (List.mem_range.mp hz) (of_decide_eq_true hat)
end

theorem tablePos_moved {k : Nat} {v : Pos} (hv : v ≠ noPos) : tablePos [(k, v)] k = v := by
  have hget : sget noPos [(k, v)] k = v := if_pos rfl
  rw [tablePos, hget]
  exact if_neg hv
theorem tablePos_unmoved {k c : Nat} (v : Pos) (h : c ≠ k) : tablePos [(k, v)] c = homeOf c := by
  have hget : sget noPos [(k, v)] c = noPos := if_neg h
  rw [tablePos, hget]
  exact if_pos rfl

/-- What the failure of a module of a District changes that has a coordinate: it goes to the spare, where that is free, else to no module. -/
theorem redrawOne_coord {failed : List Pos} {tbl : Store Pos} {p : Pos} {c : Nat} {free : Bool} (hz : p.z < 16) (hat : coordAt tbl p = some c)
    (hfree : (!gapIn tbl (spareOf p) && (coordAt tbl (spareOf p)).isNone && !failed.contains (spareOf p)) = free) :
    redrawOne failed tbl p = [⟨c, if free then spareOf p else deadPos p⟩] := by
  have hplane : p.z ≠ 16 := Nat.ne_of_lt hz
  rw [redrawOne, hat, hfree, if_neg hplane]
  rfl

theorem not_failed_spare {p : Pos} (hz : p.z < 16) : [p].contains (spareOf p) = false := by
  have hne : spareOf p ≠ p := fun h => Nat.ne_of_gt hz (congrArg Pos.z h)
  rw [List.contains_cons, List.contains_nil, Bool.or_false]
  exact beq_false_of_ne hne

section
variable {p : Pos} (hp : InDistrict p) (hz : p.z < 16)
include hp
theorem InDistrict.plane {z : Nat} (h : z ≤ 16) : InDistrict { p with z } := by
  obtain ⟨hx, hy, -, hd⟩ := hp
  exact ⟨hx, hy, h, hd⟩
theorem homeOf_coordOf_plane {z : Nat} (h : z < 16) : homeOf (coordOf { p with z }) = { p with z } := coordOf_home (hp.plane (Nat.le_of_lt h)) h
include hz
theorem redrawFrom_assembly : redrawFrom [p] [p] [] = [⟨coordOf p, spareOf p⟩] := by
  have hat : coordAt [] p = some (coordOf p) := coordAt_self hz (coordOf_home hp hz) fun z hlt hne heq =>
    hne (congrArg Pos.z ((homeOf_coordOf_plane hp hlt).symm.trans heq))
  have hspare : coordAt [] (spareOf p) = none := coordAt_none fun z hlt heq => by
    have hplane : z = 16 := congrArg Pos.z ((homeOf_coordOf_plane hp hlt).symm.trans heq)
    omega
  have hgap : gapIn [] (spareOf p) = false := gapIn_nil (hp.plane (Nat.le_refl 16))
  rw [redrawFrom, redrawOne_coord (free := true) hz hat (by rw [hgap, hspare, not_failed_spare hz]; rfl)]
  rfl
/-- A column whose spare already holds a coordinate has none left for a second module. -/
theorem redrawFrom_spareHeld {z : Nat} (hlt : z < 16) (hne : z ≠ p.z) :
    redrawFrom [p] [p] [(coordOf { p with z }, spareOf p)] = [⟨coordOf p, deadPos p⟩] := by
  have hspare : spareOf p ≠ noPos := fun h => absurd (congrArg Pos.z h) (show 16 ≠ 31 by decide)
  have hcoord : ∀ w < 16, coordOf { p with z := w } = coordOf { p with z } → w = z := fun w hw heq =>
    congrArg Pos.z ((homeOf_coordOf_plane hp hw).symm.trans ((congrArg homeOf heq).trans (homeOf_coordOf_plane hp hlt)))
  have hself : coordOf p ≠ coordOf { p with z } := fun h => hne (hcoord p.z hz h).symm
  have hat : coordAt [(coordOf { p with z }, spareOf p)] p = some (coordOf p) := by
    refine coordAt_self hz ((tablePos_unmoved _ hself).trans (coordOf_home hp hz)) fun w hw hwne heq => ?_
    by_cases hwz : coordOf { p with z := w } = coordOf { p with z }
    · rw [hwz, tablePos_moved hspare] at heq
      exact absurd (congrArg Pos.z heq) (show 16 ≠ p.z by omega)
    · rw [tablePos_unmoved _ hwz, homeOf_coordOf_plane hp hw] at heq
      exact hwne (congrArg Pos.z heq)
  have hheld : (coordAt [(coordOf { p with z }, spareOf p)] (spareOf p)).isNone = false := coordAt_isNone hlt (tablePos_moved hspare)
  rw [redrawFrom, redrawOne_coord (free := false) hz hat (by rw [hheld, Bool.and_false]; rfl)]
  rfl
end

/-! ### Route tables -/

section
variable {s : State}

/-- The route master sends the tables of a redraw that pass the check (09 R268). -/
theorem execRouteTablesComputed_eq (hmaster : s.hwk.master = true) (hcomp : s.hwk.computing = true) :
    let t : State := { s with hwk := { s.hwk with computing := false } }
    let es := s.redraw
    let time := s.tim.now + 50000000 + (Config.freeValue s.free).toNat % 2 ^ 31
    let v := ((s.hwk.shadow.map (·.version)).getD s.hwk.version + 1) % 65536
    execRouteTablesComputed s = .next (if tablesOk [s.hwk.table, es.foldl putEntry s.hwk.table] = true then
      ({ t with free := s.free + 1, hwk := { t.hwk with shadow := some ⟨v, time, es⟩ } } : State).sendRoute v time es
    else t.report (Rec.mk' 0x75 Sev.devFatal Blk.hwk 0)) := by
  intro t es time v
  have hwork : ¬((!s.hwk.master) = true ∨ (!s.hwk.computing) = true) := by
    rw [hmaster, hcomp]
    decide
  refine congrArg Host.Outcome.next ((if_neg hwork).trans ?_)
  obtain hok | hbad := Bool.eq_false_or_eq_true (tablesOk [s.hwk.table, es.foldl putEntry s.hwk.table])
  · have hpass : ¬(!tablesOk [s.hwk.table, es.foldl putEntry s.hwk.table]) = true := ne_true_of_eq_false (congrArg not hok)
    exact (if_neg hpass).trans (if_pos hok).symm
  · have hfail : (!tablesOk [s.hwk.table, es.foldl putEntry s.hwk.table]) = true := congrArg not hbad
    exact (if_pos hfail).trans (if_neg (ne_true_of_eq_false hbad)).symm

theorem execRoutePacket_noPacket (v time : Nat) (table : List RouteEntry) (h : s.hwk.inbox = []) :
    let ahead := (v + 65536 - (s.hwk.shadow.map (·.version)).getD s.hwk.version) % 65536
    execRoutePacket v time table s = .next (if ahead = 0 ∨ 32768 ≤ ahead then s
      else ({ s with hwk := { s.hwk with shadow := some ⟨v, time, table⟩ } } : State).sendRoute v time table) := by
  rw [execRoutePacket, h]
  rfl

theorem State.placeSelf_spare {e : RouteEntry} (h : e.phys = s.hwk.pos) (hrole : s.hwk.role = .spare) :
    (s.placeSelf e).hwk.coord = some e.coord ∧ (s.placeSelf e).hwk.role = .joining ∧ (s.placeSelf e).hwk.syncSent = [] ∧
      (s.placeSelf e).join.phase = .preparing := by
  rw [State.placeSelf, if_pos ⟨h, hrole⟩]
  exact ⟨rfl, rfl, rfl, rfl⟩
theorem State.placeSelf_moved {e : RouteEntry} (hmine : s.isMine e.coord = true) (h : e.phys ≠ s.hwk.pos) :
    (s.placeSelf e).hwk.coord = none ∧ (s.placeSelf e).hwk.role = .spare := by
  rw [State.placeSelf, if_neg (fun hspare => h hspare.1), if_pos ⟨hmine, h⟩]
  exact ⟨rfl, rfl⟩
theorem State.placeSelf_other {e : RouteEntry} (hmine : s.isMine e.coord = false) (h : e.phys ≠ s.hwk.pos ∨ s.hwk.role ≠ .spare) :
    s.placeSelf e = s := by
  rw [State.placeSelf, if_neg (fun hspare => h.elim (absurd hspare.1) (absurd hspare.2)), if_neg (fun hmoved => ne_true_of_eq_false hmine hmoved.1)]

theorem execRouteCommit_eq {x : Shadow} (groups : List TwinGroup) (h : s.hwk.shadow = some x) :
    let table := x.table.foldl putEntry s.hwk.table
    let t : State := { s with hwk := { s.hwk with
      version := x.version, shadow := none, table, failed := s.hwk.failed.filter (fun p => !gapIn table p) } }
    let moved := (x.table.filter (fun e => tablePos s.hwk.table e.coord ≠ e.phys)).map (·.coord)
    let u := x.table.foldl State.placeSelf ((List.range 48).foldl State.sendElsewhere (moved.foldl State.newPairs t.unqueue))
    let v := (if s.hwk.role = .spare ∧ u.hwk.role = .joining then u.takeGroups groups else u).auditHwk.auditWeirs
    execRouteCommit groups s = .next (if s.tim.now < x.time then s else if v.hwk.fenceAfterCommit = true then v.fencePorts else v) := by
  intro table t moved u v
  rw [execRouteCommit, h]
  refine congrArg _ (if_congr Iff.rfl rfl ?_)
  have hv : v = (if decide (s.hwk.role = .spare) = true ∧ u.hwk.role = .joining then u.takeGroups groups else u).auditHwk.auditWeirs :=
    congrArg (fun w : State => w.auditHwk.auditWeirs) (if_congr (and_congr_left' decide_eq_true_iff.symm) rfl rfl)
  rw [hv]
end
end Sys2Proof.Machine
end

section
open Sys2Proof Sys2Proof.Machine Sys2Proof.Claims

/-- Settles O30: the ends of a fabric runnel (execFabricTileArrival_tile, execRcredArrival_end), epoch messages, the redraw of a column
(redrawFrom_assembly, redrawFrom_spareHeld) and the route commit (execRouteCommit_eq). -/
theorem fabricAndRouteRows : Obligations.FabricAndRouteRows := by
  unfold Obligations.FabricAndRouteRows
  refine ⟨⟨fun p s hf => ⟨execFabricTileArrival_frozen hf, execRcredArrival_frozen hf⟩, fun p s hdep hf => ?fabric, fun p s => ?epoch,
      fun cid q s hdef hdrain => ?deferred⟩, fun a s => ?failure, fun p s hx hy hz hd hfailed => ?redraw,
    fun s hmaster hcomp => execRouteTablesComputed_eq hmaster hcomp, fun v time table s hin => ?packet, fun s x groups hsh => ?commit,
    fun s e => ?place⟩
  case fabric =>
    intro t cid
    refine ⟨fun hend hp => execFabricTileArrival_noEnd hdep hf hp hend, ?withdraw, fun hend => execRcredArrival_noEnd hf hend,
      fun c q hend => ?consumer, ?hold, fun c q hend => ?producer⟩
    case withdraw =>
      intro hp harg r rest hheld
      have hctl := execFabricTileArrival_ctl hdep hf hp
      rw [harg] at hctl
      exact hctl.trans (congrArg _ (State.fabricWithdraw_held hheld))
    case hold =>
      intro hend hp harg
      have hctl := execFabricTileArrival_ctl hdep hf hp
      rw [harg] at hctl
      exact hctl.trans (congrArg _ (State.fabricOpen_noEnd hend))
    case consumer =>
      intro h key
      refine ⟨?past, ?tile, ?opens, ?mark⟩
      case past =>
        intro hp hno
        exact (execFabricTileArrival_tile hdep hf hp hend).trans (congrArg _ (if_pos (hno.imp_right .inl)))
      case tile =>
        intro hp hopen hpos
        have htile := execFabricTileArrival_tile hdep hf hp hend
        refine ⟨fun hnew => htile.trans (congrArg _ (if_neg ?_)), fun hdup => htile.trans (congrArg _ (if_pos (.inr (.inr hdup))))⟩
        rintro (hclosed | hpast | hdup)
        · exact hclosed hopen
        · exact absurd hpos (Nat.not_lt.mpr hpast)
        · exact hnew hdup
      case opens =>
        intro hp harg hpending
        have hctl := execFabricTileArrival_ctl hdep hf hp
        rw [harg] at hctl
        have hopen := hctl.trans (congrArg _ (State.fabricOpen_end (s := t) hend hpending))
        exact ⟨fun hpeer hfmt => hopen.trans (congrArg _ (if_neg fun h => h.elim (absurd hpeer) (absurd hfmt))),
          fun hbad => hopen.trans (congrArg _ (if_pos hbad))⟩
      case mark =>
        intro hp harg hopen hpeer
        have hctl := execFabricTileArrival_ctl hdep hf hp
        rw [harg] at hctl
        exact hctl.trans (congrArg _ (State.fabricMark_end (s := t) hend hopen hpeer))
    case producer =>
      intro k h n
      have hcred := execRcredArrival_end hf hend
      refine ⟨fun hpending harg => ?_, fun hpending harg => ?_, fun hopen harg => ?_, fun hopen harg => ?_⟩
      · exact hcred.trans (congrArg _ ((if_pos hpending).trans (if_pos harg)))
      · rw [harg] at hcred
        exact hcred.trans (congrArg _ (if_pos hpending))
      · exact hcred.trans (congrArg _ ((if_neg hopen).trans (if_pos harg)))
      · rw [harg] at hcred
        exact hcred.trans (congrArg _ (if_neg hopen))
  case epoch =>
    intro cid e cur t
    refine ⟨fun hseen hlo hhi => execEpochMessage_eq.trans (congrArg _ ((if_neg fun h => h.2.elim ?_ (Nat.not_lt.mpr hhi)).trans (if_pos hseen))),
      fun hseen hsame => execEpochMessage_eq.trans (congrArg _ (if_pos ⟨hseen, .inl hsame⟩)),
      fun hnew => execEpochMessage_eq.trans (congrArg _ ((if_neg fun h => ne_true_of_eq_false hnew h.1).trans (if_neg (ne_true_of_eq_false hnew))))⟩
    intro hsame
    rw [show cur.2 = e from hsame.symm, Nat.add_sub_cancel_left] at hlo
    exact absurd hlo (by decide)
  case deferred =>
    exact ⟨fun hmay => (execDeferredEpochAdvance_eq hdef hdrain).trans (congrArg _ (if_pos hmay)),
      fun hmay => (execDeferredEpochAdvance_eq hdef hdrain).trans (congrArg _ (if_neg (ne_true_of_eq_false hmay)))⟩
  case failure =>
    exact ⟨fun hmaster => execHeartbeatMiss_silent (.inl hmaster), execFailureReport_noPacket, fun hnone => execHeartbeatMiss_silent (.inr hnone),
      fun m hmaster hat => execHeartbeatMiss_report hmaster hat⟩
  case redraw =>
    have hp : InDistrict p := ⟨hx, hy, Nat.le_of_lt hz, hd⟩
    rw [State.redraw, hfailed, ← coordOf_eq hx hy hz hd]
    refine ⟨fun htbl => ?_, fun z hlt hne htbl => ?_⟩
    · rw [htbl]
      exact redrawFrom_assembly hp hz
    · rw [htbl]
      exact redrawFrom_spareHeld hp hz hlt hne
  case packet =>
    intro cur
    refine ⟨fun hlo hhi => (execRoutePacket_noPacket v time table hin).trans (congrArg _ (if_neg ?_)),
      fun hsame => (execRoutePacket_noPacket v time table hin).trans (congrArg _ (if_pos (.inl hsame)))⟩
    omega
  case commit =>
    intro table t moved u v
    exact ⟨fun hearly => (execRouteCommit_eq groups hsh).trans (congrArg _ (if_pos hearly)),
      fun hdue => (execRouteCommit_eq groups hsh).trans (congrArg _ (if_neg (Nat.not_lt.mpr hdue)))⟩
  case place =>
    exact ⟨State.placeSelf_spare, State.placeSelf_moved, State.placeSelf_other⟩
end
